-- ==== Sys2Proof/Word.lean ====
section
/-!
DEFINITION. The word types of the Oahus Z9 (R7: a byte is 8 bits, a word 32 bits; s registers are 64 bits, R39)
and their plainest arithmetic.
-/

namespace Sys2Proof

/-- A byte (R7). -/
abbrev Byte := BitVec 8
/-- A 32-bit word, the length of every instruction word (R7, R42). -/
abbrev W32 := BitVec 32
/-- The width of a scalar register (R39). -/
abbrev Word := BitVec 64
/-- A 40-bit accumulator pattern (R16). -/
abbrev W40 := BitVec 40

/-- Bits [lo + n - 1 : lo] of a number (R7). -/
def field (w lo n : Nat) : Nat := w / 2 ^ lo % 2 ^ n

/-- Bit n of a number (R7). -/
def bitOf (w n : Nat) : Bool := w / 2 ^ n % 2 == 1

/-- A number read as n-bit two's complement (R19). -/
def toSigned (n w : Nat) : Int :=
  if w % 2 ^ n < 2 ^ (n - 1) then (w % 2 ^ n : Nat) else (w % 2 ^ n : Nat) - (2 ^ n : Nat)

/-- Wrap(v, n): v modulo 2^n as an n-bit pattern (R38). -/
def wrapTo (n : Nat) (v : Int) : Nat := (v % (2 ^ n : Nat)).toNat

/-- Little-endian bytes of a number (R7). -/
def toBytes : Nat → Nat → List Byte
  | 0, _ => []
  | n + 1, v => BitVec.ofNat 8 v :: toBytes n (v / 256)

/-- The number that little-endian bytes hold (R7). -/
def ofBytes : List Byte → Nat
  | [] => 0
  | b :: bs => b.toNat + 256 * ofBytes bs

/-- Replaces bits [lo + n - 1 : lo] of a number by v. -/
def setField (w lo n v : Nat) : Nat :=
  w % 2 ^ lo + (v % 2 ^ n) * 2 ^ lo + w / 2 ^ (lo + n) * 2 ^ (lo + n)

/-- The queued engines; their codes (R42, R124) are 1 to 5. -/
inductive Engine where
  | v | m | x | d | b
  deriving DecidableEq, Repr, Inhabited

/-- Engine code in queues, markers and trap values (R124, R213). -/
def Engine.code : Engine → Nat
  | .v => 1 | .m => 2 | .x => 3 | .d => 4 | .b => 5

/-- The engine of a code (R124). -/
def Engine.ofCode : Nat → Option Engine
  | 1 => some .v | 2 => some .m | 3 => some .x | 4 => some .d | 5 => some .b | _ => none

/-- A tile of a partition, by logical tile index (R108, R235). -/
structure TileId where
  part : Nat
  tile : Nat
  deriving DecidableEq, Repr, Inhabited

/-- A task slot of a partition: logical tile index and slot number (R108). -/
structure SlotId where
  part : Nat
  tile : Nat
  slot : Nat
  deriving DecidableEq, Repr, Inhabited

/-- The tile of a slot. -/
def SlotId.tileId (s : SlotId) : TileId := ⟨s.part, s.tile⟩

/-- An agent of the memory model (R285). -/
inductive Agent where
  | core (sl : SlotId)
  | eng (sl : SlotId) (e : Engine)
  | bank
  | host
  | peer
  deriving DecidableEq, Repr, Inhabited

/-- The 29-bit payload of a long prefix (R43, R53). -/
abbrev Payload := Fin 536870912

/-- A host access through CXL.mem (R415): physical HBM address, the bytes written or how many are read, and the function
whose IDE stream it arrives under. -/
structure CxlAccess where
  addr : Nat
  write : Bool
  data : List Byte
  size : Nat
  stream : Nat
  deriving DecidableEq, Repr

/-- A message of a secure session that writes a key: the session, the TDI that it names, and an encryption key slot or
an entry of a Nagil port's key table with its partition key (R419, R422), or the function's IDE stream (R417; log entry
100). -/
structure KeyWrite where
  session : Nat
  fn : Nat
  nagil : Bool
  ide : Bool
  port : Nat
  index : Nat
  pkey : Nat
  key : Nat
  deriving DecidableEq, Repr

/-- A Nagil flit as received: its 256 bytes (R421). -/
structure Flit where
  bytes : List Byte
  deriving DecidableEq, Repr

/-- A Nagil packet as received: header, payload and tag (R421). -/
structure Packet where
  bytes : List Byte
  deriving DecidableEq, Repr

/-- An event in a shared structure (R425, R427): SRC, INST, KIND and the physical address concerned. -/
structure SharedEvent where
  src : Nat
  inst : Nat
  kind : Nat
  addr : Nat
  deriving DecidableEq, Repr

/-- Where a soft error flips bits (R323): a segment of HBM; a die-cache line, clean or not; a scratchpad segment; an element
of a matrix register or accumulator; a scalar register. The last two strike a gap of R428, on the way to a destination: a
result of the vector engine, and the data of an element of a command in flight, copied or computed in a bank. -/
inductive ErrorTarget where
  | mem (addr : Nat) (bits : List Nat)
  | cache (addr : Nat) (bits : List Nat) (clean : Bool)
  | scratch (sl : SlotId) (addr : Nat) (bits : List Nat)
  | matrix (sl : SlotId) (reg : Fin 16) (el : Fin 1024) (bits : List Nat)
  | accum (sl : SlotId) (acc : Fin 4) (el : Fin 16384) (bits : List Nat)
  | scalar (sl : SlotId) (reg : Fin 64) (bits : List Nat)
  | vector (sl : SlotId) (reg : Fin 16) (el : Fin 1024) (bits : List Nat)
  | flight (id el : Nat) (bits : List Nat)
  deriving DecidableEq, Repr

end Sys2Proof
end

