-- ==== Sys2Proof/Machine/Number.lean ====
section
/-!
DEFINITION. Number formats, exact values, rounding and the helper functions of R38 (spec/01).
-/

namespace Sys2Proof.Machine

/-! Flags of R30, by bit of FPCSR. -/
/-- NV. -/
def fNV : Nat := 1
/-- DZ. -/
def fDZ : Nat := 2
/-- OF. -/
def fOF : Nat := 4
/-- UF. -/
def fUF : Nat := 8
/-- NX. -/
def fNX : Nat := 16
/-- ISAT. -/
def fISAT : Nat := 32
/-- DPOV. -/
def fDPOV : Nat := 64

/-- A decoded value: NaN with its signalling status, a signed infinity, or a sign with magnitude m × 2^e (R14, R38). -/
inductive Fl where
  | nan (sig : Bool)
  | inf (neg : Bool)
  | fin (neg : Bool) (m : Nat) (e : Int)
  deriving DecidableEq, Repr, Inhabited

/-- What the all-ones exponent means (R15): infinity and NaN, E4M3's single NaN, or plain values. -/
inductive Special where
  | ieee | e4m3 | none
  deriving DecidableEq, Repr

/-- A floating format (R14, R15): exponent bits, fraction bits, bias, special values, narrow (R28). -/
structure Fmt where
  w : Nat
  t : Nat
  bias : Nat
  sp : Special
  narrow : Bool
  deriving DecidableEq, Repr

/-- R15. -/
def FP32 : Fmt := ⟨8, 23, 127, .ieee, false⟩
/-- R15, R16. -/
def FA40 : Fmt := ⟨8, 31, 127, .ieee, false⟩
/-- R15. -/
def FP16 : Fmt := ⟨5, 10, 15, .ieee, true⟩
/-- R15. -/
def BF16 : Fmt := ⟨8, 7, 127, .ieee, true⟩
/-- R15. -/
def E5M2 : Fmt := ⟨5, 2, 15, .ieee, true⟩
/-- R15. -/
def E4M3 : Fmt := ⟨4, 3, 7, .e4m3, true⟩
/-- R15, MX element. -/
def E3M2 : Fmt := ⟨3, 2, 3, .none, true⟩
/-- R15, MX element. -/
def E2M3 : Fmt := ⟨2, 3, 1, .none, true⟩
/-- R15, MX element. -/
def E2M1 : Fmt := ⟨2, 1, 1, .none, true⟩

/-- 2 to a power that may be negative, as a fraction's two sides. -/
def pow2 (e : Int) : Nat := 2 ^ e.toNat

/-- Bits of a format: sign, exponent, fraction. -/
def Fmt.bits (F : Fmt) : Nat := 1 + F.w + F.t

/-- EMin: the exponent of the smallest normal (R38). -/
def Fmt.emin (F : Fmt) : Int := 1 - F.bias

/-- Packs sign, exponent field and fraction. -/
def Fmt.pack (F : Fmt) (neg : Bool) (ef fr : Nat) : Nat :=
  (if neg then 2 ^ (F.w + F.t) else 0) + ef * 2 ^ F.t + fr

/-- Largest exponent field of a finite value (R15). -/
def Fmt.topField (F : Fmt) : Nat :=
  match F.sp with
  | .ieee => 2 ^ F.w - 2
  | _ => 2 ^ F.w - 1

/-- Fraction of the largest finite value (R15). -/
def Fmt.topFrac (F : Fmt) : Nat :=
  match F.sp with
  | .e4m3 => 2 ^ F.t - 2
  | _ => 2 ^ F.t - 1

/-- MaxFinite(F, sign). -/
def Fmt.maxFinite (F : Fmt) (neg : Bool) : Nat := F.pack neg F.topField F.topFrac

/-- Canonical NaN (R17). -/
def Fmt.canonNaN (F : Fmt) : Nat :=
  match F.sp with
  | .ieee => F.pack false (2 ^ F.w - 1) (2 ^ (F.t - 1))
  | _ => F.pack false (2 ^ F.w - 1) (2 ^ F.t - 1)

/-- Infinity of a format, or the canonical NaN where the format has none (R28). -/
def Fmt.infOrNaN (F : Fmt) (neg : Bool) : Nat :=
  match F.sp with
  | .ieee => F.pack neg (2 ^ F.w - 1) 0
  | _ => F.canonNaN

/-- Decode(b, F) (R14, R15, R17, R38). -/
def decodeFl (F : Fmt) (b : Nat) : Fl :=
  let neg := bitOf b (F.w + F.t)
  let ef := field b F.t F.w
  let fr := field b 0 F.t
  if ef == 0 then .fin neg fr (F.emin - F.t)
  else
    let v := Fl.fin neg (2 ^ F.t + fr) ((ef : Int) - F.bias - F.t)
    if ef == 2 ^ F.w - 1 then
      match F.sp with
      | .ieee => if fr == 0 then .inf neg else .nan (fr / 2 ^ (F.t - 1) == 0)
      | .e4m3 => if fr == 2 ^ F.t - 1 then .nan false else v
      | .none => v
    else v

/-- Sign of a value. -/
def Fl.neg? : Fl → Bool
  | .nan _ => false
  | .inf n => n
  | .fin n _ _ => n

/-- Whether a value is a NaN. -/
def Fl.isNaN : Fl → Bool
  | .nan _ => true
  | _ => false

/-- Whether a value is a signalling NaN. -/
def Fl.isSig : Fl → Bool
  | .nan s => s
  | _ => false

/-- Whether a value is a zero of either sign. -/
def Fl.isZero : Fl → Bool
  | .fin _ m _ => m == 0
  | _ => false

/-- The value with its sign inverted. -/
def Fl.negate : Fl → Fl
  | .nan s => .nan s
  | .inf n => .inf (!n)
  | .fin n m e => .fin (!n) m e

/-- The value with its sign cleared. -/
def Fl.abs : Fl → Fl
  | .nan s => .nan s
  | .inf _ => .inf false
  | .fin _ m e => .fin false m e

/-- +0. -/
def Fl.zero : Fl := .fin false 0 0

/-- An integer as an exact value. -/
def Fl.ofInt (v : Int) : Fl := .fin (decide (v < 0)) v.natAbs 0

/-- An exact value m × 2^e as a signed count of 2^lo, for lo ≤ e. -/
def scaled (neg : Bool) (m : Nat) (e lo : Int) : Int :=
  let k : Int := (m * pow2 (e - lo) : Nat)
  if neg then -k else k

/-- Order of two values that are not NaN: a < b, with −0 equal to +0. -/
def Fl.lt (a b : Fl) : Bool :=
  match a, b with
  | .nan _, _ => false
  | _, .nan _ => false
  | .inf na, .inf nb => na && !nb
  | .inf na, .fin .. => na
  | .fin .., .inf nb => !nb
  | .fin na ma ea, .fin nb mb eb =>
    let lo := min ea eb
    decide (scaled na ma ea lo < scaled nb mb eb lo)

/-- Equality of two values that are not NaN, with −0 equal to +0. -/
def Fl.eq (a b : Fl) : Bool := !a.isNaN && !b.isNaN && !a.lt b && !b.lt a

/-- floor(log2(n × 2^e / den)) for n, den > 0. -/
def floorLog2 (n : Nat) (e : Int) (den : Nat) : Int :=
  let l : Int := (Nat.log2 n : Int) - (Nat.log2 den : Int)
  (if den * pow2 l ≤ n * pow2 (-l) then l else l - 1) + e

/-- Whether the magnitude rounds up, away from zero, from k + rem / D (R24, R25, R38): mode, draw r, sign. -/
def roundsUp (rm r : Nat) (neg : Bool) (k rem D : Nat) : Bool :=
  if rem == 0 then false
  else match rm with
    | 0 => decide (D < 2 * rem) || (2 * rem == D && k % 2 == 1)
    | 1 => false
    | 2 => !neg
    | 3 => neg
    | _ =>
      if neg then !decide (r - 1 < (D - rem) * 4294967296 / D)
      else decide (r - 1 < rem * 4294967296 / D)

/-- IEEE 754 overflow by mode, with SR as RNE, and E4M3's NaN in place of infinity (R28). -/
def ieeeOverflow (F : Fmt) (neg : Bool) (rm : Nat) : Nat :=
  match rm with
  | 1 => F.maxFinite neg
  | 2 => if neg then F.maxFinite neg else F.infOrNaN neg
  | 3 => if neg then F.infOrNaN neg else F.maxFinite neg
  | _ => F.infOrNaN neg

/-- RoundToFormat(x / den, F, rm, ieee) with the draw r of SR: the bits and the flags of the rounding (R25, R28, R38).
NV for a signalling NaN is the caller's. -/
def roundTo (F : Fmt) (rm : Nat) (ieee : Bool) (r : Nat) (x : Fl) (den : Nat) : Nat × Nat :=
  match x with
  | .nan _ => (F.canonNaN, 0)
  | .inf neg => (if !F.narrow || ieee then F.infOrNaN neg else F.maxFinite neg, 0)
  | .fin neg m e =>
    if m == 0 then (F.pack neg 0 0, 0)
    else
      let l := floorLog2 m e den
      let q := max l F.emin - F.t
      let N := m * pow2 (e - q)
      let D := den * pow2 (q - e)
      let k := N / D
      let rem := N % D
      let k' := if roundsUp rm r neg k rem D then k + 1 else k
      let nx := if rem == 0 then 0 else fNX
      let uf := if rem != 0 && decide (l < F.emin) then fUF else 0
      let E := q + F.t + F.bias
      let (k2, E2) := if 2 ^ (F.t + 1) ≤ k' then (k' / 2, E + 1) else (k', E)
      let ovr := decide (2 ^ F.t ≤ k2) && (decide ((F.topField : Int) < E2) ||
        (E2 == (F.topField : Int) && decide (F.topFrac < k2 - 2 ^ F.t)))
      if ovr then
        (if F.narrow && !ieee then F.maxFinite neg else ieeeOverflow F neg rm, fOF ||| fNX ||| uf)
      else if k2 < 2 ^ F.t then (F.pack neg 0 k2, nx ||| uf)
      else (F.pack neg E2.toNat (k2 - 2 ^ F.t), nx ||| uf)

/-- RoundToFormat to FP32 by RNE. -/
def rne32 (x : Fl) (den : Nat := 1) : Nat × Nat := roundTo FP32 0 true 0 x den

/-- RoundFA40 (R38). -/
def rneFA40 (x : Fl) : Nat × Nat := roundTo FA40 0 true 0 x 1

/-- An exact result before rounding: value, denominator, and the flags of an invalid or divided-by-zero case. -/
structure Ex where
  v : Fl
  den : Nat
  fl : Nat
  deriving DecidableEq, Repr

/-- An exact result with denominator 1. -/
def Ex.of (v : Fl) (fl : Nat) : Ex := ⟨v, 1, fl⟩

/-- NV where any operand is a signalling NaN (R17). -/
def sigFlag (xs : List Fl) : Nat := if xs.any Fl.isSig then fNV else 0

/-- Exact sum of two finite values; a zero sum is +0, or −0 under .rd, unless both terms are zeros of one sign (R86). -/
def sumFin (rm : Nat) (na : Bool) (ma : Nat) (ea : Int) (nb : Bool) (mb : Nat) (eb : Int) : Fl :=
  let lo := min ea eb
  let s := scaled na ma ea lo + scaled nb mb eb lo
  if s == 0 then
    if ma == 0 && mb == 0 && na == nb then .fin na 0 0 else .fin (rm == 3) 0 0
  else .fin (decide (s < 0)) s.natAbs lo

/-- a + b (R86). -/
def addFl (rm : Nat) (a b : Fl) : Ex :=
  match a, b with
  | .nan _, _ => .of (.nan false) (sigFlag [a, b])
  | _, .nan _ => .of (.nan false) (sigFlag [a, b])
  | .inf na, .inf nb => if na == nb then .of (.inf na) 0 else .of (.nan false) fNV
  | .inf na, .fin .. => .of (.inf na) 0
  | .fin .., .inf nb => .of (.inf nb) 0
  | .fin na ma ea, .fin nb mb eb => .of (sumFin rm na ma ea nb mb eb) 0

/-- a × b (R86). -/
def mulFl (a b : Fl) : Ex :=
  match a, b with
  | .nan _, _ => .of (.nan false) (sigFlag [a, b])
  | _, .nan _ => .of (.nan false) (sigFlag [a, b])
  | .inf na, .inf nb => .of (.inf (na != nb)) 0
  | .inf na, .fin nb m _ => if m == 0 then .of (.nan false) fNV else .of (.inf (na != nb)) 0
  | .fin na m _, .inf nb => if m == 0 then .of (.nan false) fNV else .of (.inf (na != nb)) 0
  | .fin na ma ea, .fin nb mb eb => .of (.fin (na != nb) (ma * mb) (ea + eb)) 0

/-- a / b (R86). -/
def divFl (a b : Fl) : Ex :=
  match a, b with
  | .nan _, _ => .of (.nan false) (sigFlag [a, b])
  | _, .nan _ => .of (.nan false) (sigFlag [a, b])
  | .inf _, .inf _ => .of (.nan false) fNV
  | .inf na, .fin nb _ _ => .of (.inf (na != nb)) 0
  | .fin na _ _, .inf nb => .of (.fin (na != nb) 0 0) 0
  | .fin na ma ea, .fin nb mb eb =>
    if mb == 0 then
      if ma == 0 then .of (.nan false) fNV else .of (.inf (na != nb)) fDZ
    else ⟨.fin (na != nb) ma (ea - eb), mb, 0⟩

/-- a × b + c with one rounding; 0 × ∞ is invalid whatever the addend (R86). -/
def fmaFl (rm : Nat) (a b c : Fl) : Ex :=
  let p := mulFl a b
  let r := addFl rm p.v c
  ⟨r.v, 1, p.fl ||| (if p.v.isNaN then sigFlag [c] else r.fl)⟩

/-- Integer square root, deciding bit k and those below it. -/
def isqrtFrom (n : Nat) : Nat → Nat → Nat
  | 0, acc => acc
  | k + 1, acc =>
    let c := acc + 2 ^ k
    isqrtFrom n k (if c * c ≤ n then c else acc)

/-- floor(sqrt(n)). -/
def isqrt (n : Nat) : Nat := isqrtFrom n (Nat.log2 n / 2 + 1) 0

/-- sqrt(a), with the exact tail as a sticky bit far below every rounding point (R86). -/
def sqrtFl (a : Fl) : Ex :=
  match a with
  | .nan _ => .of (.nan false) (sigFlag [a])
  | .inf neg => if neg then .of (.nan false) fNV else .of (.inf false) 0
  | .fin neg m e =>
    if m == 0 then .of (.fin neg 0 0) 0
    else if neg then .of (.nan false) fNV
    else
      let (m1, e1) := if e % 2 == 0 then (m, e) else (2 * m, e - 1)
      let n := m1 * 4 ^ 70
      let s := isqrt n
      .of (.fin false (2 * s + (if s * s == n then 0 else 1)) (e1 / 2 - 71)) 0

/-- FMIN and FMAX (R86): the smaller or larger operand, −0 below +0, canonical NaN for any NaN. -/
def minMaxFl (isMax : Bool) (a b : Fl) : Ex :=
  if a.isNaN || b.isNaN then .of (.nan false) (sigFlag [a, b])
  else
    let less := a.lt b || (a.isZero && b.isZero && a.neg? && !b.neg?)
    .of (if less != isMax then a else b) 0

/-- Rounds an exact result to a format: bits, and the flags of the case and of the rounding. -/
def Ex.round (x : Ex) (F : Fmt) (rm : Nat) (ieee : Bool) (r : Nat) : Nat × Nat :=
  let y := roundTo F rm ieee r x.v x.den
  (y.1, x.fl ||| y.2)

/-- Rounds an exact result to FP32 by RNE. -/
def Ex.rne32 (x : Ex) : Nat × Nat := x.round FP32 0 true 0

/-- One FP32 operation on bit patterns, rounded by mode rm with draw r. -/
def op32 (f : Fl → Fl → Ex) (rm r a b : Nat) : Nat × Nat :=
  (f (decodeFl FP32 a) (decodeFl FP32 b)).round FP32 rm true r

/-- An exact value rounded to an integer by mode rm with draw r (R29): magnitude with sign, and whether inexact. -/
def toIntRound (rm r : Nat) (neg : Bool) (m : Nat) (e : Int) : Int × Bool :=
  let N := m * pow2 e
  let D := pow2 (-e)
  let k := N / D
  let k' := if roundsUp rm r neg k (N % D) D then k + 1 else k
  (if neg then -(k' : Int) else k', N % D != 0)

/-- Range of an n-bit integer (R19). -/
def intRange (n : Nat) (signed : Bool) : Int × Int :=
  if signed then (-(2 ^ (n - 1) : Nat), (2 ^ (n - 1) : Nat) - 1) else (0, (2 ^ n : Nat) - 1)

/-- Clamps to a range: the value and whether it clamped. -/
def clampInt (lo hi v : Int) : Int × Bool := (max lo (min hi v), decide (v < lo) || decide (hi < v))

/-- FloatToInt(x, n, signed, rm): the n-bit pattern and the flags (R29). -/
def floatToInt (x : Fl) (n : Nat) (signed : Bool) (rm r : Nat) : Nat × Nat :=
  let (lo, hi) := intRange n signed
  match x with
  | .nan _ => (0, fNV)
  | .inf neg => (wrapTo n (if neg then lo else hi), fNV)
  | .fin neg m e =>
    let (v, inexact) := toIntRound rm r neg m e
    let (c, sat) := clampInt lo hi v
    (wrapTo n c, if sat then fNV else if inexact then fNX else 0)

/-- SatS and SatU: the n-bit pattern, and ISAT when it clamps (R29, R38). -/
def satInt (n : Nat) (signed : Bool) (v : Int) : Nat × Nat :=
  let (lo, hi) := intRange n signed
  let (c, sat) := clampInt lo hi v
  (wrapTo n c, if sat then fISAT else 0)

/-- Sat40 (R34, R38). -/
def sat40 (v : Int) : Nat × Nat := satInt 40 true v

/-- DivInt(a, b, n, signed): quotient and remainder patterns, truncated toward zero (R19, R38). -/
def divInt (a b n : Nat) (signed : Bool) : Nat × Nat :=
  if b % 2 ^ n == 0 then (2 ^ n - 1, a % 2 ^ n)
  else if signed then
    let x := toSigned n a
    let y := toSigned n b
    (wrapTo n (x.tdiv y), wrapTo n (x.tmod y))
  else (a % 2 ^ n / (b % 2 ^ n), a % 2 ^ n % (b % 2 ^ n))

/-- One advance of a rounding generator (R26). -/
def xorshift (x : Nat) : Nat :=
  let a := x ^^^ (x * 2 ^ 13 % 2 ^ 32)
  let b := a ^^^ (a / 2 ^ 17)
  b ^^^ (b * 2 ^ 5 % 2 ^ 32)

/-- Seeds generator c from RNGSEED (R26). -/
def seedGenerator (seed c : Nat) : Nat :=
  let x := (seed % 2 ^ 32) ^^^ (c * 0x0101)
  if x == 0 then 1 else x

/-- RoundUQ of n / den units of 2^-31: a weight, and ISAT when clamped (R38, R229). -/
def roundUQ (n den : Nat) : Nat × Nat :=
  let k := n / den
  let rem := n % den
  let k' := if roundsUp 0 0 false k rem den then k + 1 else k
  if 4294967295 < k' then (4294967295, fISAT) else (k', 0)

/-! Tables of R36 and R148, in units of 2^-9. -/

/-- TR[i] (R36). -/
def tableTR (i : Nat) : Nat := (131072 + (129 + 2 * i)) / (2 * (129 + 2 * i))

/-- TS[64p + i] (R36). -/
def tableTS (p i : Nat) : Nat := (isqrt (4 * 512 * 512 * 128 / ((129 + 2 * i) * 2 ^ p)) + 1) / 2

/-- floor of the 2^k-th root. -/
def rootPow2 : Nat → Nat → Nat
  | 0, n => n
  | k + 1, n => rootPow2 k (isqrt n)

/-- TE[i] / 2 (R148). -/
def tableTE (i : Nat) : Nat := (rootPow2 7 (2 ^ (9 * 128 + 2 * i + 1)) + 1) / 2

/-- TL[i] (R148). -/
def tableTL (i : Nat) : Nat := (Nat.log2 ((129 + 2 * i) ^ 1024) - 7 * 1024 + 1) / 2

/-- The exponent and the top six fraction bits of a finite nonzero magnitude, normalised (R36). -/
def normTop6 (m : Nat) (e : Int) : Int × Nat :=
  let l := Nat.log2 m
  (e + l, (m * 64 / 2 ^ l) % 64)

/-- VRCPA of one lane (R36, R37). -/
def rcpa (x : Fl) : Nat × Nat :=
  match x with
  | .nan s => (FP32.canonNaN, if s then fNV else 0)
  | .inf neg => (FP32.pack neg 0 0, 0)
  | .fin neg m e =>
    if m == 0 then (FP32.infOrNaN neg, fDZ)
    else
      let (ex, i) := normTop6 m e
      rne32 (.fin neg (tableTR i) (-9 - ex))

/-- VRSQA of one lane (R36, R37). -/
def rsqa (x : Fl) : Nat × Nat :=
  match x with
  | .nan s => (FP32.canonNaN, if s then fNV else 0)
  | .inf neg => if neg then (FP32.canonNaN, fNV) else (0, 0)
  | .fin neg m e =>
    if m == 0 then (FP32.infOrNaN neg, fDZ)
    else if neg then (FP32.canonNaN, fNV)
    else
      let (ex, i) := normTop6 m e
      let p := ex % 2
      rne32 (.fin false (tableTS p.toNat i) (-9 - (ex - p) / 2))

/-- VEXP2A of one lane (R148). -/
def exp2a (x : Fl) : Nat × Nat :=
  match x with
  | .nan s => (FP32.canonNaN, if s then fNV else 0)
  | .inf neg => (if neg then 0 else FP32.infOrNaN false, 0)
  | .fin neg m e =>
    let k : Int := scaled neg m e (min e (-6))
    let d : Int := (pow2 (-(min e (-6))) : Nat)
    let n := k / d
    let i := ((k - n * d) * 64 / d).toNat
    rne32 (.fin false (2 * tableTE i) (n - 9))

/-- VLOG2A of one lane (R148). -/
def log2a (x : Fl) : Nat × Nat :=
  match x with
  | .nan s => (FP32.canonNaN, if s then fNV else 0)
  | .inf neg => if neg then (FP32.canonNaN, fNV) else (FP32.infOrNaN false, 0)
  | .fin neg m e =>
    if m == 0 then (FP32.infOrNaN true, fDZ)
    else if neg then (FP32.canonNaN, fNV)
    else
      let (ex, i) := normTop6 m e
      let v := 512 * ex + tableTL i
      rne32 (.fin (decide (v < 0)) v.natAbs (-9))

/-! Pairwise reduction (R35). -/

/-- One level of the tree: adjacent results combined, flags gathered. -/
def reduceLevel (f : Nat → Nat → Nat × Nat) : List Nat → List Nat × Nat
  | a :: b :: rest =>
    let c := f a b
    let r := reduceLevel f rest
    (c.1 :: r.1, c.2 ||| r.2)
  | xs => (xs, 0)

/-- PairwiseReduce over 2^k values (R35): the result and the flags of every combination. -/
def pairwise (f : Nat → Nat → Nat × Nat) : Nat → List Nat → Nat × Nat
  | 0, xs => (xs.headD 0, 0)
  | k + 1, xs =>
    let l := reduceLevel f xs
    let r := pairwise f k l.1
    (r.1, l.2 ||| r.2)

/-- FP32 sum by RNE on bit patterns, one combination of a tree. -/
def addRne32 (a b : Nat) : Nat × Nat := op32 (addFl 0) 0 0 a b

/-- The exact sum of a group's products (R32, R38), with NV where it consumes a signalling NaN or adds opposite
infinities. DEDUCED: a sum of zeros of one sign keeps their sign, so four products −0 sum to −0 (log entry 11). -/
def groupSum : List Fl → Ex
  | [] => .of .zero 0
  | [p] => .of p (sigFlag [p])
  | p :: ps =>
    let r := groupSum ps
    let s := addFl 0 p r.v
    .of s.v (r.fl ||| s.fl)

/-- GroupAccumulate's floating step (R32, R38) on a FA40 pattern: the group sum rounded to FA40, added and rounded
again; NaN products, opposite infinities and 0 × ∞ make the group NaN and set NV. Products come as exact results with
their flags. -/
def groupAccumulate (c : Nat) (ps : List Ex) : Nat × Nat :=
  let g := groupSum (ps.map (·.v))
  let nv := if g.v.isNaN then fNV else 0
  let gr := rneFA40 g.v
  let a := addFl 0 (decodeFl FA40 c) (decodeFl FA40 gr.1)
  let r := rneFA40 a.v
  (r.1, nv ||| gr.2 ||| a.fl ||| r.2)

/-- One step of R34 on an INT40 pattern. -/
def groupAccumulateInt (c : Nat) (ps : List Int) : Nat × Nat := sat40 (toSigned 40 c + ps.sum)

/-! Element formats by code (R13). -/

/-- What a format code names: a float, an integer, an MX float, an MX integer, an image, a support point. -/
inductive Format where
  | flt (F : Fmt)
  | int (n : Nat) (signed : Bool)
  | mxf (F : Fmt)
  | mxi (n : Nat) (signed : Bool)
  | fa40
  | int40
  | point
  deriving DecidableEq, Repr

/-- R13's table; none for a reserved code. -/
def formatOf : Nat → Option Format
  | 0x01 => some (.flt FP32) | 0x02 => some (.flt FP16) | 0x03 => some (.flt BF16)
  | 0x04 => some (.flt E4M3) | 0x05 => some (.flt E5M2) | 0x06 => some .fa40 | 0x07 => some .int40
  | 0x08 => some (.int 8 true) | 0x09 => some (.int 16 true) | 0x0A => some (.int 32 true)
  | 0x0B => some (.int 64 true) | 0x0C => some (.int 8 false) | 0x0D => some (.int 16 false)
  | 0x0E => some (.int 32 false) | 0x0F => some (.int 64 false) | 0x10 => some (.mxf E4M3)
  | 0x11 => some (.mxf E5M2) | 0x12 => some (.mxf E3M2) | 0x13 => some (.mxf E2M3)
  | 0x14 => some (.mxf E2M1) | 0x15 => some (.mxi 8 true) | 0x16 => some (.mxi 6 true)
  | 0x17 => some (.mxi 4 true) | 0x18 => some (.mxi 8 false) | 0x19 => some (.mxi 6 false)
  | 0x1A => some (.mxi 4 false) | 0x1C => some .point | _ => none

/-- Element size in bits (R13). -/
def Format.size : Format → Nat
  | .flt F => F.bits
  | .int n _ => n
  | .mxf F => F.bits
  | .mxi n _ => n
  | _ => 64

/-- Whether a format is a Microscaling format (R20). -/
def Format.isMx : Format → Bool
  | .mxf _ => true
  | .mxi _ _ => true
  | _ => false

/-- Bits that an ESZ code means (R167, R267). -/
def eszBits : Nat → Option Nat
  | 0 => some 4 | 1 => some 6 | 2 => some 8 | 3 => some 16 | 4 => some 32 | 5 => some 64 | _ => none

/-- A format whose code and element size agree (R13). -/
def formatChecked (code esz : Nat) : Option Format :=
  match formatOf code, eszBits esz with
  | some f, some n => if f.size == n then some f else none
  | _, _ => none

/-- E8M0 scale (R20): a power of two, or NaN. -/
def scaleFl (e : Nat) : Fl := if e == 255 then .nan false else .fin false 1 ((e : Int) - 127)

/-- The value of an element pattern before scaling; integers of MXINT elements count v × 2^−(n−2) (R21). -/
def elementFl (f : Format) (b : Nat) : Fl :=
  match f with
  | .flt F => decodeFl F b
  | .mxf F => decodeFl F b
  | .int n s => .ofInt (if s then toSigned n b else (b % 2 ^ n : Nat))
  | .mxi n s => let v : Int := if s then toSigned n b else (b % 2 ^ n : Nat)
                .fin (decide (v < 0)) v.natAbs (2 - (n : Int))
  | .fa40 => decodeFl FA40 (b % 2 ^ 40)
  | .int40 => .ofInt (toSigned 40 b)
  | .point => decodeFl FP32 (b % 2 ^ 32)

/-- The integer of an element pattern (R19, R21). -/
def elementInt (f : Format) (b : Nat) : Int :=
  match f with
  | .int n s => if s then toSigned n b else (b % 2 ^ n : Nat)
  | .mxi n s => if s then toSigned n b else (b % 2 ^ n : Nat)
  | _ => toSigned 40 b

/-- emax of R22. -/
def mxEmax : Format → Int
  | .mxf F => if F.bias == 7 then 8 else if F.bias == 15 then 15 else if F.bias == 3 then 4 else 2
  | _ => 0

/-- One element of an MX block under a scale exponent (R22): pattern and flags. An integer element is the rounded
value in units of 2^−(n−2), saturated (R29). -/
def mxElement (f : Format) (se : Int) (rm r : Nat) (x : Fl) : Nat × Nat :=
  match x, f with
  | .fin neg m e, .mxf F => roundTo F rm false r (.fin neg m (e - se)) 1
  | .fin neg m e, .mxi n s => floatToInt (.fin neg m (e - se + (n : Int) - 2)) n s rm r
  | _, _ => (0, 0)

/-- MXEncode (R22): scale byte, elements, flags; ds gives each element's draw. -/
def mxEncode (f : Format) (rm : Nat) (ds : List Nat) (xs : List Fl) : Nat × List Nat × Nat :=
  if xs.any (fun x => match x with | .fin .. => false | _ => true) then
    (255, xs.map (fun _ => 0), fNV)
  else
    let logs := xs.filterMap (fun x => match x with
      | .fin _ m e => if m == 0 then none else some (floorLog2 m e 1)
      | _ => none)
    match logs with
    | [] => (0, xs.map (fun x => (mxElement f 0 rm 0 x).1), 0)
    | l :: ls =>
      let se := max (-127) (min 127 (ls.foldl max l - mxEmax f))
      let es := (List.zipWith (fun d x => mxElement f se rm d x) ds xs)
      ((se + 127).toNat, es.map (·.1), es.foldl (fun a y => a ||| y.2) 0)

end Sys2Proof.Machine
end

