-- ==== Sys2Proof/Syntax.lean ====
section
/-!
DEFINITION. The instructions and events of the Snijan instruction set and of the Oahus Z9, one constructor per row of
the opcode table, and the parties that can take a step.
-/

namespace Sys2Proof

/-- One constructor per row of the opcode table. The operands of a word are its fields, named and numbered as the
table gives them; a word whose form R53 lets a prefix extend has its payload as last operand. The operands of an
event name what the outside or the device brings to it. -/
inductive Instr where
  /-- ADD (R80). -/
  | add (d : Fin 64) (a : Fin 64) (b : Fin 64)
  /-- SUB (R80). -/
  | sub (d : Fin 64) (a : Fin 64) (b : Fin 64)
  /-- AND (R80). -/
  | and (d : Fin 64) (a : Fin 64) (b : Fin 64)
  /-- OR (R80). -/
  | or (d : Fin 64) (a : Fin 64) (b : Fin 64)
  /-- XOR (R80). -/
  | xor (d : Fin 64) (a : Fin 64) (b : Fin 64)
  /-- SLL (R80). -/
  | sll (d : Fin 64) (a : Fin 64) (b : Fin 64)
  /-- SRL (R80). -/
  | srl (d : Fin 64) (a : Fin 64) (b : Fin 64)
  /-- SRA (R80). -/
  | sra (d : Fin 64) (a : Fin 64) (b : Fin 64)
  /-- SLT (R80). -/
  | slt (d : Fin 64) (a : Fin 64) (b : Fin 64)
  /-- SLTU (R80). -/
  | sltu (d : Fin 64) (a : Fin 64) (b : Fin 64)
  /-- MIN (R80). -/
  | min (d : Fin 64) (a : Fin 64) (b : Fin 64)
  /-- MAX (R80). -/
  | max (d : Fin 64) (a : Fin 64) (b : Fin 64)
  /-- MINU (R80). -/
  | minu (d : Fin 64) (a : Fin 64) (b : Fin 64)
  /-- MAXU (R80). -/
  | maxu (d : Fin 64) (a : Fin 64) (b : Fin 64)
  /-- SEL (R80). -/
  | sel (d : Fin 64) (a : Fin 64) (b : Fin 64)
  /-- MUL (R81). -/
  | mul (d : Fin 64) (a : Fin 64) (b : Fin 64)
  /-- MULH (R81). -/
  | mulh (d : Fin 64) (a : Fin 64) (b : Fin 64)
  /-- MULHU (R81). -/
  | mulhu (d : Fin 64) (a : Fin 64) (b : Fin 64)
  /-- DIV (R81). -/
  | div (d : Fin 64) (a : Fin 64) (b : Fin 64)
  /-- DIVU (R81). -/
  | divu (d : Fin 64) (a : Fin 64) (b : Fin 64)
  /-- REM (R81). -/
  | rem (d : Fin 64) (a : Fin 64) (b : Fin 64)
  /-- REMU (R81). -/
  | remu (d : Fin 64) (a : Fin 64) (b : Fin 64)
  /-- CLZ (R82). -/
  | clz (d : Fin 64) (a : Fin 64)
  /-- CTZ (R82). -/
  | ctz (d : Fin 64) (a : Fin 64)
  /-- POPC (R82). -/
  | popc (d : Fin 64) (a : Fin 64)
  /-- SEXT (R82). -/
  | sext (d : Fin 64) (a : Fin 64) (w : Fin 16)
  /-- ZEXT (R82). -/
  | zext (d : Fin 64) (a : Fin 64) (w : Fin 16)
  /-- ADDI (R83). -/
  | addi (d : Fin 64) (a : Fin 64) (i : Fin 1024) (pre : Option Payload)
  /-- ANDI (R83). -/
  | andi (d : Fin 64) (a : Fin 64) (i : Fin 1024) (pre : Option Payload)
  /-- ORI (R83). -/
  | ori (d : Fin 64) (a : Fin 64) (i : Fin 1024) (pre : Option Payload)
  /-- XORI (R83). -/
  | xori (d : Fin 64) (a : Fin 64) (i : Fin 1024) (pre : Option Payload)
  /-- SLLI (R83). -/
  | slli (d : Fin 64) (a : Fin 64) (i : Fin 1024) (pre : Option Payload)
  /-- SRLI (R83). -/
  | srli (d : Fin 64) (a : Fin 64) (i : Fin 1024) (pre : Option Payload)
  /-- SRAI (R83). -/
  | srai (d : Fin 64) (a : Fin 64) (i : Fin 1024) (pre : Option Payload)
  /-- SLTI (R83). -/
  | slti (d : Fin 64) (a : Fin 64) (i : Fin 1024) (pre : Option Payload)
  /-- SLTIU (R83). -/
  | sltiu (d : Fin 64) (a : Fin 64) (i : Fin 1024) (pre : Option Payload)
  /-- MOVI (R84). -/
  | movi (d : Fin 64) (i : Fin 65536) (pre : Option Payload)
  /-- MOVS (R84). -/
  | movs (d : Fin 64) (i : Fin 65536)
  /-- FADD (R86). -/
  | fadd (d : Fin 64) (a : Fin 64) (b : Fin 64) (m : Fin 8)
  /-- FSUB (R86). -/
  | fsub (d : Fin 64) (a : Fin 64) (b : Fin 64) (m : Fin 8)
  /-- FMUL (R86). -/
  | fmul (d : Fin 64) (a : Fin 64) (b : Fin 64) (m : Fin 8)
  /-- FDIV (R86). -/
  | fdiv (d : Fin 64) (a : Fin 64) (b : Fin 64) (m : Fin 8)
  /-- FSQRT (R86). -/
  | fsqrt (d : Fin 64) (a : Fin 64) (m : Fin 8)
  /-- FMIN (R86). -/
  | fmin (d : Fin 64) (a : Fin 64) (b : Fin 64)
  /-- FMAX (R86). -/
  | fmax (d : Fin 64) (a : Fin 64) (b : Fin 64)
  /-- FMA (R86). -/
  | fma (d : Fin 64) (a : Fin 64) (b : Fin 64) (m : Fin 8)
  /-- FCMP (R87). -/
  | fcmp (d : Fin 64) (a : Fin 64) (b : Fin 64) (c : Fin 16)
  /-- FCVT (R88). -/
  | fcvt (d : Fin 64) (a : Fin 64) (k : Fin 64) (e : Fin 2) (m : Fin 8)
  /-- FCLASS (R89). -/
  | fclass (d : Fin 64) (a : Fin 64)
  /-- BEQ (R91). -/
  | beq (a : Fin 64) (b : Fin 64) (o : Fin 1024) (pre : Option Payload)
  /-- BNE (R91). -/
  | bne (a : Fin 64) (b : Fin 64) (o : Fin 1024) (pre : Option Payload)
  /-- BLT (R91). -/
  | blt (a : Fin 64) (b : Fin 64) (o : Fin 1024) (pre : Option Payload)
  /-- BGE (R91). -/
  | bge (a : Fin 64) (b : Fin 64) (o : Fin 1024) (pre : Option Payload)
  /-- BLTU (R91). -/
  | bltu (a : Fin 64) (b : Fin 64) (o : Fin 1024) (pre : Option Payload)
  /-- BGEU (R91). -/
  | bgeu (a : Fin 64) (b : Fin 64) (o : Fin 1024) (pre : Option Payload)
  /-- J (R91). -/
  | j (o : Fin 4194304) (pre : Option Payload)
  /-- JAL (R91). -/
  | jal (o : Fin 4194304) (pre : Option Payload)
  /-- JALR (R92). -/
  | jalr (d : Fin 64) (a : Fin 64) (i : Fin 1024) (pre : Option Payload)
  /-- LD (R93). -/
  | ld (d : Fin 64) (h : Fin 16) (b : Fin 64) (t : Fin 16)
  /-- ST (R93). -/
  | st (d : Fin 64) (h : Fin 16) (b : Fin 64) (t : Fin 16)
  /-- LDL (R96). -/
  | ldl (d : Fin 64) (a : Fin 64) (t : Fin 8) (i : Fin 128) (pre : Option Payload)
  /-- STL (R96). -/
  | stl (d : Fin 64) (a : Fin 64) (t : Fin 8) (i : Fin 128) (pre : Option Payload)
  /-- LDF (R98). -/
  | ldf (d : Fin 64) (h : Fin 16) (b : Fin 64)
  /-- STF (R98). -/
  | stf (d : Fin 64) (h : Fin 16) (b : Fin 64)
  /-- AADD (R101). -/
  | aadd (d : Fin 64) (h : Fin 16) (b : Fin 64) (s : Fin 16)
  /-- AAND (R101). -/
  | aand (d : Fin 64) (h : Fin 16) (b : Fin 64) (s : Fin 16)
  /-- AOR (R101). -/
  | aor (d : Fin 64) (h : Fin 16) (b : Fin 64) (s : Fin 16)
  /-- AXOR (R101). -/
  | axor (d : Fin 64) (h : Fin 16) (b : Fin 64) (s : Fin 16)
  /-- AMIN (R101). -/
  | amin (d : Fin 64) (h : Fin 16) (b : Fin 64) (s : Fin 16)
  /-- AMAX (R101). -/
  | amax (d : Fin 64) (h : Fin 16) (b : Fin 64) (s : Fin 16)
  /-- ASWP (R101). -/
  | aswp (d : Fin 64) (h : Fin 16) (b : Fin 64) (s : Fin 16)
  /-- ACAS (R101). -/
  | acas (d : Fin 64) (h : Fin 16) (b : Fin 64) (s : Fin 16)
  /-- CSRR (R103). -/
  | csrr (d : Fin 64) (c : Fin 1024) (pre : Option Payload)
  /-- CSRW (R103). -/
  | csrw (a : Fin 64) (c : Fin 1024) (pre : Option Payload)
  /-- CSRX (R103). -/
  | csrx (d : Fin 64) (a : Fin 64) (c : Fin 1024) (pre : Option Payload)
  /-- PRD (R105). -/
  | prd (d : Fin 64) (p : Fin 1024) (pre : Option Payload)
  /-- VREAD (R106). -/
  | vread (d : Fin 64) (m : Fin 16) (b : Fin 64) (e : Fin 16)
  /-- SEV (R141). -/
  | sev (g : Fin 2)
  /-- TRAP (R139). -/
  | trap (i : Fin 65536) (pre : Option Payload)
  /-- SYSC (R139). -/
  | sysc (i : Fin 65536) (pre : Option Payload)
  /-- UIEN (R140). -/
  | uien (e : Fin 2) (pre : Option Payload)
  /-- WAITC (R112). -/
  | waitc (d : Fin 64) (s : Fin 64) (c : Fin 64) (t : Fin 16) (pre : Option Payload)
  /-- WAITF (R113). -/
  | waitf (d : Fin 64) (c : Fin 2) (f : Fin 64) (t : Fin 16) (pre : Option Payload)
  /-- WAITB (R115). -/
  | waitb (d : Fin 64) (s : Fin 64) (c : Fin 2) (p : Fin 2) (t : Fin 16) (pre : Option Payload)
  /-- BARA (R116). -/
  | bara (d : Fin 64) (n : Fin 4)
  /-- BARW (R116). -/
  | barw (d : Fin 64) (s : Fin 64) (n : Fin 4) (t : Fin 16) (pre : Option Payload)
  /-- FENCE (R117). -/
  | fence (k : Fin 4) (s : Fin 16) (pre : Option Payload)
  /-- BFENCE_HANDLE (R119). -/
  | bfenceHandle (h : Fin 16)
  /-- TRSYNC (R120). -/
  | trsync (a : Fin 64) (pre : Option Payload)
  /-- TRSYNC_ALL (R120). -/
  | trsyncAll (pre : Option Payload)
  /-- PUB (R121). -/
  | pub (d : Fin 64) (a : Fin 64) (s : Fin 16)
  /-- XLATE (R122). -/
  | xlate (h : Fin 16) (a : Fin 64) (b : Fin 64)
  /-- HINV (R123). -/
  | hinv (h : Fin 16)
  /-- KSET (R124). -/
  | kset (e : Fin 8) (n : Fin 8) (a : Fin 64) (i : Fin 1024) (pre : Option Payload)
  /-- XSET (R124). -/
  | xset (e : Fin 8) (n : Fin 8) (a : Fin 64) (b : Fin 64) (g : Fin 2) (l : Fin 4)
  /-- LOOPB (R125). -/
  | loopb (e : Fin 8) (k : Fin 8) (f : Fin 8) (g : Fin 4) (h : Fin 8) (i : Fin 4) (j : Fin 8) (l : Fin 4) (pre : Option Payload)
  /-- TSPAWN (R127). -/
  | tspawn (d : Fin 64) (h : Fin 16) (b : Fin 64)
  /-- KLAUNCH (R374). -/
  | klaunch (d : Fin 64) (h : Fin 16) (b : Fin 64) (q : Fin 8)
  /-- RENQ (R130). -/
  | renq (d : Fin 64) (a : Fin 64) (b : Fin 64) (e : Fin 8)
  /-- QINIT (R131). -/
  | qinit (h : Fin 16) (b : Fin 64) (c : Fin 16)
  /-- QPUSH (R132). -/
  | qpush (d : Fin 64) (h : Fin 16) (b : Fin 64)
  /-- QPOP (R132). -/
  | qpop (d : Fin 64) (h : Fin 16) (b : Fin 64)
  /-- QTRY_POP (R132). -/
  | qtryPop (d : Fin 64) (h : Fin 16) (b : Fin 64)
  /-- QTRY_PUSH (R132). -/
  | qtryPush (d : Fin 64) (h : Fin 16) (b : Fin 64)
  /-- SEMW (R133). -/
  | semw (d : Fin 64) (s : Fin 64) (h : Fin 16) (t : Fin 16) (pre : Option Payload)
  /-- SEMP (R133). -/
  | semp (h : Fin 16) (b : Fin 64)
  /-- FFILL (R134). -/
  | ffill (h : Fin 16) (b : Fin 64)
  /-- FCLR (R134). -/
  | fclr (d : Fin 64) (h : Fin 16) (b : Fin 64)
  /-- TKSET (R133). -/
  | tkset (d : Fin 64) (a : Fin 64)
  /-- TKGET (R133). -/
  | tkget (d : Fin 64) (e : Fin 8) (k : Fin 16)
  /-- RALLOC (R136). -/
  | ralloc (d : Fin 64) (c : Fin 4) (pre : Option Payload)
  /-- RFREE (R137). -/
  | rfree (k : Fin 16) (pre : Option Payload)
  /-- RPIN (R137). -/
  | rpin (d : Fin 64) (k : Fin 16) (pre : Option Payload)
  /-- RUNPIN (R137). -/
  | runpin (d : Fin 64) (k : Fin 16) (pre : Option Payload)
  /-- SEGB (R138). -/
  | segb (i : Fin 65536) (pre : Option Payload)
  /-- SEGE (R330). -/
  | sege (i : Fin 65536) (pre : Option Payload)
  /-- VADD (R147). -/
  | vadd (d : Fin 64) (a : Fin 64) (b : Fin 64) (x : Fin 8) (l : Fin 2)
  /-- VSUB (R147). -/
  | vsub (d : Fin 64) (a : Fin 64) (b : Fin 64) (x : Fin 8) (l : Fin 2)
  /-- VMUL (R147). -/
  | vmul (d : Fin 64) (a : Fin 64) (b : Fin 64) (x : Fin 8) (l : Fin 2)
  /-- VDIV (R147). -/
  | vdiv (d : Fin 64) (a : Fin 64) (b : Fin 64) (x : Fin 8) (l : Fin 2)
  /-- VMIN (R147). -/
  | vmin (d : Fin 64) (a : Fin 64) (b : Fin 64) (x : Fin 8) (l : Fin 2)
  /-- VMAX (R147). -/
  | vmax (d : Fin 64) (a : Fin 64) (b : Fin 64) (x : Fin 8) (l : Fin 2)
  /-- VABS (R147). -/
  | vabs (d : Fin 64) (a : Fin 64) (x : Fin 8) (l : Fin 2)
  /-- VNEG (R147). -/
  | vneg (d : Fin 64) (a : Fin 64) (x : Fin 8) (l : Fin 2)
  /-- VFMA (R147). -/
  | vfma (d : Fin 64) (a : Fin 64) (b : Fin 64) (x : Fin 8) (l : Fin 2)
  /-- VFMS (R147). -/
  | vfms (d : Fin 64) (a : Fin 64) (b : Fin 64) (x : Fin 8) (l : Fin 2)
  /-- VRCPA (R148). -/
  | vrcpa (d : Fin 64) (a : Fin 64) (x : Fin 8) (l : Fin 2)
  /-- VRSQA (R148). -/
  | vrsqa (d : Fin 64) (a : Fin 64) (x : Fin 8) (l : Fin 2)
  /-- VEXP2A (R148). -/
  | vexp2a (d : Fin 64) (a : Fin 64) (x : Fin 8) (l : Fin 2)
  /-- VLOG2A (R148). -/
  | vlog2a (d : Fin 64) (a : Fin 64) (x : Fin 8) (l : Fin 2)
  /-- VIADD (R147). -/
  | viadd (d : Fin 64) (a : Fin 64) (b : Fin 64) (x : Fin 8) (l : Fin 2)
  /-- VISUB (R147). -/
  | visub (d : Fin 64) (a : Fin 64) (b : Fin 64) (x : Fin 8) (l : Fin 2)
  /-- VIMUL (R147). -/
  | vimul (d : Fin 64) (a : Fin 64) (b : Fin 64) (x : Fin 8) (l : Fin 2)
  /-- VIMIN (R147). -/
  | vimin (d : Fin 64) (a : Fin 64) (b : Fin 64) (x : Fin 8) (l : Fin 2)
  /-- VIMAX (R147). -/
  | vimax (d : Fin 64) (a : Fin 64) (b : Fin 64) (x : Fin 8) (l : Fin 2)
  /-- VNMIN (R147). -/
  | vnmin (d : Fin 64) (a : Fin 64) (b : Fin 64) (x : Fin 8) (l : Fin 2)
  /-- VNMAX (R147). -/
  | vnmax (d : Fin 64) (a : Fin 64) (b : Fin 64) (x : Fin 8) (l : Fin 2)
  /-- VIADDS (R147). -/
  | viadds (d : Fin 64) (a : Fin 64) (b : Fin 64) (x : Fin 8) (l : Fin 2)
  /-- VNADDS (R147). -/
  | vnadds (d : Fin 64) (a : Fin 64) (b : Fin 64) (x : Fin 8) (l : Fin 2)
  /-- VAND (R151). -/
  | vand (d : Fin 64) (a : Fin 64) (b : Fin 64) (x : Fin 8) (l : Fin 2)
  /-- VOR (R151). -/
  | vor (d : Fin 64) (a : Fin 64) (b : Fin 64) (x : Fin 8) (l : Fin 2)
  /-- VXOR (R151). -/
  | vxor (d : Fin 64) (a : Fin 64) (b : Fin 64) (x : Fin 8) (l : Fin 2)
  /-- VNOT (R151). -/
  | vnot (d : Fin 64) (a : Fin 64) (x : Fin 8) (l : Fin 2)
  /-- VSLL (R151). -/
  | vsll (d : Fin 64) (a : Fin 64) (b : Fin 64) (x : Fin 8) (l : Fin 2)
  /-- VSRL (R151). -/
  | vsrl (d : Fin 64) (a : Fin 64) (b : Fin 64) (x : Fin 8) (l : Fin 2)
  /-- VSRA (R151). -/
  | vsra (d : Fin 64) (a : Fin 64) (b : Fin 64) (x : Fin 8) (l : Fin 2)
  /-- VPACK (R150). -/
  | vpack (d : Fin 64) (a : Fin 64) (b : Fin 64) (x : Fin 8) (l : Fin 2)
  /-- VUNPK (R150). -/
  | vunpk (d : Fin 64) (a : Fin 64) (s : Fin 2) (h : Fin 2) (x : Fin 8) (l : Fin 2)
  /-- VCVT_F16_F32 (R149). -/
  | vcvtF16F32 (d : Fin 64) (a : Fin 64) (r : Fin 8) (i : Fin 2) (x : Fin 8) (l : Fin 2)
  /-- VCVT_BF16_F32 (R149). -/
  | vcvtBf16F32 (d : Fin 64) (a : Fin 64) (r : Fin 8) (i : Fin 2) (x : Fin 8) (l : Fin 2)
  /-- VCVT_E4M3_F32 (R149). -/
  | vcvtE4m3F32 (d : Fin 64) (a : Fin 64) (r : Fin 8) (i : Fin 2) (x : Fin 8) (l : Fin 2)
  /-- VCVT_E5M2_F32 (R149). -/
  | vcvtE5m2F32 (d : Fin 64) (a : Fin 64) (r : Fin 8) (i : Fin 2) (x : Fin 8) (l : Fin 2)
  /-- VCVT_F32_F16 (R149). -/
  | vcvtF32F16 (d : Fin 64) (a : Fin 64) (x : Fin 8) (l : Fin 2)
  /-- VCVT_F32_BF16 (R149). -/
  | vcvtF32Bf16 (d : Fin 64) (a : Fin 64) (x : Fin 8) (l : Fin 2)
  /-- VCVT_F32_E4M3 (R149). -/
  | vcvtF32E4m3 (d : Fin 64) (a : Fin 64) (x : Fin 8) (l : Fin 2)
  /-- VCVT_F32_E5M2 (R149). -/
  | vcvtF32E5m2 (d : Fin 64) (a : Fin 64) (x : Fin 8) (l : Fin 2)
  /-- VCVT_I32_F32 (R149). -/
  | vcvtI32F32 (d : Fin 64) (a : Fin 64) (r : Fin 8) (x : Fin 8) (l : Fin 2)
  /-- VCVT_N32_F32 (R149). -/
  | vcvtN32F32 (d : Fin 64) (a : Fin 64) (r : Fin 8) (x : Fin 8) (l : Fin 2)
  /-- VCVT_F32_I32 (R149). -/
  | vcvtF32I32 (d : Fin 64) (a : Fin 64) (r : Fin 8) (x : Fin 8) (l : Fin 2)
  /-- VCVT_F32_N32 (R149). -/
  | vcvtF32N32 (d : Fin 64) (a : Fin 64) (r : Fin 8) (x : Fin 8) (l : Fin 2)
  /-- VCMP_EQ_F32 (R152). -/
  | vcmpEqF32 (d : Fin 128) (a : Fin 64) (b : Fin 64) (x : Fin 8)
  /-- VCMP_NE_F32 (R152). -/
  | vcmpNeF32 (d : Fin 128) (a : Fin 64) (b : Fin 64) (x : Fin 8)
  /-- VCMP_LT_F32 (R152). -/
  | vcmpLtF32 (d : Fin 128) (a : Fin 64) (b : Fin 64) (x : Fin 8)
  /-- VCMP_LE_F32 (R152). -/
  | vcmpLeF32 (d : Fin 128) (a : Fin 64) (b : Fin 64) (x : Fin 8)
  /-- VCMP_EQ_I32 (R152). -/
  | vcmpEqI32 (d : Fin 128) (a : Fin 64) (b : Fin 64) (x : Fin 8)
  /-- VCMP_LT_I32 (R152). -/
  | vcmpLtI32 (d : Fin 128) (a : Fin 64) (b : Fin 64) (x : Fin 8)
  /-- VCMP_LE_I32 (R152). -/
  | vcmpLeI32 (d : Fin 128) (a : Fin 64) (b : Fin 64) (x : Fin 8)
  /-- VCMP_LT_N32 (R152). -/
  | vcmpLtN32 (d : Fin 128) (a : Fin 64) (b : Fin 64) (x : Fin 8)
  /-- VCMP_LE_N32 (R152). -/
  | vcmpLeN32 (d : Fin 128) (a : Fin 64) (b : Fin 64) (x : Fin 8)
  /-- VPAND (R153). -/
  | vpand (d : Fin 128) (a : Fin 128) (b : Fin 128) (z : Fin 2)
  /-- VPOR (R153). -/
  | vpor (d : Fin 128) (a : Fin 128) (b : Fin 128) (z : Fin 2)
  /-- VPXOR (R153). -/
  | vpxor (d : Fin 128) (a : Fin 128) (b : Fin 128) (z : Fin 2)
  /-- VPANDN (R153). -/
  | vpandn (d : Fin 128) (a : Fin 128) (b : Fin 128) (z : Fin 2)
  /-- VPSEL (R153). -/
  | vpsel (a : Fin 128)
  /-- VMPUSH (R154). -/
  | vmpush (a : Fin 128) (z : Fin 2)
  /-- VSKIPZ (R155). -/
  | vskipz (n : Fin 65536) (pre : Option Payload)
  /-- VRED_ADD_F32 (R156). -/
  | vredAddF32 (d : Fin 64) (a : Fin 64) (x : Fin 8) (l : Fin 2)
  /-- VRED_MAX_F32 (R156). -/
  | vredMaxF32 (d : Fin 64) (a : Fin 64) (x : Fin 8) (l : Fin 2)
  /-- VRED_MIN_F32 (R156). -/
  | vredMinF32 (d : Fin 64) (a : Fin 64) (x : Fin 8) (l : Fin 2)
  /-- VRED_ADD_I32 (R156). -/
  | vredAddI32 (d : Fin 64) (a : Fin 64) (x : Fin 8) (l : Fin 2)
  /-- VSCAN_ADD_F32 (R157). -/
  | vscanAddF32 (d : Fin 64) (a : Fin 64) (x : Fin 8) (l : Fin 2)
  /-- VSCAN_ADD_I32 (R157). -/
  | vscanAddI32 (d : Fin 64) (a : Fin 64) (x : Fin 8) (l : Fin 2)
  /-- VPERM (R158). -/
  | vperm (d : Fin 64) (a : Fin 64) (b : Fin 64) (x : Fin 8) (l : Fin 2)
  /-- VBCST (R158). -/
  | vbcst (d : Fin 64) (a : Fin 64) (x : Fin 8)
  /-- VMOV (R158). -/
  | vmov (d : Fin 64) (a : Fin 64) (x : Fin 8) (l : Fin 2)
  /-- VTRN (R158). -/
  | vtrn (d : Fin 16) (a : Fin 16) (l : Fin 2)
  /-- VIDX (R158). -/
  | vidx (d : Fin 64) (x : Fin 8)
  /-- VFREE (R162). -/
  | vfree (d : Fin 16)
  /-- VLD (R159). -/
  | vld (d : Fin 64) (a : Fin 64) (o : Fin 64) (x : Fin 8)
  /-- VST (R159). -/
  | vst (d : Fin 64) (a : Fin 64) (o : Fin 64) (x : Fin 8) (l : Fin 2)
  /-- VGTH (R159). -/
  | vgth (d : Fin 64) (a : Fin 64) (b : Fin 64) (x : Fin 8)
  /-- VSCT (R159). -/
  | vsct (d : Fin 64) (a : Fin 64) (b : Fin 64) (x : Fin 8) (l : Fin 2)
  /-- VBRK (R163). -/
  | vbrk (a : Fin 2) (n : Fin 4) (pre : Option Payload)
  /-- ESET_V (R164). -/
  | esetV (f : Fin 16)
  /-- EWAIT_V (R164). -/
  | ewaitV (f : Fin 16)
  /-- MMA (R172). -/
  | mma (c : Fin 4) (a : Fin 64) (b : Fin 64) (k : Fin 8) (z : Fin 2) (q : Fin 2) (t : Fin 2) (s : Fin 2)
  /-- MMAG (R173). -/
  | mmag (c : Fin 4) (a : Fin 64) (b : Fin 64) (k : Fin 8) (z : Fin 2) (q : Fin 2) (t : Fin 2) (s : Fin 2)
  /-- MMAC (R172). -/
  | mmac (c : Fin 4) (a : Fin 64) (b : Fin 64) (k : Fin 8) (z : Fin 2) (t : Fin 2) (s : Fin 2)
  /-- MZERO (R175). -/
  | mzero (c : Fin 4)
  /-- MLOADA (R175). -/
  | mloada (c : Fin 4) (a : Fin 64)
  /-- MDRAIN (R176). -/
  | mdrain (c : Fin 4) (a : Fin 64) (r : Fin 8) (v : Fin 2)
  /-- MEPI (R178). -/
  | mepi (c : Fin 4) (a : Fin 64) (b : Fin 64) (r : Fin 8) (v : Fin 2)
  /-- MCHK (R179). -/
  | mchk (c : Fin 4)
  /-- MBAR (R183). -/
  | mbar (a : Fin 64)
  /-- ESET_M (R183). -/
  | esetM (f : Fin 16)
  /-- EWAIT_M (R183). -/
  | ewaitM (f : Fin 16)
  /-- XCPY (R196). -/
  | xcpy (d : Fin 64) (a : Fin 64) (b : Fin 64) (p : Fin 2) (u : Fin 2)
  /-- XCPYT (R196). -/
  | xcpyt (d : Fin 64) (a : Fin 64) (b : Fin 64) (p : Fin 2) (u : Fin 2)
  /-- XFILL (R198). -/
  | xfill (d : Fin 64) (a : Fin 64) (b : Fin 64) (p : Fin 2) (u : Fin 2)
  /-- XGTH (R199). -/
  | xgth (d : Fin 64) (a : Fin 64) (b : Fin 64) (p : Fin 2) (u : Fin 2)
  /-- XSCT (R199). -/
  | xsct (d : Fin 64) (a : Fin 64) (b : Fin 64) (p : Fin 2) (u : Fin 2)
  /-- XBIND (R200). -/
  | xbind (d : Fin 64) (a : Fin 64) (b : Fin 64) (u : Fin 2)
  /-- XUNB (R200). -/
  | xunb (d : Fin 64) (a : Fin 64) (u : Fin 2)
  /-- XCLASS (R195). -/
  | xclass (d : Fin 64) (a : Fin 64) (b : Fin 64) (p : Fin 2) (u : Fin 2)
  /-- XPUT (R202). -/
  | xput (d : Fin 64) (a : Fin 64) (b : Fin 64) (p : Fin 2) (u : Fin 2)
  /-- XGET (R202). -/
  | xget (d : Fin 64) (a : Fin 64) (b : Fin 64) (p : Fin 2) (u : Fin 2)
  /-- XRED (R203). -/
  | xred (d : Fin 64) (a : Fin 64) (b : Fin 64) (p : Fin 2) (u : Fin 2)
  /-- XBCST (R202). -/
  | xbcst (d : Fin 64) (a : Fin 64) (b : Fin 64) (p : Fin 2) (u : Fin 2)
  /-- XPUB (R204). -/
  | xpub (d : Fin 64) (a : Fin 64) (u : Fin 2)
  /-- XCHAIN (R205). -/
  | xchain (d : Fin 64) (a : Fin 64) (b : Fin 64) (u : Fin 2)
  /-- XSTAT (R206). -/
  | xstat (d : Fin 64) (a : Fin 64) (u : Fin 2)
  /-- ESET_X (R207). -/
  | esetX (f : Fin 16)
  /-- EWAIT_X (R207). -/
  | ewaitX (f : Fin 16)
  /-- BKADD (R209). -/
  | bkadd (d : Fin 64) (a : Fin 64) (b : Fin 64) (u : Fin 2)
  /-- BKAXPY (R209). -/
  | bkaxpy (d : Fin 64) (a : Fin 64) (b : Fin 64) (u : Fin 2)
  /-- BKRED (R209). -/
  | bkred (d : Fin 64) (a : Fin 64) (b : Fin 64) (u : Fin 2)
  /-- BKGSUM (R209). -/
  | bkgsum (d : Fin 64) (a : Fin 64) (b : Fin 64) (u : Fin 2)
  /-- BKFILL (R209). -/
  | bkfill (d : Fin 64) (a : Fin 64) (b : Fin 64) (u : Fin 2)
  /-- BKSCAL (R209). -/
  | bkscal (d : Fin 64) (a : Fin 64) (b : Fin 64) (u : Fin 2)
  /-- BKMAX (R209). -/
  | bkmax (d : Fin 64) (a : Fin 64) (b : Fin 64) (u : Fin 2)
  /-- BKCAS (R209). -/
  | bkcas (d : Fin 64) (a : Fin 64) (b : Fin 64) (u : Fin 2)
  /-- ESET_B (R207). -/
  | esetB (f : Fin 16)
  /-- EWAIT_B (R207). -/
  | ewaitB (f : Fin 16)
  /-- DLD (R218). -/
  | dld (d : Fin 16) (m : Fin 64) (x : Fin 8)
  /-- DST (R218). -/
  | dst (a : Fin 16) (m : Fin 64) (x : Fin 8)
  /-- DFROMV_V (R219). -/
  | dfromvV (d : Fin 16) (j : Fin 8) (c : Fin 2) (m : Fin 64) (x : Fin 8)
  /-- DFROMV_W (R219). -/
  | dfromvW (d : Fin 16) (j : Fin 8) (c : Fin 2) (m : Fin 64) (x : Fin 8)
  /-- DTAG (R220). -/
  | dtag (d : Fin 16) (a : Fin 16) (m : Fin 64) (x : Fin 8)
  /-- DADD (R223). -/
  | dadd (d : Fin 16) (a : Fin 16) (b : Fin 16)
  /-- DADD_EXACT (R223). -/
  | daddExact (d : Fin 16) (a : Fin 16) (m : Fin 64) (x : Fin 8)
  /-- DSUB (R223). -/
  | dsub (d : Fin 16) (a : Fin 16) (b : Fin 16)
  /-- DSUB_EXACT (R223). -/
  | dsubExact (d : Fin 16) (a : Fin 16) (m : Fin 64) (x : Fin 8)
  /-- DMUL (R223). -/
  | dmul (d : Fin 16) (a : Fin 16) (b : Fin 16)
  /-- DMUL_EXACT (R223). -/
  | dmulExact (d : Fin 16) (a : Fin 16) (m : Fin 64) (x : Fin 8)
  /-- DMAX (R223). -/
  | dmax (d : Fin 16) (a : Fin 16) (b : Fin 16)
  /-- DMAX_EXACT (R223). -/
  | dmaxExact (d : Fin 16) (a : Fin 16) (m : Fin 64) (x : Fin 8)
  /-- DMIN (R223). -/
  | dmin (d : Fin 16) (a : Fin 16) (b : Fin 16)
  /-- DMIN_EXACT (R223). -/
  | dminExact (d : Fin 16) (a : Fin 16) (m : Fin 64) (x : Fin 8)
  /-- DAFF (R224). -/
  | daff (d : Fin 16) (a : Fin 16) (m : Fin 64) (x : Fin 8)
  /-- DRELU (R225). -/
  | drelu (d : Fin 16) (a : Fin 16)
  /-- DABS (R225). -/
  | dabs (d : Fin 16) (a : Fin 16)
  /-- DMIX (R226). -/
  | dmix (d : Fin 16) (a : Fin 16) (b : Fin 16) (m : Fin 64) (x : Fin 8)
  /-- DCOND (R227). -/
  | dcond (d : Fin 16) (a : Fin 16)
  /-- DSUML (R228). -/
  | dsuml (d : Fin 16) (a : Fin 16)
  /-- DMOM (R231). -/
  | dmom (d : Fin 16) (a : Fin 16) (k : Fin 4) (x : Fin 8)
  /-- DQNT (R231). -/
  | dqnt (d : Fin 16) (a : Fin 16) (m : Fin 64) (x : Fin 8)
  /-- DCDF (R231). -/
  | dcdf (d : Fin 16) (a : Fin 16) (m : Fin 64) (x : Fin 8)
  /-- ESET_D (R232). -/
  | esetD (f : Fin 16)
  /-- EWAIT_D (R232). -/
  | ewaitD (f : Fin 16)
  /-- NOP (R141). -/
  | nop
  /-- WFE (R141). -/
  | wfe
  /-- YIELD (R135). -/
  | yield
  /-- ERET (R139). -/
  | eret
  /-- HALT (R139). -/
  | halt
  /-- UIRET (R140). -/
  | uiret
  /-- BFENCE (R119). -/
  | bfence
  /-- HINV_ALL (R123). -/
  | hinvAll
  /-- LOOPE (R125). -/
  | loope
  /-- TDONE (R128). -/
  | tdone
  /-- VMINV (R154). -/
  | vminv
  /-- VMPOP (R154). -/
  | vmpop
  /-- MNOP (R183). -/
  | mnop
  /-- CHAIN_BLOCK (R205). -/
  | chainBlock (sl : SlotId)
  /-- BANK_COMMAND_EXECUTION (R211). -/
  | bankCommandExecution (id : Nat)
  /-- SPLIT_INTO_QUEUE (R55). -/
  | splitIntoQueue (sl : SlotId)
  /-- RENQ_BLOCK_READ (R130). -/
  | renqBlockRead (sl : SlotId) (e : Engine)
  /-- COMMAND_COMPLETION (R193). -/
  | commandCompletion (id : Nat)
  /-- STREAM_FILL (R201). -/
  | streamFill (sl : SlotId) (q : Fin 16)
  /-- STREAM_DRAIN (R201). -/
  | streamDrain (sl : SlotId) (q : Fin 16)
  /-- BLOCKING_WAIT_RELEASE (R109). -/
  | blockingWaitRelease (sl : SlotId)
  /-- WAIT_TIMEOUT (R111). -/
  | waitTimeout (sl : SlotId)
  /-- KERNEL_TRAP_ENTRY (R69). -/
  | kernelTrapEntry (sl : SlotId)
  /-- USER_INTERRUPT_DELIVERY (R246). -/
  | userInterruptDelivery (sl : SlotId)
  /-- CONEX (R327). -/
  | conex (sl : SlotId)
  /-- TASK_REPLAY (R333). -/
  | taskReplay (sl : SlotId)
  /-- TASK_FAILURE (R334). -/
  | taskFailure (sl : SlotId)
  /-- ADMISSION (R252). -/
  | admission (p : Nat)
  /-- READY_LEVEL_RAISE (R253). -/
  | readyLevelRaise (p : Nat) (n : Nat)
  /-- PROBE_TOKEN (R255). -/
  | probeToken (sl : SlotId)
  /-- RESERVE_ENTRY_GRANT (R255). -/
  | reserveEntryGrant (sl : SlotId)
  /-- KILN_DRAW (R313). -/
  | kilnDraw (t : TileId) (e : Engine)
  /-- GRANT_END (R309). -/
  | grantEnd (t : TileId) (e : Engine)
  /-- REVALUATION (R305). -/
  | revaluation (t : TileId) (e : Engine)
  /-- LOAN_HOP (R317). -/
  | loanHop (p : Nat) (n : Nat)
  /-- REGION_SPILL (R320). -/
  | regionSpill (sl : SlotId)
  /-- REGION_REFILL (R320). -/
  | regionRefill (sl : SlotId) (k : Fin 16)
  /-- LAUNCH_DOORBELL (R372). -/
  | launchDoorbell (fn : Nat) (ctx : Nat) (q : Nat) (tail : Nat)
  /-- LAUNCH_START (R377). -/
  | launchStart (p : Nat)
  /-- PAGE_REQUEST_RESPONSE (R378). -/
  | pageRequestResponse (fn : Nat) (group : Nat) (ok : Bool)
  /-- KERNEL_COMPLETION (R381). -/
  | kernelCompletion (k : Nat)
  /-- CREATE (R390). -/
  | create (fn : Nat) (ctx : Nat)
  /-- KILL (R405). -/
  | kill (fn : Nat) (ctx : Nat)
  /-- KILL_ACKNOWLEDGED (R405). -/
  | killAcknowledged (fn : Nat) (ctx : Nat)
  /-- PREEMPT (R399). -/
  | preempt (fn : Nat) (ctx : Nat)
  /-- SLICE_TIMER (R398). -/
  | sliceTimer (fn : Nat) (ctx : Nat)
  /-- DRAIN_DEADLINE (R400). -/
  | drainDeadline (sl : SlotId)
  /-- TASK_SAVE (R400). -/
  | taskSave (sl : SlotId)
  /-- RESUME (R404). -/
  | resume (fn : Nat) (ctx : Nat)
  /-- REVOKE (R396). -/
  | revoke (fn : Nat) (ctx : Nat)
  /-- RELEASE (R397). -/
  | release (fn : Nat) (ctx : Nat)
  /-- FRAME_SCRUB (R397). -/
  | frameScrub (f : Nat)
  /-- CURNEW (R391). -/
  | curnew (fn : Nat) (ctx : Nat)
  /-- CURFUND (R391). -/
  | curfund (fn : Nat) (ctx : Nat)
  /-- CURDEL (R391). -/
  | curdel (fn : Nat) (ctx : Nat)
  /-- PCREATE (R393). -/
  | pcreate (p : Nat)
  /-- LAYOUT_COMMIT_PHASE_TWO (R436). -/
  | layoutCommitPhaseTwo
  /-- PDELETE (R393). -/
  | pdelete (p : Nat)
  /-- PBIND (R393). -/
  | pbind (p : Nat)
  /-- PUNBIND (R393). -/
  | punbind (p : Nat)
  /-- PKEYS (R393). -/
  | pkeys (p : Nat)
  /-- PMOVE (R407). -/
  | pmove (p : Nat)
  /-- PSEED (R393). -/
  | pseed (p : Nat)
  /-- PHANDLER (R393). -/
  | phandler (p : Nat)
  /-- RECLASS (R282). -/
  | reclass (p : Nat)
  /-- PHCLEAR (R393). -/
  | phclear (p : Nat)
  /-- HOST_BIAS_FLIP (R414). -/
  | hostBiasFlip (fn : Nat)
  /-- DEVICE_BIAS_FLIP (R414). -/
  | deviceBiasFlip (fn : Nat)
  /-- BIAS_FLIP_COMPLETION (R300). -/
  | biasFlipCompletion (fn : Nat)
  /-- CXL_MEM_ACCESS (R415). -/
  | cxlMemAccess (a : CxlAccess)
  /-- LOCK_INTERFACE (R416). -/
  | lockInterface (fn : Nat) (nonce : Nat)
  /-- START_INTERFACE (R410). -/
  | startInterface (fn : Nat) (nonce : Nat)
  /-- STOP_INTERFACE (R410). -/
  | stopInterface (fn : Nat)
  /-- GET_VERSION (R410). -/
  | getVersion (fn : Nat)
  /-- GET_CAPABILITIES (R410). -/
  | getCapabilities (fn : Nat)
  /-- GET_DEVICE_INTERFACE_REPORT (R416). -/
  | getDeviceInterfaceReport (fn : Nat)
  /-- GET_DEVICE_INTERFACE_STATE (R410). -/
  | getDeviceInterfaceState (fn : Nat)
  /-- MEASUREMENTS (R418). -/
  | measurements (id : Nat) (nonce : Nat)
  /-- KEY_EXCHANGE (R418). -/
  | keyExchange (id : Nat)
  /-- KEY_WRITE (R419). -/
  | keyWrite (w : KeyWrite)
  /-- FLIT_RECEIVE (R421). -/
  | flitReceive (port : Nat) (f : Flit)
  /-- NAGIL_WRITE (R422). -/
  | nagilWrite (port : Nat) (p : Packet)
  /-- NAGIL_READ_REQUEST (R422). -/
  | nagilReadRequest (port : Nat) (p : Packet)
  /-- NAGIL_READ_REPLY (R422). -/
  | nagilReadReply (port : Nat) (p : Packet)
  /-- NAGIL_REDUCE (R422). -/
  | nagilReduce (port : Nat) (p : Packet)
  /-- NAGIL_COMPLETION (R423). -/
  | nagilCompletion (port : Nat) (p : Packet)
  /-- NAGIL_ERROR (R422). -/
  | nagilError (port : Nat) (p : Packet)
  /-- PEER_TIMEOUT (R422). -/
  | peerTimeout (id : Nat)
  /-- SHARED_STRUCTURE_EVENT (R427). -/
  | sharedStructureEvent (e : SharedEvent)
  /-- WATCHDOG_FIRE (R430). -/
  | watchdogFire (p : Nat)
  /-- PARTITION_RESET (R431). -/
  | partitionReset (p : Nat)
  /-- PERIODIC_BUILT_IN_TEST (R434). -/
  | periodicBuiltInTest (bad : List Nat)
  /-- CLUSTER_REPAIR (R434). -/
  | clusterRepair (c : Nat)
  /-- MP_WATCHDOG_RESET (R437). -/
  | mpWatchdogReset
  /-- MP_RESTART (R437). -/
  | mpRestart
  /-- FATAL_ERROR (R441). -/
  | fatalError (cause : Nat) (info : Nat)
  /-- DUMP_DONE (R442). -/
  | dumpDone
  /-- DUMP_WINDOW_READ (R444). -/
  | dumpWindowRead
  /-- MIGRATION_PRE_COPY (R440). -/
  | migrationPreCopy (fn : Nat)
  /-- MIGRATION_STOPPING (R440). -/
  | migrationStopping (fn : Nat)
  /-- MIGRATION_RESUMING (R440). -/
  | migrationResuming (fn : Nat)
  /-- MIGRATION_RUNNING (R438). -/
  | migrationRunning (fn : Nat)
  /-- MIGRATION_STREAM_READ (R439). -/
  | migrationStreamRead (fn : Nat)
  /-- MIGRATION_STREAM_WRITE (R440). -/
  | migrationStreamWrite (fn : Nat) (v : Nat)
  /-- ERRBASE_WRITE (R424). -/
  | errbaseWrite (fn : Nat) (v : Nat)
  /-- DRVFEAT_WRITE (R447). -/
  | drvfeatWrite (fn : Nat) (v : Nat)
  /-- REGISTER_WRITE (R8). -/
  | registerWrite (fn : Nat) (off : Nat) (v : Nat)
  /-- FUNCTION_LEVEL_RESET (R408). -/
  | functionLevelReset (fn : Nat)
  /-- MODULE_RESET (R449). -/
  | moduleReset
  /-- MANAGEMENT_PROCESSOR_BOOT (R450). -/
  | managementProcessorBoot
  /-- DIE_BOOT (R450). -/
  | dieBoot
  /-- HBM_TRAINING (R450). -/
  | hbmTraining
  /-- CLUSTER_BUILT_IN_TEST (R450). -/
  | clusterBuiltInTest (bad : List Nat)
  /-- DUMP_AREA_RESERVATION (R450). -/
  | dumpAreaReservation
  /-- HOST_LINK_TRAINING (R450). -/
  | hostLinkTraining
  /-- PWRBRK (R451). -/
  | pwrbrk (asserted : Bool)
  /-- POWER_AVERAGE (R451). -/
  | powerAverage (watts : Nat)
  /-- CLOCK_RAISE (R451). -/
  | clockRaise
  /-- JUNCTION_THROTTLE (R451). -/
  | junctionThrottle (temp : Nat)
  /-- THERM_ALERT (R454). -/
  | thermAlert (temp : Nat)
  /-- THERMAL_TRIP (R453). -/
  | thermalTrip (temp : Nat)
  /-- SOFT_ERROR (R323). -/
  | softError (t : ErrorTarget)
  /-- RECLASS_COMPLETION (R282). -/
  | reclassCompletion (p : Nat)
  deriving DecidableEq, Repr

end Sys2Proof
end

