-- ==== Sys2Proof/Config.lean ====
section
/-!
DEFINITION. What the spec leaves open, as opaque constants: nothing in Lean can evaluate them, so a claim holds
whatever they are. Each is named in a log entry.
-/

namespace Sys2Proof

/-- Who takes a step: a slot's control core, an engine serving a slot, an operation or event of the table, one that a
TLP brings under an IDE stream (R417), a configuration request of the host for a register of a function (R450), a TLP or
CXL flit of a function whose MAC does not check (R417), the memory system performing element a of command n, showing the write at place n
of T to an agent, or showing it the n-th publish. -/
inductive Turn where
  | core (sl : SlotId)
  | engine (sl : SlotId) (e : Engine)
  | event (i : Instr)
  | tlp (stream : Nat) (i : Instr)
  | config (fn off : Nat)
  | badMac (fn : Nat)
  | perform (n a : Nat)
  | show (n : Nat) (a : Agent)
  | publish (n : Nat) (a : Agent)
  deriving DecidableEq, Repr, Inhabited

end Sys2Proof

namespace Sys2Proof.Config

/-- Which party acts in step n + 1: any party, any event with any operands (log entry 1). -/
opaque nextTurn : Nat → Turn

/-- Device cycles that pass in step n (R3; log entry 2). -/
opaque elapsed : Nat → Nat

/-- Free value number n, where the spec states an effect and leaves the value open (log entry 20). -/
opaque freeBits : Nat → Nat

/-- Which of the values that R184, R201, R294 and R298 allow is used: the pick of draw n for address a
(log entries 7 and 8). -/
opaque pick : Nat → Nat → Nat

/-- Origin of a partition's cycle count and of a slot's cycle count (R213, R248, R381; log entry 10). -/
opaque cycleOrigin : Nat → Nat

/-- Which bank holds a slab, given its physical base, where no lower slab of its granule lies there (R278; log entry 18). -/
opaque bankOfSlab : Nat → Nat

/-- What a 16-byte block reads as under a key other than the one it was written under: the two keys, the block's physical
address and its bytes (R283; log entry 16). -/
opaque crossKey : Nat → Nat → Nat → List Byte → Nat

/-- Whether the DRAM's on-die ECC corrects the given flipped bits of one segment beyond a single bit
(R280, R323; log entry 13). -/
opaque dramCorrects : List Nat → Bool

/-- What happens to an error beyond a code: 0 detected, 1 wrongly corrected and counted as corrected, 2 wrongly corrected
and not counted, other values delivered undetected (R280, R323; log entry 13). -/
opaque beyondCode : Nat → List Nat → Nat

/-- The bits of a segment that a wrong correction leaves wrong (R280; log entry 13). -/
opaque miscorrected : Nat → List Nat → List Nat

/-- SHA-256 of a byte string, a published function that the spec names (R418, R435, R443; log entry 12). -/
opaque sha256 : List Byte → BitVec 256

/-- The AES-256-GCM tag of a packet under a key and nonce, a published function (R421, R422; log entry 12). -/
opaque gcmTag : Nat → Nat → List Byte → BitVec 128

/-- Content of a measurement block that only the boot code, fuses and firmware fix: identity, block
(R418; log entry 12). -/
opaque measured : Nat → Nat → Nat

/-- The certificate chain of a responder identity in SPDM slot 0, and its signature of a message's fields under the key pair
that it was made with (R418; log entry 12). -/
opaque certificates : Nat → List Byte

/-- See certificates. -/
opaque signature : Nat → List Nat → List Byte

/-- The physical base of the dump area, reserved at bring-up (R442; log entry 21). -/
opaque dumpBase : Nat

/-- The function to whose pool a 64 KiB frame is granted, by frame number (R395; log entry 27). -/
opaque poolOf : Nat → Nat

/-- The hardware's choice of cycles still to run of queued work, used by a pre-emption (R399; log entry 15). -/
opaque remainingCycles : Nat → Nat

/-- The spare cluster of a die, by its number on the die (R386; log entry 41). -/
opaque spareCluster : Nat → Nat

/-- The route table entry of a device number, fixed at bring-up (R420; log entry 41). -/
opaque routeOf : Nat → Nat

/-- The place in a route's list of ports that an address modulo 4 KiB takes (R420; log entry 46). -/
opaque spread : Nat → Nat

/-- Whether the traffic of a partition with the given clusters crosses a die by its route (R426; log entry 41). -/
opaque crossesDie : List Nat → Nat → Bool

/-- The HBM channel that holds a 64 KiB frame: stack × 32 + channel (R426; log entry 41). -/
opaque channelOf : Nat → Nat

/-- Where a die-cache line lies among the set groups that its partition has, by line number (R426; log entry 41). -/
opaque setGroupOf : Nat → Nat

/-- Elements that a stream buffers beyond 256 (R201; log entry 25). -/
opaque streamExtra : Nat

end Sys2Proof.Config
end

