-- ==== Sys2Proof/Machine/State.lean ====
section
/-!
DEFINITION. The state of the Oahus Z9: every piece of architectural state that spec/00 to spec/24 gives the device, as
plain data, and the state after reset.
-/

namespace Sys2Proof.Machine

/-- What stops the machine. -/
inductive Fault where
  /-- Raised by the loads, stores, atomics and queue, semaphore, future, spawn and launch words: an ordinary access
  through a handle to an address that no frame, window or host aperture holds (R257, R411), which a valid translation
  never gives. Safe: nothing is claimed of what follows. -/
  | hole (addr : Nat)
  deriving DecidableEq, Repr

/-- What has no meaning in the model. -/
inductive Refusal where
  /-- Raised by Dispatch for an instruction whose meaning is not written yet. Safe: nothing is claimed of it. -/
  | notModelled (mnemonic : String)
  deriving DecidableEq, Repr

/-- A finite map with a default given at each read. -/
abbrev Map (κ α : Type) := List (κ × α)

/-- The entry at a key. -/
def mfind {κ α : Type} [DecidableEq κ] : Map κ α → κ → Option α
  | [], _ => none
  | (k, v) :: r, x => if k = x then some v else mfind r x

/-- The value at a key, or the default. -/
def mget {κ α : Type} [DecidableEq κ] (m : Map κ α) (k : κ) (d : α) : α := (mfind m k).getD d

/-- Removes a key. -/
def mdel {κ α : Type} [DecidableEq κ] (m : Map κ α) (k : κ) : Map κ α := m.filter (fun e => decide (e.1 ≠ k))

/-- Sets a key. -/
def mset {κ α : Type} [DecidableEq κ] (m : Map κ α) (k : κ) (v : α) : Map κ α := (k, v) :: mdel m k

/-- Changes the value at a key. -/
def mmod {κ α : Type} [DecidableEq κ] (m : Map κ α) (k : κ) (d : α) (f : α → α) : Map κ α :=
  mset m k (f (mget m k d))

/-- A fence of kind m as it stands in T (R117, R290, R293): scope, the slot that made it, its place, and the tiles that held
the members of the slot's gang then. -/
structure Fence where
  scope : Nat
  slot : SlotId
  at_ : Nat
  tiles : List TileId := []
  deriving DecidableEq, Repr, Inhabited

/-! ## Slots -/

/-- An index register (R39, R124): value, step, base, and the loop depth it is bound to. -/
structure XReg where
  val : Nat := 0
  step : Nat := 0
  base : Nat := 0
  depth : Option Nat := none
  deriving DecidableEq, Repr, Inhabited

/-- An open loop of one engine (R126): position after its open marker, trips left, completed iterations, its bundle
and which run of the bundle this is. -/
structure Loop where
  start : Nat
  count : Nat
  iters : Nat
  bundle : Nat
  run : Nat
  deriving DecidableEq, Repr, Inhabited

/-- What a queue entry is (R124, R125, R130, R240). -/
inductive EntryKind where
  | word
  | kset (n v : Nat)
  | xset (n val step : Nat) (depth : Option Nat)
  | loopOpen (k bundle : Nat)
  | loopClose (bundle : Nat)
  | renq (block : Nat) (issuer : SlotId)
  deriving DecidableEq, Repr, Inhabited

/-- A queue entry: the word, its prefix payload, its two captured values (R56), the view of its slot at split (R294:
place of the last ordinary access, and of the last awaited completion), the block that holds it, whether it counts as an
entry, whether the segment signature has taken it and whether it was split in the open segment (R329), a captured
register that carried poison, its place in split order (0 for an entry that RENQ pushed), the register copy that its
reply goes to (0 for none), whether it stands in the reserve entry (R256), and its place in the order in which entries
were pushed. -/
structure Entry where
  kind : EntryKind := .word
  word : Nat := 0
  pre : Option Nat := none
  cap1 : Word := 0
  cap2 : Word := 0
  view : Nat := 0
  own : Nat := 0
  block : Nat := 0
  counts : Bool := true
  signed : Bool := false
  seg : Bool := false
  poison : Option Nat := none
  stamp : Nat := 0
  rd : Nat := 0
  held : Bool := false
  born : Nat := 0
  deriving DecidableEq, Repr, Inhabited

/-- One engine's sequencer of a slot: index and loop registers, open loops innermost first, the queue and the position
of the next entry, entries still to skip (R155), the place in T of the last event awaited by EWAIT (R294), and the
progress of loop bundles (R126, R242): runs of each bundle that have ended, and the iterations of those that ended
without a break. -/
structure Sequencer where
  x : Map Nat XReg := []
  k : Map Nat Nat := []
  loops : List Loop := []
  q : List Entry := []
  pos : Nat := 0
  skip : Nat := 0
  own : Nat := 0
  runs : Map Nat Nat := []
  ends : Map (Nat × Nat) Nat := []
  deriving DecidableEq, Repr, Inhabited

/-- A stream binding (R200, R201): direction, pattern, next position of the words, read elements buffered from that
position on (value and poison), written elements not yet drained (position, value), the view of the binding word
(R294), and the word addresses of the last sixteen drains (R324). -/
structure Stream where
  write : Bool
  base : Nat
  ext : List Nat
  str : List Int
  next : Nat
  filled : List (W32 × Bool)
  out : List (Nat × W32)
  view : Nat
  own : Nat
  recent : List Nat
  deriving DecidableEq, Repr, Inhabited

/-- A word held by a command window with its captured operands (R182), the element patterns and scales that it read of
A and B, and the spans of local bytes that it read. -/
structure WindowEntry where
  word : Nat
  cap1 : Word := 0
  cap2 : Word := 0
  a : List (List (Nat × Nat)) := []
  b : List (List (Nat × Nat)) := []
  spans : List (Nat × Nat) := []
  deriving DecidableEq, Repr, Inhabited

/-- An accumulator tile of a slot (R170, R182): element 128 i + j, mode (0 none, 1 float, 2 int), valid, CKV, the four
checksum vectors, the command window, whether it may still be replayed and whether it has been, the local spans written
since its marker, poisoned elements, and those of odd parity (R323). -/
structure Acc where
  el : Map Nat W40 := []
  mode : Nat := 0
  valid : Bool := true
  ckv : Bool := true
  cr : Map Nat W32 := []
  mr : Map Nat W32 := []
  cc : Map Nat W32 := []
  mc : Map Nat W32 := []
  window : List WindowEntry := []
  replayable : Bool := true
  replayed : Bool := false
  wrote : List (Nat × Nat) := []
  poison : List Nat := []
  odd : List Nat := []
  deriving DecidableEq, Repr, Inhabited

/-- A distribution register (R23, R215): values and weights by 8 × lane + point, with the reset state of lane l where
nothing is listed, and the tag. -/
structure Dist where
  val : Map Nat W32 := []
  wt : Map Nat W32 := []
  tag : W32 := 0
  deriving DecidableEq, Repr, Inhabited

/-- A handle (R262). sh is one more than the physical address of the leaf entry of a shadow page, 0 for another page: it
finds the visible backing at each access (R275). -/
structure Handle where
  va : Nat := 0
  frame : Nat := 0
  size : Nat := 0
  r : Bool := false
  w : Bool := false
  bank : Bool := false
  cls : Nat := 0
  valid : Bool := false
  sh : Nat := 0
  deriving DecidableEq, Repr, Inhabited

/-- What a slot's blocking word waits for (R109 to R139): the operands that its condition and its result need. -/
inductive WaitKind where
  | wfe
  | waitc (d sel cnt tmo : Nat)
  | waitf (d flag tmo : Nat) (clr : Bool)
  | waitb (d addr tmo phase : Nat) (clr : Bool)
  | bara (d n : Nat)
  | barw (d gen n tmo : Nat)
  | semw (d h off tmo : Nat)
  | ldf (d h off : Nat)
  | qpush (d h off : Nat)
  | qpop (d h off : Nat)
  | renq (d member addr e : Nat)
  | trsync (ident : Option Nat)
  | pub (d tid scope : Nat)
  | bfence (h : Option Nat)
  | tdone
  | ralloc (d cls : Nat)
  | rfree (k : Nat)
  | rpin (d k : Nat)
  | ldl (d a ty : Nat)
  | stl (d a ty : Nat)
  | sege (idx : Nat)
  | csr (d n : Nat) (v : Word) (x : Bool)
  | prd (d p : Nat)
  | vread (d m b e : Nat)
  deriving DecidableEq, Repr, Inhabited

/-- A blocking word that waits: what for, since which cycle, the address of the word and of the next one, its place in
split order, and its first word. -/
structure Wait where
  kind : WaitKind
  since : Nat
  pc : Word
  next : Word
  stamp : Nat
  word : Nat
  deriving DecidableEq, Repr, Inhabited

/-- A party of wait edges (R254). -/
inductive Party where
  | core (sl : SlotId)
  | queue (sl : SlotId) (e : Engine)
  deriving DecidableEq, Repr

/-- A control core stalled on a full engine queue (R58, R254): the queue, since when, when it last sent a probe token,
whether the reserve entry is granted to it, whether its token came back, the parties at which the token stands (none
without one), the hops that it has made and when it made the last (R255). -/
structure Stall where
  target : SlotId
  engine : Engine
  since : Nat
  probed : Nat
  granted : Bool
  probe : Bool
  token : List Party := []
  hops : Nat := 0
  moved : Nat := 0
  deriving DecidableEq, Repr, Inhabited

/-- A trap or failure to be taken: cause, value, and what its error record holds (R213). -/
structure Trap where
  cause : Nat
  val : Nat
  engine : Nat := 0
  sub : Nat := 0
  word : Nat := 0
  cap1 : Word := 0
  cap2 : Word := 0
  addr : Nat := 0
  tid : Nat := 0
  dropped : Nat := 0
  block : Nat := 0
  deriving DecidableEq, Repr, Inhabited

/-- How a task is ending: replay, or failure with what its record holds (R333, R334), or a discard of its gang (R434). -/
inductive Ending where
  | replay
  | fail (t : Trap)
  | discard
  deriving DecidableEq, Repr, Inhabited

/-- The control and status registers of a slot (R41), and its rounding generators (R26). -/
structure Csrs where
  fpcsr : Nat := 0
  rngseed : Nat := 0
  gens : Map Nat Nat := []
  cktolAbs : Nat := 0x3B800000
  cktolRel : Nat := 0x35800000
  tickets : Nat := 0
  cone : Nat := 0
  conecfg : Nat := 7
  segIdx : Nat := 0
  segOpen : Bool := false
  segEng : Nat := 0
  segBeat : Bool := false
  segLast : Nat := 0
  segCrc : Map Nat Nat := []
  segBeats : Map Nat Nat := []
  uivec : Nat := 0
  xdone : Nat := 0
  bdone : Nat := 0
  topo : Bool := false
  ovf : Bool := false
  en : Bool := false
  inh : Bool := false
  evlatch : Bool := false
  trapcause : Nat := 0
  trappc : Word := 0
  trapval : Word := 0
  errinj : Nat := 0
  deriving DecidableEq, Repr, Inhabited

/-- The task of a slot (R236, R238, R248): kernel, TCB address (none for a task of the initial table, whose block the
device holds), gang and member, the fields of its block, and for a task of the initial table its number there
(64 × gang + member). -/
structure Task where
  kernel : Nat
  tcb : Option Nat
  gang : Nat
  member : Nat
  entry : Nat
  args : List Word
  status : Nat
  rsub : Nat
  seqNo : Nat
  rdyc : Nat
  prio : Nat
  tickets : Nat
  reqm : Nat
  reqa : Nat
  reqr : Nat
  succ : List Nat
  handler : Bool
  index : Nat := 0
  deriving DecidableEq, Repr, Inhabited

/-- Registers of a slot (R39). s holds s0–s63 at 0–63, the shadows of s56–s63 at 64 + n and the kernel copies at 128 +
n; sflip names those in which one bit has flipped, and modd the matrix-register elements of odd parity (R323). h holds
h0–h15 at 0–15 and the kernel handles h12–h15 at 16 + n. -/
structure Regs where
  s : Map Nat Word := []
  spoison : List Nat := []
  sflip : List Nat := []
  p : Map Nat W32 := []
  m : Map Nat W32 := []
  mbound : List Nat := []
  mpoison : List Nat := []
  modd : List Nat := []
  h : Map Nat Handle := []
  f : Map Nat Nat := []
  g : Nat := 0
  mask : List W32 := []
  a : Map Nat Acc := []
  d : Map Nat Dist := []
  frameCounter : Nat := 1
  streams : Map Nat Stream := []
  deriving DecidableEq, Repr, Inhabited

/-- A chain in progress (R205, R214): block to run, blocks still allowed (none for no limit), blocks done, STAT bits,
whether the block has been read, its entries still to execute, its post counter and amount, the block after it, and
whether the poison of its wait counter has been counted (R325). -/
structure Chain where
  next : Nat
  left : Option Nat
  done : Nat
  stat : Nat
  begun : Bool
  entries : List Entry
  paddr : Nat
  pinc : Nat
  after : Nat
  ate : Bool := false
  deriving DecidableEq, Repr, Inhabited

/-- An open loop-broadcast bundle at split (R125): number, participants with leads, entries used per engine. -/
structure Bundle where
  id : Nat
  parts : List (Engine × Nat)
  deriving DecidableEq, Repr, Inhabited

/-- A task slot. outer holds the open bundles of the code that a handler has interrupted (log entry 91); narrow is the
word of the slot's last atomic where the host can still write between its read and its write (R102); ate says that the
word being split or waited in has counted its consumption of poison (R325). fetch holds the newest FENCE of kind i of
each scope (R298); recAll and recFloor what TRSYNC of every record and of each one ordered: the place of the last
ordinary access before it, and its own (R297); flagCmds, barCmds and barFlip the completions shown by a ready flag, by
the current phase of a barrier object, and by its last flip: the command that flipped it and every one of that phase
(R241, R293); hostObs and hostSeen how far in T the slot has observed stores of the host, and had at its last FENCE of
the host's scope (R299); bankAt for each bank the latest place of the slot's commands there (R296); arriving the records of
issuers on their way to the slot's ready flags: flag, identity, and the cycle of the split (R340). -/
structure Slot where
  task : Option Task := none
  pc : Word := 0
  level : Bool := false
  regs : Regs := {}
  csr : Csrs := {}
  seqs : Map Engine Sequencer := []
  ready : Map Nat Nat := []
  issuer : Map Nat Nat := []
  pending : List Nat := []
  wait : Option Wait := none
  stall : Option Stall := none
  traps : List Trap := []
  conex : Option Nat := none
  ending : Option Ending := none
  bundles : List Bundle := []
  used : Map Engine Nat := []
  allBundles : Map Nat (List (Engine × Nat)) := []
  nextBundle : Nat := 1
  mstat : Nat := 0
  xdoneCount : Nat := 0
  xbytes : Nat := 0
  xchain : Nat := 0
  chain : Option Chain := none
  rq : Nat := 0
  recSeq : Nat := 0
  fetch : List Fence := []
  recAll : Nat × Nat := (0, 0)
  recFloor : Map Nat (Nat × Nat) := []
  lastOrd : Nat := 0
  lastSeen : Nat := 0
  seenCmds : List Nat := []
  flagCmds : Map Nat (List Nat) := []
  barCmds : Map Nat (List Nat) := []
  barFlip : Map Nat (List Nat × List Nat) := []
  hostObs : Nat := 0
  hostSeen : Nat := 0
  bankAt : Map Nat Nat := []
  resumed : Bool := false
  yield : List Engine := []
  lastDone : Nat := 0
  outer : List (List Bundle × Map Engine Nat) := []
  narrow : Option Nat := none
  ate : Bool := false
  arriving : List (Nat × Nat × Nat) := []
  deriving DecidableEq, Repr, Inhabited

/-! ## Tiles -/

/-- A spilled copy of a region (R320): its former holder, contents, poisoned segments, class, whether RALLOC
gave it, and whether its holder is stalled on it and since when. -/
structure Spilled where
  slot : Nat
  cells : List Host.Cell
  poison : List Nat
  cls : Nat
  ralloc : Bool
  want : Option Nat
  deriving DecidableEq, Repr, Inhabited

/-- A scratchpad region of a tile (R96, R136, R137, R261): holder, class, pin, end of immunity, whether RALLOC gave it,
spilled copies. -/
structure Region where
  owner : Option Nat := none
  cls : Nat := 0
  pinned : Bool := false
  immune : Nat := 0
  ralloc : Bool := false
  spilled : List Spilled := []
  deriving DecidableEq, Repr, Inhabited

/-- A grant (R309): slot and start cycle. -/
structure Grant where
  slot : Nat
  start : Nat
  deriving DecidableEq, Repr, Inhabited

/-- One Kiln (R310 to R313): generator, grant, round-robin pointer, and per slot loss counter, compensation factor and
installed base value; the cycle of the earliest change not yet installed (R305); the cycle of the last draw, and the
effective weights as they stood at the start of this cycle (R308, R313). -/
structure Kiln where
  gen : Nat := 1
  grant : Option Grant := none
  rr : Nat := 0
  loss : Map Nat Nat := []
  factor : Map Nat Nat := []
  base : Map Nat Nat := []
  stale : Option Nat := none
  drawn : Option Nat := none
  start : Map Nat Nat := []
  deriving DecidableEq, Repr, Inhabited

/-- A record-cache entry (R273): slot, identifier, the 64 bytes, and the address in the record table that they
came from. -/
structure CachedRecord where
  slot : Nat
  tid : Nat
  bytes : List Byte
  table : Nat
  deriving DecidableEq, Repr, Inhabited

/-- A victim being written out (R319, R320): region, the slot that asked, and whether for a refill. -/
structure Spilling where
  region : Nat
  slot : Nat
  refill : Bool
  deriving DecidableEq, Repr, Inhabited

/-- A tile: Kilns, residency generator, regions, record cache and physical matrix registers (slot and register) most
recent first, the backing store likewise (R239), bank-port and core-issue turns (R307), the registers that have gone on
to their slots' spill areas, victims being written out. -/
structure Tile where
  kilns : Map Engine Kiln := []
  resGen : Nat := 1
  regions : Map Nat Region := []
  cache : List CachedRecord := []
  phys : List (Nat × Nat) := []
  backing : List (Nat × Nat) := []
  bankTurn : Nat := 0
  coreTurn : Nat := 0
  area : List (Nat × Nat) := []
  spilling : List Spilling := []
  deriving DecidableEq, Repr, Inhabited

/-! ## Memory -/

/-- A tag: 0 empty, 1 full, by address of an 8-byte word (R98). -/
abbrev Tags := List Nat

/-- One write of memory: its place in T, address, the byte it replaced, who wrote it, and the command whose
asynchronous write it is (R287, R292); the agents that have come to see it with the place where each did, the places of the
publishes that make it visible (R295), and whether it is weakly ordered between the device and the host (R299). -/
structure Rec where
  at_ : Nat
  addr : Nat
  old : Byte
  by_ : Agent
  cmd : Option Nat
  seen : List (Agent × Nat) := []
  pubs : List Nat := []
  weak : Bool := false
  deriving DecidableEq, Repr, Inhabited

/-- Bits flipped by a soft error and not yet read (R323): physical segment number, bit positions (data bits 0–511 by
ascending address, then check bits: in scratchpad eight places for each 32-bit word; from 1024 on the tag of a die-cache
line), and for a die-cache line whether it is clean. -/
structure Flip where
  seg : Nat
  bits : List Nat
  cache : Option Bool := none
  deriving DecidableEq, Repr, Inhabited

/-- What is known of an asynchronous command's visibility (R292, R293): the slot, whether it is a matrix epilogue, its
completion cycle and place in T, the place where its slot saw it complete, and the fences that ordered its writes. -/
structure Vis where
  slot : SlotId
  matrix : Bool
  done : Option Nat
  place : Nat
  seenAt : Option Nat
  fences : List Fence
  deriving DecidableEq, Repr, Inhabited

/-- A publish (R276, R295): leaf entries swapped, its scope, publisher and place in T, its cycle, the agents for which its own
point has come with the place in T of that, and the fencing slots that have it. -/
structure Pub where
  leaves : List Nat
  by_ : Fence
  at_ : Nat
  agents : List (Agent × Nat)
  fences : List SlotId
  deriving DecidableEq, Repr, Inhabited

/-- Where one byte of an element write goes: address, and for a shadow page its leaf entry (one more than the entry's
address, as in a handle) and size and whether the write goes to the visible backing (R275); and for scratchpad the holder
and its local address (R260). -/
structure Dest where
  addr : Nat
  leaf : Nat := 0
  half : Nat := 0
  visible : Bool := false
  member : Option (SlotId × Nat) := none
  deriving DecidableEq, Repr, Inhabited

/-- An element write of a command in flight (R292): where its bytes go and what they are. A shadow destination names
its leaf entry, as a handle does, and its page size, and finds its backing when it performs (R277); visible names the other
backing. rest is where the second byte of an element goes that lies in two bytes. width, if not 0, gives the bits from bit
on that an element narrower than a byte takes. op, fmt, rm and draw give XRED's update (R203): 0 add, 1 max, 2 min; one
that waits for a peer's data keeps the number of its element in draw, and in rm the bit of it where it begins. member
gives the gang member and its local address, for a write through the gang window (R260). -/
structure Move where
  addr : Nat
  bytes : List Byte
  poison : Bool := false
  leaf : Nat := 0
  half : Nat := 0
  visible : Bool := false
  rest : Option Dest := none
  bit : Nat := 0
  width : Nat := 0
  op : Option Nat := none
  fmt : Nat := 0
  rm : Nat := 0
  draw : Nat := 0
  member : Option (SlotId × Nat) := none
  deriving DecidableEq, Repr, Inhabited

/-- An element write that goes to no memory byte (R260): an accumulator element of a slot, its value and the mode of
its image; or width bits of a matrix register from bit position el on (32 × element + bit). draw and rm as in Move. -/
structure RegMove where
  slot : SlotId
  acc : Bool
  reg : Nat
  el : Nat
  val : Nat
  mode : Nat
  width : Nat := 32
  poison : Bool := false
  op : Option Nat := none
  fmt : Nat := 0
  rm : Nat := 0
  draw : Nat := 0
  deriving DecidableEq, Repr, Inhabited

/-- A request to a peer that has no answer yet (R422, R423): its number within the command, its port, and what a read
asks for, in order: element, first bit in its bytes, width, first bit in the element, first byte in the reply's data. -/
structure PeerRequest where
  index : Nat
  port : Nat
  pieces : List (Nat × Nat × Nat × Nat × Nat)
  deriving DecidableEq, Repr, Inhabited

/-- A MEPI in progress (R178): the format code of its record, the draws and the bias values of its elements, and their
writes as the word first made them, row-major. -/
structure Epilogue where
  fmt : Nat
  draws : List Nat
  bias : List Nat
  moves : List Move
  deriving DecidableEq, Repr, Inhabited

/-- A command in flight (R192, R193): issuer, engine, the register copy for its reply, UI, barrier object (slot, local
address), ready flags to set, element writes still to perform and whether they keep their order, STAT bits, reply,
source and destination bytes, what it has written, its place in the loops of its engine, the bits that it has written
(R206), the flags it raises. A bank command waits at its bank until it executes there, with the view of its slot at
split (R294, R296). A remote command waits for its peer. epi is set while the check of a MEPI is to come. -/
structure Cmd where
  id : Nat := 0
  slot : SlotId
  engine : Engine
  word : Nat := 0
  cap1 : Word := 0
  cap2 : Word := 0
  rd : Nat := 0
  ui : Bool := false
  bar : Option Nat := none
  flags : List (SlotId × Nat) := []
  moves : List Move := []
  regMoves : List RegMove := []
  ordered : Bool := false
  stat : Nat := 0
  reply : Option Nat := none
  src : List (Nat × Nat) := []
  dst : List (Nat × Nat) := []
  wrote : List (Nat × Nat) := []
  marked : List Nat := []
  matrix : Bool := false
  chained : Bool := false
  iters : List (Nat × Nat × Nat) := []
  bank : Option Nat := none
  phys : Nat := 0
  slab : Nat := 0
  executed : Bool := true
  remote : List PeerRequest := []
  started : Nat := 0
  stamp : Nat := 0
  born : Nat := 0
  bits : Nat := 0
  fl : Nat := 0
  epi : Option Epilogue := none
  view : Nat := 0
  own : Nat := 0
  deriving DecidableEq, Repr, Inhabited

/-! ## Kernels, gangs, ready lists -/

/-- A page of a lease (R267, R377): virtual base, size, the leaf's fields and address. -/
structure Page where
  va : Nat
  size : Nat
  frame : Nat
  r : Bool
  w : Bool
  bk : Bool
  sh : Bool
  cls : Nat
  key : Nat
  bias : Bool
  leaf : Nat
  range : Nat
  deriving DecidableEq, Repr, Inhabited

/-- A declared range (R375): base, length in bytes, rights (bit 0 r, 1 w, 2 bank), class, shadow. -/
structure Range where
  base : Nat
  len : Nat
  rights : Nat
  cls : Nat
  shadow : Bool
  deriving DecidableEq, Repr, Inhabited

/-- A kernel (R375 to R381): where it was launched, the fields of its launch record, its initial task table, its ranges
and lease, the pages it waits for with the requests made for each, and the counts of its tasks. phase: 0 waiting for
pages or a reclass, 1 running, 2 ended and to be completed with the status, 3 completed but for its asynchronous writes and
its completion entry. tcbs holds STATUS of the blocks that the device keeps for the initial tasks. -/
structure Kernel where
  part : Nat
  fn : Nat
  ctx : Nat
  queue : Nat
  index : Nat
  entry : Nat
  cls : Nat
  rpl : Bool
  lf : Bool
  prio : Nat
  gangSize : Nat
  gangs : Nat
  reqm : Nat
  reqa : Nat
  reqr : Nat
  tickets : Nat
  cone : Nat
  ttab : Nat
  sigbase : Nat
  ehentry : Nat
  table : List Byte
  ranges : List Range
  pages : List Page
  revoked : List Nat
  asked : Map Nat Nat
  refused : Option Nat
  phase : Nat
  failed : Nat
  abandoned : Nat
  status : Nat
  detail : Nat
  tcbs : Map Nat Nat := []
  deriving DecidableEq, Repr, Inhabited

/-- A gang (R116): kernel, members still holding a slot (member and slot), per barrier arrivals and completed count. -/
structure Gang where
  kernel : Nat
  size : Nat
  members : Map Nat SlotId
  arrived : Map (Nat × Nat) Nat
  completed : Map Nat Nat
  deriving DecidableEq, Repr, Inhabited

/-- An entry of a ready list (R251): level, keys, when it entered its level, its tasks in member order, since when it
has fitted no tile (R398), and since when it has fitted one and may be admitted (R429). -/
structure Ready where
  level : Nat
  rdyc : Nat
  seqNo : Nat
  since : Nat
  kernel : Nat
  tasks : List Task
  unfit : Option Nat := none
  fitting : Option Nat := none
  deriving DecidableEq, Repr, Inhabited

/-- A task spawned from a TCB and not yet ready (R250). -/
structure Spawned where
  kernel : Nat
  tcb : Nat
  deriving DecidableEq, Repr, Inhabited

/-- A loan (R316, R317): lender, path of wait edges, the share taken at each (among how many, and whether with the
remainder), hops that it has travelled, since when it travels in its direction, whether it is being withdrawn, and how many
hops that change may take. -/
structure Loan where
  lender : SlotId
  path : List SlotId
  shares : List (Nat × Bool)
  hops : Nat
  since : Nat
  gone : Bool
  bound : Nat := 0
  deriving DecidableEq, Repr, Inhabited

/-- A region in a saved image: number, contents, poisoned segments, class, pin, obtained by RALLOC. -/
structure SavedRegion where
  num : Nat
  cells : List Host.Cell
  poison : List Nat
  cls : Nat
  pinned : Bool
  ralloc : Bool
  deriving DecidableEq, Repr, Inhabited

/-- A saved task (R400 to R402): the slot's whole image, with the contents of its regions. -/
structure Saved where
  tile : Nat
  slotNo : Nat
  slot : Slot
  regions : List SavedRegion
  gang : Nat
  loss : Map Engine Nat
  factor : Map Engine Nat
  deriving DecidableEq, Repr, Inhabited

/-- A partition (R386, R393): clusters in logical order, key slots, dies permitted, set groups on each die that holds a
cluster and which they are (die × 64 + number), DRAWSEED, whether a handler is loaded and its measurement, tiles, ready
list, spawned tasks, loans, resets (R429), whether a reset runs,
whether a layout commit has paused it, and for each queue being replayed after a reset the HEAD that it had (R382). -/
structure Part where
  clusters : List Nat
  keys : Nat
  dies : Nat
  setGroups : Nat
  groups : List Nat
  drawseed : Nat
  handlerHash : Nat
  hasHandler : Bool
  tiles : Map Nat Tile
  ready : List Ready
  spawned : List Spawned
  loans : List Loan
  wdResets : Nat
  resetting : Bool
  paused : Bool
  replay : List (Nat × Nat × Nat × Nat)
  deriving DecidableEq, Repr, Inhabited

/-! ## Functions and contexts -/

/-- A context (R384, R387 to R390): state (0 none, 1 running, 2 pre-empting, 3 saved, 4 resuming, 5 killing), instance
tag, the fields of its descriptor, the descriptor areas' translations pinned at CREATE (64 KiB page to frame), the cycle
of its last CREATE or RESUME, and of a pre-emption: its start and deadline, for each gang the mode (1 drain, 2 save, 3
discard) with the cluster that chose it, what it has counted, whether it resumes by itself and raises TOPO then, tasks
restored, its saved tasks. -/
structure Ctx where
  state : Nat := 0
  tag : Nat := 0
  ptroot : Nat := 0
  lqBase : Nat := 0
  errBase : Nat := 0
  spillBase : Nat := 0
  saveBase : Nat := 0
  node : Nat := 0
  pdeadline : Nat := 0
  slice : Nat := 0
  pinned : Map Nat Nat := []
  ran : Nat := 0
  started : Nat := 0
  deadline : Nat := 0
  modes : Map Nat (Nat × Nat) := []
  nSaved : Nat := 0
  nDiscarded : Nat := 0
  overran : List Nat := []
  auto : Bool := false
  topo : Bool := false
  restored : Nat := 0
  saved : List Saved := []
  deriving DecidableEq, Repr, Inhabited

/-- An outstanding page request group (R378, R384): kernel, page, context, instance tag, and the range that asked. -/
structure PageReq where
  group : Nat
  kernel : Nat
  page : Nat
  ctx : Nat
  tag : Nat
  range : Nat := 0
  deriving DecidableEq, Repr, Inhabited

/-- A page whose bias is to be flipped (R414): its leaf entry, and where its frames begin and how far they go. -/
structure FlipPage where
  leaf : Nat
  frame : Nat
  span : Nat
  deriving DecidableEq, Repr, Inhabited

/-- A bias flip in progress (R414): to host bias, the pages still to change, and how many have changed. -/
structure Flipping where
  host : Bool
  leaves : List FlipPage
  count : Nat
  deriving DecidableEq, Repr, Inhabited

/-- A record of a device error log into which an event may fold (R425): SRC, KIND, INST, its CYC, its COUNT and its index in
the ring. -/
structure Logged where
  src : Nat
  kind : Nat
  inst : Nat
  cyc : Nat
  count : Nat
  index : Nat
  deriving DecidableEq, Repr, Inhabited

/-- A function (R384, R410): the partition it is bound to, its contexts, its last instance tag, its registers by offset
in BAR 0, its TDI state (0 unlocked, 1 locked, 2 run, 3 error), whether it was ever locked, the key of its IDE stream
once established (R417), the nonce of its lock, page
request groups, bias flip in progress, currency top, migration state (R438), the stream's bytes to be read, every byte
streamed before, how far the end of the stream has come (0 not begun, 1 FUNC sent, 2 END sent), bytes written and not
yet taken, pages sent with the place in T of their last sending and what was sent, the states that its contexts had or
are to have, a function-level reset that waits, and the error-log records that may still fold. -/
structure Fn where
  part : Option Nat := none
  ctxs : Map Nat Ctx := []
  lastTag : Nat := 0
  regs : Map Nat Nat := []
  tdi : Nat := 0
  everLocked : Bool := false
  ide : Option Nat := none
  nonce : Nat := 0
  groups : List PageReq := []
  nextGroup : Nat := 0
  flip : Option Flipping := none
  top : Option Nat := none
  mig : Nat := 0
  migOut : List Byte := []
  migAll : List Byte := []
  migStage : Nat := 0
  migIn : List Byte := []
  migSent : Map (Nat × Nat) (Nat × List Byte) := []
  migStates : Map Nat Nat := []
  flr : Bool := false
  logged : List Logged := []
  deriving DecidableEq, Repr, Inhabited

/-- A 16-byte block of a frame that reads under another key than it was written under (R283): that key, what was written,
and what it reads as. -/
structure Ciphered where
  key : Nat
  bytes : List Byte
  shown : List Byte
  deriving DecidableEq, Repr, Inhabited

/-- A 64 KiB frame of HBM (R395, R415): 0 granted, 1 owned, 2 quarantine, 3 clean; the instance that owns it, the key
slot and the PR and PW bits of its entry, the key under which its contents are read, and its blocks that were written under
another (R283). -/
structure Frame where
  state : Nat := 0
  fn : Nat := 0
  ctx : Nat := 0
  tag : Nat := 0
  key : Nat := 0
  pr : Bool := false
  pw : Bool := false
  part : Nat := 0
  keyVal : Nat := 0
  under : Map Nat Ciphered := []
  deriving DecidableEq, Repr, Inhabited

/-- A node of the currency tree (R303, R391): parent, funding, and the function whose top it is, 0 for none. -/
structure Currency where
  parent : Nat
  funding : Nat
  topOf : Nat
  deriving DecidableEq, Repr, Inhabited

/-- A message that the device sends: to whom, kind, fields and bytes (log entry 20). -/
structure Message where
  kind : Nat
  fields : List Nat
  bytes : List Byte
  deriving DecidableEq, Repr, Inhabited

/-- A Nagil port (R421, R422): link up, flits expected and resends, key table, drop counters. -/
structure Port where
  up : Bool := false
  expect : Nat := 0
  resends : Nat := 0
  keys : Map Nat Nat := []
  gcm : Map Nat Nat := []
  keyDrop : Nat := 0
  macDrop : Nat := 0
  counters : Map Nat Nat := []
  deriving DecidableEq, Repr, Inhabited

/-- The layout that a commit gives a partition (R435): none of it is left where gone is set. -/
structure Layout where
  part : Nat
  gone : Bool
  clusters : List Nat
  keys : Nat
  dies : Nat
  setGroups : Nat
  groups : List Nat
  drawseed : Nat
  deriving DecidableEq, Repr, Inhabited

/-- The management processor (R434 to R437, R450): up or in reset, cycles of its watchdog resets, its last heartbeat; the
journal: LSEQ, JSTATE, LAYOUT and DIGEST; the cluster under repair; the start-up step completed, dies out of use, defective
clusters, dies whose spare is used; open sessions; per key slot the function that loaded it and the key; a reclass in
progress (group and class); the cycle of the last periodic test; the partition that a PMOVE saved and how many tasks; the
cycle in which DRVFEAT was locked (R447). -/
structure Mp where
  up : Bool := false
  resetAt : List Nat := []
  beat : Nat := 0
  lseq : Nat := 0
  jstate : Nat := 0
  layout : List Layout := []
  digest : Nat := 0
  repairing : Option Nat := none
  startStep : Nat := 0
  deadDies : List Nat := []
  dead : List Nat := []
  spareUsed : List Nat := []
  sessions : List Nat := []
  nextSession : Nat := 0
  keySlots : Map Nat (Nat × Nat) := []
  reclass : Option (Nat × Nat) := none
  lastBist : Nat := 0
  moved : Nat := 0
  lockedAt : Option Nat := none
  deriving DecidableEq, Repr, Inhabited

/-- Power, clock and signals (R451 to R454): lowest die clock in MHz, the three causes of its lowering, average power,
hottest junction, PWRBRK# and THERM_ALERT# asserted, power on, since when no cause holds. -/
structure Power where
  clock : Nat := 2100
  byCap : Bool := false
  byHeat : Bool := false
  byBrk : Bool := false
  average : Nat := 0
  junction : Nat := 0
  pwrbrk : Bool := false
  thermAlert : Bool := false
  powered : Bool := true
  clearSince : Option Nat := none
  deriving DecidableEq, Repr, Inhabited

/-- A fatal error (R441, R443): its cause, the die that detected it (0xFF for the management processor), and the device's
cycle. -/
structure Fatal where
  cause : Nat
  die : Nat
  cycle : Nat
  deriving DecidableEq, Repr, Inhabited

/-- What an engine's execution of its head entry came to. -/
inductive Status where
  | done | stalled | halted | moved
  deriving DecidableEq, Repr, Inhabited

/-- The word being executed (the model's own): slot, its engine if queued, the entry, what came of it, and for a Kiln's
event the slots of its tile that are ready on the engine (R308). -/
structure Cur where
  slot : SlotId := ⟨0, 0, 0⟩
  engine : Option Engine := none
  entry : Entry := {}
  status : Status := .done
  ready : List Nat := []
  deriving DecidableEq, Repr, Inhabited

/-- The device. found holds the errors found in the turn in its storage: source (6 a tile's), kind and address (R425);
dieErrors the corrected and detected errors of each die (R443); channelsOut the HBM channels taken out (R428). -/
structure State where
  mem : List Host.Cell
  tags : Tags
  poison : List Nat
  flips : List Flip
  hist : List Rec
  vis : Map Nat Vis
  pubs : List Pub
  slots : Map SlotId Slot
  parts : Map Nat Part
  kernels : Map Nat Kernel
  nextKernel : Nat
  gangs : Map Nat Gang
  nextGang : Nat
  cmds : List Cmd
  nextCmd : Nat
  fns : Map Nat Fn
  currencies : Map Nat Currency
  classes : Map Nat Nat
  classLocks : List Nat
  frames : Map Nat Frame
  ports : Map Nat Port
  devNumber : Nat
  routes : Map Nat Nat
  mp : Mp
  power : Power
  regs : Map Nat Nat
  variant : Nat
  fatal : Option Fatal
  dump : List Byte
  devErrSeq : Nat
  devRecords : List (List Byte)
  out : List Message
  now : Nat
  turn : Turn
  stepNo : Nat
  fresh : Nat
  seqT : Nat
  cur : Cur
  found : List (Nat × Nat × Nat)
  dieErrors : Map Nat (Nat × Nat)
  channelsOut : List Nat
  deriving DecidableEq, Repr

/-- The state after reset: the device after a module reset (R449) or power-on, before step 1 of R450: everything
cleared, no partition, context or task, memory with nothing listed. -/
def State.reset : State where
  mem := []
  tags := []
  poison := []
  flips := []
  hist := []
  vis := []
  pubs := []
  slots := []
  parts := []
  kernels := []
  nextKernel := 0
  gangs := []
  nextGang := 0
  cmds := []
  nextCmd := 0
  fns := []
  currencies := []
  classes := []
  classLocks := []
  frames := []
  ports := []
  devNumber := 0
  routes := []
  mp := {}
  power := {}
  regs := [(0x1710, 2600)]
  variant := 0
  fatal := none
  dump := []
  devErrSeq := 0
  devRecords := []
  out := []
  now := 0
  turn := .event .moduleReset
  stepNo := 0
  fresh := 0
  seqT := 1
  cur := {}
  found := []
  dieErrors := []
  channelsOut := []

end Sys2Proof.Machine
end

