-- ==== Sys2Proof/Machine/Ops.lean ====
section
/-!
DEFINITION. The named operations over registers, memory, handles and traps that the meanings share.
-/

namespace Sys2Proof.Machine

/-- What a meaning answers. -/
abbrev Out := Host.Outcome State Fault Refusal

/-! ## Access to the parts of the state -/

/-- A slot of a state; a slot that holds nothing reads as idle. -/
def State.slot (s : State) (sl : SlotId) : Slot := mget s.slots sl {}

/-- Writes a slot. -/
def State.setSlot (s : State) (sl : SlotId) (v : Slot) : State := { s with slots := mset s.slots sl v }

/-- Changes a slot. -/
def State.modSlot (s : State) (sl : SlotId) (f : Slot → Slot) : State := s.setSlot sl (f (s.slot sl))

/-- A partition, if it exists. -/
def State.part? (s : State) (p : Nat) : Option Part := mfind s.parts p

/-- Changes a partition that exists. -/
def State.modPart (s : State) (p : Nat) (f : Part → Part) : State :=
  match mfind s.parts p with
  | some v => { s with parts := mset s.parts p (f v) }
  | none => s

/-- A tile. -/
def State.tile (s : State) (t : TileId) : Tile :=
  match s.part? t.part with
  | some p => mget p.tiles t.tile {}
  | none => {}

/-- Changes a tile of a partition that exists. -/
def State.modTile (s : State) (t : TileId) (f : Tile → Tile) : State :=
  s.modPart t.part (fun p => { p with tiles := mmod p.tiles t.tile {} f })

/-- A Kiln of a tile. -/
def State.kiln (s : State) (t : TileId) (e : Engine) : Kiln := mget (s.tile t).kilns e {}

/-- Changes a Kiln. -/
def State.modKiln (s : State) (t : TileId) (e : Engine) (f : Kiln → Kiln) : State :=
  s.modTile t (fun x => { x with kilns := mmod x.kilns e {} f })

/-- The sequencer of an engine in a slot. -/
def Slot.seq (v : Slot) (e : Engine) : Sequencer := mget v.seqs e {}

/-- Changes a sequencer. -/
def Slot.modSeq (v : Slot) (e : Engine) (f : Sequencer → Sequencer) : Slot :=
  { v with seqs := mmod v.seqs e {} f }

/-- Changes a sequencer of a slot. -/
def State.modSeq (s : State) (sl : SlotId) (e : Engine) (f : Sequencer → Sequencer) : State :=
  s.modSlot sl (fun v => v.modSeq e f)

/-- Changes the CSRs of a slot. -/
def State.modCsr (s : State) (sl : SlotId) (f : Csrs → Csrs) : State :=
  s.modSlot sl (fun v => { v with csr := f v.csr })

/-- Changes the registers of a slot. -/
def State.modRegs (s : State) (sl : SlotId) (f : Regs → Regs) : State :=
  s.modSlot sl (fun v => { v with regs := f v.regs })

/-- The kernel of a slot's task. -/
def State.kernelOf (s : State) (sl : SlotId) : Option Kernel :=
  match (s.slot sl).task with
  | some t => mfind s.kernels t.kernel
  | none => none

/-- Changes a kernel that exists. -/
def State.modKernel (s : State) (k : Nat) (f : Kernel → Kernel) : State :=
  match mfind s.kernels k with
  | some v => { s with kernels := mset s.kernels k (f v) }
  | none => s

/-- The class of a slot's kernel (R322). -/
def State.kclass (s : State) (sl : SlotId) : Nat := ((s.kernelOf sl).map (·.cls)).getD 0

/-- The gang of a slot's task. -/
def State.gangOf (s : State) (sl : SlotId) : Option Gang :=
  match (s.slot sl).task with
  | some t => mfind s.gangs t.gang
  | none => none

/-- Whether two slots hold tasks of one gang. -/
def State.sameGang (s : State) (a b : SlotId) : Bool :=
  match (s.slot a).task, (s.slot b).task with
  | some x, some y => x.gang == y.gang
  | _, _ => false

/-- A function. -/
def State.fn (s : State) (n : Nat) : Fn := mget s.fns n {}

/-- Changes a function. -/
def State.modFn (s : State) (n : Nat) (f : Fn → Fn) : State := { s with fns := mmod s.fns n {} f }

/-- A context of a function. -/
def State.ctx (s : State) (fn c : Nat) : Ctx := mget (s.fn fn).ctxs c {}

/-- Changes a context. -/
def State.modCtx (s : State) (fn c : Nat) (f : Ctx → Ctx) : State :=
  s.modFn fn (fun v => { v with ctxs := mmod v.ctxs c {} f })

/-- Task identity (R108). -/
def identity (sl : SlotId) : Nat := sl.tile * 8 + sl.slot

/-- The slot of a partition that a task identity names (R108). -/
def slotOfIdentity (p ident : Nat) : SlotId := ⟨p, ident / 8, ident % 8⟩

/-- Physical cluster that holds a logical tile: die × 16 + cluster (R258, R386). -/
def State.cluster (s : State) (t : TileId) : Nat :=
  match s.part? t.part with
  | some p => p.clusters.getD (t.tile / 4) 0
  | none => 0

/-- Physical base of a tile's window in the on-chip map (R257, R258). -/
def State.window (s : State) (t : TileId) : Nat :=
  0xF000000000 + (s.cluster t * 4 + t.tile % 4) * 0x1000000

/-- A free value of n bits, and the state whose counter has moved on (log entry 20). -/
def State.free (s : State) (n : Nat) : Nat × State :=
  (Config.freeBits s.fresh % 2 ^ n, { s with fresh := s.fresh + 1 })

/-! ## Scalar and predicate registers -/

/-- Where the name sN points (R40): ordinary copies, shadows in a handler, kernel copies at kernel level. -/
def Slot.sIndex (v : Slot) (n : Nat) : Nat :=
  if n < 56 then n else if v.level then 128 + n else if v.csr.inh then 64 + n else n

/-- Reads a scalar register: s0 reads zero (R39). -/
def Slot.readS (v : Slot) (n : Nat) : Word := if n = 0 then 0 else mget v.regs.s (v.sIndex n) 0

/-- Writes a scalar register: a write to s0 is discarded (R39); a written register is no longer poisoned. -/
def Slot.writeS (v : Slot) (n : Nat) (x : Word) : Slot :=
  if n = 0 then v
  else { v with regs := { v.regs with
      s := mset v.regs.s (v.sIndex n) x
      spoison := v.regs.spoison.filter (fun k => decide (k ≠ v.sIndex n))
      sflip := v.regs.sflip.filter (fun k => decide (k ≠ v.sIndex n)) } }

/-- Reads a scalar register of a slot. -/
def State.readS (s : State) (sl : SlotId) (n : Nat) : Word := (s.slot sl).readS n

/-- Writes a scalar register of a slot. -/
def State.writeS (s : State) (sl : SlotId) (n : Nat) (x : Word) : State := s.modSlot sl (fun v => v.writeS n x)

/-- Reads a predicate: p0 is all ones (R39). -/
def Slot.readP (v : Slot) (n : Nat) : W32 := if n = 0 then 0xFFFFFFFF#32 else mget v.regs.p n 0

/-- Writes a predicate: a write to p0 is discarded (R39). -/
def Slot.writeP (v : Slot) (n : Nat) (x : W32) : Slot :=
  if n = 0 then v else { v with regs := { v.regs with p := mset v.regs.p n x } }

/-- Where the name hN points (R69): h12–h15 name the kernel handles at kernel level. -/
def Slot.hIndex (v : Slot) (n : Nat) : Nat := if v.level && decide (12 ≤ n) then 16 + n else n

/-- Reads a handle. -/
def Slot.readH (v : Slot) (n : Nat) : Handle := mget v.regs.h (v.hIndex n) {}

/-- Writes a handle. -/
def Slot.writeH (v : Slot) (n : Nat) (h : Handle) : Slot :=
  { v with regs := { v.regs with h := mset v.regs.h (v.hIndex n) h } }

/-- Length in bytes of the word being executed, prefix included (R54). -/
def State.len (s : State) : Nat := if s.cur.entry.pre.isSome then 8 else 4

/-- PC of the slot being executed. -/
def State.pc (s : State) : Word := (s.slot s.cur.slot).pc

/-- Sets the PC. -/
def State.setPc (s : State) (a : Word) : State := s.modSlot s.cur.slot (fun v => { v with pc := a })

/-- Goes on after the word being executed (R55). -/
def State.advance (s : State) : State := s.setPc (s.pc + BitVec.ofNat 64 s.len)

/-! ## Rounding generators -/

/-- Generator c of a slot; a slot starts as if 0 had been written to RNGSEED (R26). -/
def Csrs.gen (c : Csrs) (n : Nat) : Nat := mget c.gens n (seedGenerator 0 n)

/-- n draws from a generator value: the draws and the last state. -/
def drawsFrom : Nat → Nat → List Nat × Nat
  | 0, x => ([], x)
  | n + 1, x =>
    let y := xorshift x
    let r := drawsFrom n y
    (y :: r.1, r.2)

/-- n draws of generator c when the mode is SR, none otherwise (R25): the draws, or zeros, and the state. -/
def State.draws (s : State) (sl : SlotId) (c rm n : Nat) : List Nat × State :=
  if rm == 4 then
    let d := drawsFrom n ((s.slot sl).csr.gen c)
    (d.1, s.modCsr sl (fun k => { k with gens := mset k.gens c d.2 }))
  else (List.replicate n 0, s)

/-! ## Registers by offset, and messages -/

/-- A register of a function's BAR 0 by offset; function 0 is the physical function. -/
def State.reg (s : State) (fn off : Nat) : Nat :=
  if fn = 0 then mget s.regs off 0 else mget (s.fn fn).regs off 0

/-- Sets a register as the device sees it. -/
def State.setReg (s : State) (fn off v : Nat) : State :=
  if fn = 0 then { s with regs := mset s.regs off v } else s.modFn fn (fun f => { f with regs := mset f.regs off v })

/-- Adds one to a saturating field of a register. -/
def State.countReg (s : State) (fn off lo n : Nat) : State :=
  let r := s.reg fn off
  let x := field r lo n
  s.setReg fn off (setField r lo n (min (x + 1) (2 ^ n - 1)))

/-- Sends a message (log entry 20). -/
def State.send (s : State) (kind : Nat) (fields : List Nat) (bytes : List Byte := []) : State :=
  { s with out := s.out ++ [{ kind := kind, fields := fields, bytes := bytes }] }

/-- Raises an MSI-X vector of a function. -/
def State.msix (s : State) (fn vector : Nat) : State := s.send 2 [fn, vector]

/-! ## Memory -/

/-- What an address with no entry reads as (R395, R450; log entry 3). -/
def Memory.unlisted : Byte := 0

/-- One byte of the listed memory. -/
def Memory.read : List Host.Cell → Nat → Byte
  | [], _ => Memory.unlisted
  | (k, v) :: r, a => if k = a then v else Memory.read r a

/-- Puts a byte in its place among rising addresses. -/
def Memory.insert : List Host.Cell → Nat → Byte → List Host.Cell
  | [], a, b => [(a, b)]
  | (k, v) :: r, a, b => if a < k then (a, b) :: (k, v) :: r else (k, v) :: Memory.insert r a b

/-- Writes one byte and keeps the canonical form: addresses rising, no entry equal to what an unlisted address reads
as. -/
def Memory.write (m : List Host.Cell) (a : Nat) (b : Byte) : List Host.Cell :=
  let r := m.filter (fun c => decide (c.1 ≠ a))
  if b = Memory.unlisted then r else Memory.insert r a b

/-- The canonical form of memory. -/
def Memory.wf : List Host.Cell → Bool
  | [] => true
  | [(_, v)] => v != Memory.unlisted
  | (k, v) :: (k2, v2) :: r => v != Memory.unlisted && decide (k < k2) && Memory.wf ((k2, v2) :: r)

/-- Writes bytes upward from an address. -/
def Memory.writeAll : List Host.Cell → Nat → List Byte → List Host.Cell
  | m, _, [] => m
  | m, a, b :: bs => Memory.writeAll (Memory.write m a b) (a + 1) bs

/-- Data granules of a class group, by class (R280). -/
def granules : Nat → Nat
  | 0 => 28 | 1 => 31 | _ => 32

/-- The class of the group that holds an HBM address (R280); every group is class P after bring-up (R450). -/
def State.classOf (s : State) (a : Nat) : Nat := mget s.classes (a / 0x4000000) 0

/-- Whether an address exists (R257, R258, R411, R445): an HBM frame, a scratchpad window, the host or a peer aperture,
or one of the frames that the management processor holds for handler images and kernel pages (R70; log entry 22). -/
def State.physOk (s : State) (a : Nat) : Bool :=
  let half := s.variant != 0
  if a < 0x8000000000 then decide (a % 0x4000000 / 0x200000 < granules (s.classOf a)) && !(half && decide (0x4000000000 ≤ a))
  else if a < 0xF000000000 then false
  else if a < 0xF100000000 then decide (a % 0x1000000 < 0x400000) && !(half && decide (0xF080000000 ≤ a))
  else (decide (0x10000000000 ≤ a) && decide (a < 0x200000000000)) || decide (0x8000000000000 ≤ a)

/-- The slot that an agent belongs to. -/
def agentSlot : Agent → Option SlotId
  | .core sl => some sl
  | .eng sl _ => some sl
  | _ => none

/-- The tiles that hold the members of a slot's gang (R290). -/
def State.gangTiles (s : State) (sl : SlotId) : List TileId :=
  match s.gangOf sl with
  | some g => g.members.map (fun m => m.2.tileId)
  | none => []

/-- A fence that a slot makes here in T. -/
def State.fenceHere (s : State) (scope : Nat) (sl : SlotId) : Fence := ⟨scope, sl, s.seqT, s.gangTiles sl⟩

/-- Whether an agent is within the scope of a fence (R290). -/
def State.covers (s : State) (f : Fence) (g : Agent) : Bool :=
  match g with
  | .host => f.scope == 7 || f.scope == 9
  | .peer => f.scope == 8 || f.scope == 9
  | .bank => f.scope == 5 || f.scope == 7 || f.scope == 8 || f.scope == 9
  | .core gs | .eng gs _ =>
    match f.scope with
    | 0 => decide (gs = f.slot)
    | 1 => decide (gs.tileId = f.slot.tileId)
    | 2 => decide (gs.part = f.slot.part) && gs.tile / 4 == f.slot.tile / 4
    | 3 => decide (gs.tileId = f.slot.tileId) || f.tiles.contains gs.tileId
    | 4 => s.cluster gs.tileId / 16 == s.cluster f.slot.tileId / 16
    | _ => true

/-- Whether an agent is within a scope of a slot as it stands now (R290). -/
def State.inScope (s : State) (scope : Nat) (sl : SlotId) (g : Agent) : Bool := s.covers (s.fenceHere scope sl) g

/-- Whether the bound of R289 makes an event of cycle t visible. -/
def State.aged (s : State) (t : Nat) : Bool := decide (t + 8192 ≤ s.now)

/-- Whether an agent belongs to the package: the bound of R289 holds for no other. -/
def inPackage : Agent → Bool
  | .host | .peer => false
  | _ => true

/-- Whether an agent has a publish (R276, R294, R295): it is within the scope, its own point has come, it has fenced, the
bound has passed, or it is an engine whose word takes the view of a control core for which that point had come. -/
def State.pubSeen (s : State) (g : Agent) (p : Pub) : Bool :=
  s.covers p.by_ g || p.agents.any (fun x => decide (x.1 = g)) || p.fences.any (fun f => decide (agentSlot g = some f))
    || (s.aged p.at_ && inPackage g)
    || (match g with
        | .eng sl _ => decide (s.cur.slot = sl)
            && p.agents.any (fun x => decide (x.1 = .core sl) && decide (x.2 < s.cur.entry.view))
        | _ => false)

/-- Whether a weakly ordered write is visible across the bias (R299): the host's stores to a device slot that has fenced
after observing one as late; the device's not to the host. -/
def State.acrossBias (s : State) (g : Agent) (r : Rec) : Bool :=
  match g, r.by_ with
  | .host, .host => true
  | .host, _ => false
  | _, .host => match agentSlot g with
    | some sl => decide (r.at_ < (s.slot sl).hostSeen)
    | none => true
  | _, _ => true

/-- Whether an agent sees a write (R287, R292, R293, R295, R299): an ordinary write at once, unless it is weakly ordered; an
asynchronous one from its own point on, at latest with a publish of its backing, or when a fence orders it before the
agent's accesses or the bound of R289 passes. -/
def State.sees (s : State) (g : Agent) (r : Rec) : Bool :=
  let shown := r.seen.any (fun x => decide (x.1 = g))
  match r.cmd with
  | none => !r.weak || shown || s.acrossBias g r
  | some c =>
    shown || s.pubs.any (fun p => r.pubs.contains p.by_.at_ && s.pubSeen g p) ||
    match mfind s.vis c with
    | none => true
    | some v => v.fences.any (fun f => s.covers f g) ||
        (match v.done with | some t => s.aged t && inPackage g | none => false)

/-- The byte an agent sees at an address: the newest write it sees, going back through the writes in T (R292). -/
def seeFrom (s : State) (g : Agent) (a : Nat) : List Rec → Byte → Byte
  | [], b => b
  | r :: rs, b => if r.addr = a then (if s.sees g r then b else seeFrom s g a rs r.old) else seeFrom s g a rs b

/-- One byte as an ordinary access of an agent reads it. -/
def State.readByte (s : State) (g : Agent) (a : Nat) : Byte := seeFrom s g a s.hist (Memory.read s.mem a)

/-- n bytes as an ordinary access of an agent reads them, as a number (R7). -/
def State.readNum (s : State) (g : Agent) (a : Nat) : Nat → Nat
  | 0 => 0
  | n + 1 => (s.readByte g a).toNat + 256 * s.readNum g (a + 1) n

/-- n bytes of an agent's ordinary read. -/
def State.readBytes (s : State) (g : Agent) (a : Nat) : Nat → List Byte
  | 0 => []
  | n + 1 => s.readByte g a :: s.readBytes g (a + 1) n

/-- An agent comes to see writes here in T: what it reads and writes in one indivisible access includes every write of
those bytes (R101, R292). -/
def State.showAt (s : State) (g : Agent) (a n : Nat) : State :=
  if s.hist.any (fun r => decide (a ≤ r.addr) && decide (r.addr < a + n) && !s.sees g r) then
    { s with
      hist := s.hist.map (fun r =>
        if decide (a ≤ r.addr) && decide (r.addr < a + n) && !s.sees g r then { r with seen := (g, s.seqT) :: r.seen } else r)
      seqT := s.seqT + 1 }
  else s

/-- How far in T an agent's read of n bytes observes stores of the host (R299). -/
def State.hostObserved (s : State) (g : Agent) (a n : Nat) : Nat :=
  (List.range n).foldl (fun m i =>
    match s.hist.find? (fun r => r.addr == a + i && s.sees g r) with
    | some r => if r.weak && decide (r.by_ = .host) then max m (r.at_ + 1) else m
    | none => m) 0

/-- Whether a publish precedes a place of T for an agent: it was within the scope, or its point came, before that; an engine's
read uses the mapping of every publish that the engine has (R276, R294, R295). -/
def State.pubPlaced (s : State) (g : Agent) (view : Nat) (p : Pub) : Bool :=
  (s.covers p.by_ g && decide (p.by_.at_ < view))
    || p.agents.any (fun x => decide (x.1 = g) && decide (x.2 < view))
    || (match g with
        | .eng _ _ => s.pubSeen g p
        | _ => false)

/-- Whether an asynchronous write precedes a place of T for an agent: a fence or publish before it ordered the write for the
agent, or the control core of its slot came to see it before that (R293, R294, R295). -/
def State.placed (s : State) (g : Agent) (view : Nat) (v : Vis) (r : Rec) : Bool :=
  v.fences.any (fun f => s.covers f g && decide (f.at_ < view))
    || s.pubs.any (fun p => r.pubs.contains p.by_.at_ && s.pubPlaced g view p)
    || r.seen.any (fun x => decide (x.2 < view) && (match x.1, agentSlot g with
        | .core a, some b => decide (a = b)
        | _, _ => false))

/-- Whether a write is ordered before an engine's read (R241, R294, R295): an ordinary one precedes the view of its slot at
split, or is the engine's own, or is the slot's own and precedes what an event, counter or barrier ordered; an
asynchronous one is placed before that view, or it aged, or its slot saw it complete, or an event followed its
completion. -/
def State.orderedFor (s : State) (g : Agent) (view own : Nat) (r : Rec) : Bool :=
  let ev := match g with
    | .eng sl e => ((s.slot sl).seq e).own
    | _ => 0
  let mine := decide (agentSlot r.by_ = agentSlot g)
  match r.cmd with
  | none => (!r.weak || s.sees g r) &&
      (decide (r.at_ < view) || decide (r.by_ = g) || (mine && (decide (r.at_ < own) || decide (r.at_ < ev))))
  | some c => match mfind s.vis c with
    | none => true
    | some v => s.placed g view v r
        || (match v.done with
            | some t => (s.aged t && inPackage g) || (mine && decide (v.place < ev))
            | none => false)
        || (mine && (match v.seenAt with | some p => decide (p ≤ own) | none => false))

/-- Whether a write is ordered before the read of a record (R297): a TRSYNC of it followed the slot's own store, or followed
an ordinary access of the slot's core that the write precedes. -/
def State.orderedRecord (s : State) (sl : SlotId) (floor : Nat × Nat) (r : Rec) : Bool :=
  match r.cmd with
  | none => decide (r.at_ < floor.1) || (decide (agentSlot r.by_ = some sl) && decide (r.at_ < floor.2))
  | some c => match mfind s.vis c with
    | none => true
    | some v => s.placed (.core sl) floor.1 v r || (decide (agentSlot r.by_ = some sl) &&
        (match v.seenAt with | some p => decide (p < floor.2) | none => false))

/-- Whether a fetch reflects a write (R298): a FENCE of kind i followed the slot's own store, or followed the write of
another writer within its scope; an asynchronous write was ordered before that fence, or its slot had seen it complete. -/
def State.orderedFetch (s : State) (sl : SlotId) (r : Rec) : Bool :=
  (s.slot sl).fetch.any (fun f => s.covers f r.by_ && decide (r.at_ < f.at_) && (match r.cmd with
    | none => true
    | some c => match mfind s.vis c with
      | none => true
      | some v => s.placed (.core sl) f.at_ v r || (decide (agentSlot r.by_ = some sl)
          && (match v.seenAt with | some p => decide (p ≤ f.at_) | none => false))))

/-- Whether a write is ordered before the read of an in-bank unit (R296): it is in the view of the slot, or the unit's
own. -/
def State.orderedBank (s : State) (sl : SlotId) (view own : Nat) (r : Rec) : Bool :=
  decide (r.by_ = .bank) || s.orderedFor (.eng sl .b) view own r

/-- The byte that a read uses which is no ordinary access (R184, R201, R294): the value at a time t no earlier than
what orders it. hide says whether a write not yet visible to the agent is left out. -/
def viewFrom (s : State) (ord : Rec → Bool) (g : Agent) (t : Nat) (hide : Bool) (a : Nat) : List Rec → Byte → Byte
  | [], b => b
  | r :: rs, b =>
    if r.addr = a then
      if !ord r && (decide (t ≤ r.at_) || (hide && !s.sees g r)) then viewFrom s ord g t hide a rs r.old else b
    else viewFrom s ord g t hide a rs b

/-- The time in T that a pick gives a read which no earlier place than floor allows. -/
def State.pickTime (s : State) (floor pick : Nat) : Nat := floor + pick / 2 % (s.seqT - floor + 1)

/-- n bytes of such a read, as a number, under what is ordered before it. -/
def State.viewBy (s : State) (ord : Rec → Bool) (g : Agent) (floor pick : Nat) (a : Nat) : Nat → Nat
  | 0 => 0
  | n + 1 =>
    (viewFrom s ord g (s.pickTime floor pick) (pick % 2 == 1) a s.hist (Memory.read s.mem a)).toNat
      + 256 * s.viewBy ord g floor pick (a + 1) n

/-- n bytes of an engine read, as a number; the pick is one per element (R294). -/
def State.viewNum (s : State) (g : Agent) (view own pick : Nat) (a n : Nat) : Nat :=
  s.viewBy (s.orderedFor g view own) g view pick a n

/-- Records the bytes that a write replaces, newest first. -/
def histOf (mem : List Host.Cell) (t : Nat) (g : Agent) (cmd : Option Nat) (weak : Bool) (a : Nat) : List Byte → List Rec
  | [] => []
  | _ :: bs =>
    { at_ := t, addr := a, old := Memory.read mem a, by_ := g, cmd := cmd, weak := weak } :: histOf mem t g cmd weak (a + 1) bs

/-- Whether an address lies in the host aperture (R411). -/
def isHostAperture (a : Nat) : Bool := decide (0x10000000000 ≤ a) && decide (a < 0x200000000000)

/-- Whether a physical address lies in host memory, or in a page of host bias that a lease maps (R299, R413). -/
def State.hostBiasAt (s : State) (a : Nat) : Bool :=
  isHostAperture a || s.kernels.any (fun (k : Nat × Kernel) => k.2.pages.any (fun p =>
    p.bias && decide (p.frame ≤ a) && decide (a < p.frame + (if p.sh then 2 * p.size else p.size))))

/-- Whether an ordinary write is weakly ordered between the device and the host (R299): a slot's or the host's, to a page of
host bias. -/
def State.weakWrite (s : State) (g : Agent) (cmd : Option Nat) (a : Nat) : Bool :=
  cmd.isNone && (decide (g = .host) || (agentSlot g).isSome) && s.hostBiasAt a

/-- Whether a flip lies in the on-chip map. -/
def Flip.onChip (f : Flip) : Bool := decide (0xF000000000 ≤ f.seg * 64)

/-- The 32-bit word of its segment that a flipped bit belongs to, in storage that checks each word (R323). -/
def flipWord (b : Nat) : Nat := if b < 512 then b / 32 else (b - 512) / 8

/-- What a write leaves of flipped bits: the data bits that it writes are new, and so are the check bits of a word or
segment that it writes whole; the in-bank unit writes fresh check bits with every unit (R211, R323). -/
def Flip.overwritten (unit : Bool) (a n : Nat) (f : Flip) : Flip :=
  let base := f.seg * 64
  let new (b : Nat) : Bool :=
    if b < 512 then decide (a ≤ base + b / 8) && decide (base + b / 8 < a + n)
    else if 1024 ≤ b then false
    else if f.onChip then decide (a ≤ base + 4 * flipWord b) && decide (base + 4 * flipWord b + 4 ≤ a + n)
    else (decide (a ≤ base) && decide (base + 64 ≤ a + n)) || (unit && decide (a < base + 64) && decide (base < a + n))
  { f with bits := f.bits.filter (fun b => !new b) }

/-- Performs a write of bytes at one place in T (R287, R288, R292). -/
def State.poke (s : State) (g : Agent) (cmd : Option Nat) (a : Nat) (bs : List Byte) : State :=
  { s with
    flips := s.flips.map (Flip.overwritten (decide (g = .bank)) a bs.length)
    mem := Memory.writeAll s.mem a bs
    hist := histOf s.mem s.seqT g cmd (s.weakWrite g cmd a) a bs ++ s.hist
    seqT := s.seqT + 1 }

/-- Whether the word address a lies in an interval. -/
def inSpan (a : Nat) (r : Nat × Nat) : Bool := decide (r.1 ≤ a) && decide (a < r.2)

/-- Whether a write of local bytes touches what a window entry reads (R182). -/
def WindowEntry.touched (w : WindowEntry) (lo hi : Nat) : Bool :=
  w.spans.any (fun x => decide (x.1 < hi) && decide (lo < x.2))

/-- A write of local bytes as an accumulator's window notes it: the window is no longer replayable where the write touches
operands of an entry, and what was written before an entry joins it counts too (R182). -/
def Acc.touch (lo hi : Nat) (x : Acc) : Acc :=
  if x.replayable then
    { x with replayable := !x.window.any (fun w => w.touched lo hi), wrote := (lo, hi) :: x.wrote }
  else x

/-- The same over the accumulators of a slot. -/
def Slot.touchAcc (v : Slot) (lo hi : Nat) : Slot :=
  { v with regs := { v.regs with a := v.regs.a.map (Prod.map id (Acc.touch lo hi)) } }

/-- A scratchpad write stops the replay of every window of its slot's tile whose operands it touches (R97, R182). -/
def State.touch (s : State) (t : TileId) (lo n : Nat) : State :=
  { s with slots := s.slots.map fun e =>
      if decide (e.1.tileId = t) then
        (e.1, e.2.touchAcc lo (lo + n))
      else e }

/-- The tile of a physical address in the on-chip map, if a partition has it, with the offset. -/
def State.tileOfPhys (s : State) (a : Nat) : Option (TileId × Nat) :=
  if 0xF000000000 ≤ a ∧ a < 0xF100000000 then
    let pt := (a - 0xF000000000) / 0x1000000
    (s.parts.findSome? (fun e => (e.2.clusters.findIdx? (fun c => c == pt / 4)).map
      (fun i => (⟨e.1, i * 4 + pt % 4⟩, a % 0x1000000))))
  else none

/-- A write with its effect on command windows. -/
def State.store (s : State) (g : Agent) (cmd : Option Nat) (a : Nat) (bs : List Byte) : State :=
  let s1 := s.poke g cmd a bs
  match s.tileOfPhys a with
  | some (t, off) => s1.touch t off bs.length
  | none => s1

/-- Several writes at one place in T: one indivisible access (R132). -/
def State.storeAll (s : State) (g : Agent) (ws : List (Nat × List Byte)) : State :=
  let s1 := ws.foldl (fun s w => { s.store g none w.1 w.2 with seqT := s.seqT }) s
  { s1 with seqT := s.seqT + 1 }

/-- Whether the 64-byte segment of an address carries poison (R324). -/
def State.poisoned (s : State) (a : Nat) : Bool := s.poison.contains (a / 64)

/-- Whether any segment of n bytes carries poison. -/
def State.poisonedIn (s : State) (a n : Nat) : Bool :=
  (List.range ((a + n + 63) / 64 - a / 64)).any (fun i => s.poison.contains (a / 64 + i))

/-- Marks the segments of n bytes (R324). What a command in flight or a write-stream has written of them so far is no
part of a write that rewrites them whole. -/
def State.setPoison (s : State) (a n : Nat) : State :=
  let segs := (List.range ((a + n + 63) / 64 - a / 64)).map (· + a / 64)
  let hit (c : Cmd) : List Nat :=
    segs.filter (fun g => c.wrote.any (fun w => decide (w.1 < 64 * g + 64) && decide (64 * g < w.1 + w.2)))
  { s with
    poison := segs.foldl (fun l x => if l.contains x then l else x :: l) s.poison
    cmds := s.cmds.map (fun c => { c with marked := hit c ++ c.marked })
    slots := s.slots.map (fun e => (e.1, { e.2 with regs := { e.2.regs with
      streams := e.2.regs.streams.map (fun (t : Nat × Stream) => (t.1, { t.2 with
        recent := t.2.recent.filter (fun w => !segs.contains ((s.window e.1.tileId + w) / 64)) })) } })) }

/-- Makes n bytes read zero and clears their marks (R136, R238). -/
def State.zero (s : State) (a n : Nat) : State :=
  let out (x : Nat) : Bool := decide (x < a) || decide (a + n ≤ x)
  { s with
    mem := s.mem.filter (fun c => out c.1)
    hist := s.hist.filter (fun r => out r.addr)
    flips := s.flips.filter (fun f => out (f.seg * 64))
    poison := s.poison.filter (fun g => out (g * 64)) }

/-- Clears the marks of the segments that lie wholly within n bytes (R324). -/
def State.clearPoison (s : State) (a n : Nat) : State :=
  { s with poison := s.poison.filter (fun x => !(decide (a ≤ 64 * x) && decide (64 * x + 64 ≤ a + n))) }

/-- Full/empty tag of the 8-byte word at an address (R98). -/
def State.full (s : State) (a : Nat) : Bool := s.tags.contains (a / 8)

/-- Sets a tag full or empty. -/
def State.setFull (s : State) (a : Nat) (b : Bool) : State :=
  { s with tags := if b then (if s.tags.contains (a / 8) then s.tags else (a / 8) :: s.tags)
                   else s.tags.filter (fun x => decide (x ≠ a / 8)) }

/-- Notes an ordinary access of a slot's control core in T (R287, R294). -/
def State.noteOrd (s : State) (sl : SlotId) : State := s.modSlot sl (fun v => { v with lastOrd := s.seqT })

/-- Notes an ordinary read of a slot's control core, with what it observes of the host (R299). -/
def State.noteRead (s : State) (sl : SlotId) (a n : Nat) : State :=
  let o := s.hostObserved (.core sl) a n
  s.modSlot sl (fun v => { v with
    lastOrd := s.seqT
    hostObs := max v.hostObs o })

/-- Notes what an engine's reads of spans of bytes observe of the host for their slot (R299). -/
def State.noteEngine (s : State) (sl : SlotId) (e : Engine) (xs : List (Nat × Nat)) : State :=
  let o := xs.foldl (fun m x => max m (s.hostObserved (.eng sl e) x.1 x.2)) 0
  if o = 0 then s else s.modSlot sl (fun v => { v with hostObs := max v.hostObs o })

/-! ## Local scratchpad -/

/-- Whether a slot holds a region (R96): allotted or obtained, and not freed; a spilled region is still held. -/
def State.holds (s : State) (sl : SlotId) (k : Nat) : Bool :=
  let r := mget (s.tile sl.tileId).regions k {}
  r.owner == some sl.slot || r.spilled.any (fun c => c.slot == sl.slot)

/-- Whether a local address lies in a region that the slot holds (R96, R261). -/
def State.localHeld (s : State) (sl : SlotId) (a : Nat) : Bool :=
  decide (a < 0x400000) && s.holds sl (a / 0x40000)

/-- Whether n local bytes lie in held regions. -/
def State.spanHeld (s : State) (sl : SlotId) (a n : Nat) : Bool :=
  n == 0 || (decide (a + n ≤ 0x400000) &&
    (List.range ((a + n - 1) / 0x40000 + 1 - a / 0x40000)).all (fun i => s.holds sl (a / 0x40000 + i)))

/-- Whether n local bytes lie in regions resident for the slot (R320). -/
def State.resident (s : State) (sl : SlotId) (a n : Nat) : Bool :=
  (List.range ((a + n - 1) / 0x40000 + 1 - a / 0x40000)).all (fun i =>
    (mget (s.tile sl.tileId).regions (a / 0x40000 + i) {}).owner == some sl.slot)

/-- Notes that the holder of a spilled region stalls on it (R320). -/
def State.wantRegion (s : State) (sl : SlotId) (k : Nat) : State :=
  s.modTile sl.tileId (fun t => { t with regions := mmod t.regions k {} (fun r =>
    { r with spilled := r.spilled.map (fun c =>
        if c.slot == sl.slot && c.want.isNone then { c with want := some s.now } else c) }) })

/-- Notes the stall on every spilled region of n local bytes. -/
def State.wantSpan (s : State) (sl : SlotId) (a n : Nat) : State :=
  (List.range ((a + n - 1) / 0x40000 + 1 - a / 0x40000)).foldl (fun s i => s.wantRegion sl (a / 0x40000 + i)) s

/-- Physical address of a local address. -/
def State.localPhys (s : State) (sl : SlotId) (a : Nat) : Nat := s.window sl.tileId + a

/-! ## Translation -/

/-- Whether an address lies in the handler area (R70). -/
def inHandlerArea (va : Nat) : Bool := decide (0x1FFFFFFB0000000 ≤ va) && decide (va ≤ 0x1FFFFFFBFFFFFFF)

/-- Names, above the 52-bit physical space, of the frames of a partition's handler area (log entry 22). -/
def handlerPhys (p va : Nat) : Nat := 2 ^ 52 + p * 2 ^ 32 + va % 0x10000000

/-- Whether an address lies in a declared range. -/
def Kernel.inRange (k : Kernel) (r va : Nat) : Bool :=
  match k.ranges[r]? with
  | some x => decide (x.base ≤ va) && decide (va < x.base + x.len)
  | none => false

/-- The page of a lease that holds an address of its range, which has not been revoked (R377, R379). -/
def Kernel.page? (k : Kernel) (va : Nat) : Option Page :=
  k.pages.find? (fun p => decide (p.va ≤ va) && decide (va < p.va + p.size) && k.inRange p.range va
    && !k.revoked.contains p.range)

/-- Whether the task may use a declared range (RSUB, R248). -/
def Task.mayUse (t : Task) (r : Nat) : Bool := bitOf t.rsub r

/-- The page that a slot's task reaches at an address. -/
def State.pageOf (s : State) (sl : SlotId) (va : Nat) : Option Page :=
  match (s.slot sl).task, s.kernelOf sl with
  | some t, some k => match k.page? va with
      | some p => if t.mayUse p.range then some p else none
      | none => none
  | _, _ => none

/-- Rights of the declared range of a page: r, w (R262, R268); the bank right grants both (R94). -/
def Kernel.rangeRights (k : Kernel) (p : Page) : Nat := ((k.ranges[p.range]?).map (·.rights)).getD 0

/-- Whether rights of a range grant reading. -/
def grantsR (rights : Nat) : Bool := bitOf rights 0 || bitOf rights 2

/-- Whether rights of a range grant writing. -/
def grantsW (rights : Nat) : Bool := bitOf rights 1 || bitOf rights 2

/-- Publishes of a leaf's buffer that an agent does not see yet: those after the newest that it has (R276, R295). -/
def State.hiddenPubs (s : State) (g : Agent) (leaf : Nat) : Nat :=
  ((s.pubs.filter (fun p => p.leaves.contains leaf)).takeWhile (fun p => !s.pubSeen g p)).length

/-- SEL of a leaf as an agent uses it (R267, R276). -/
def State.selFor (s : State) (g : Agent) (leaf : Nat) : Nat :=
  ((Memory.read s.mem leaf).toNat / 64 + s.hiddenPubs g leaf) % 2

/-- What a handle or an element write keeps of a page to find its backing: one more than the address of a shadow page's
leaf entry, 0 for another page (R275). -/
def Page.shadow (p : Page) : Nat := if p.sh then p.leaf + 1 else 0

/-- Physical address of an offset in a page, through the visible backing of a shadow page (R275). -/
def State.backing (s : State) (g : Agent) (frame size sh off : Nat) : Nat :=
  frame + (if sh = 0 then 0 else s.selFor g (sh - 1) * size) + off

/-- Page sizes by code (R262). -/
def pageBytes : Nat → Nat
  | 0 => 0x10000 | 1 => 0x200000 | _ => 0x4000000

/-- Code of a page size. -/
def pageCode (n : Nat) : Nat := if n = 0x10000 then 0 else if n = 0x200000 then 1 else 2

/-- Whether an address lies in the peer aperture (R411). -/
def isPeer (a : Nat) : Bool := decide (0x8000000000000 ≤ a) && decide (a < 0x10000000000000)

/-- Outcome of an address computation: a physical address, a trap with cause and value, or an address that does not
exist (R257, R411). -/
inductive Addr where
  | ok (a va : Nat)
  | trap (cause val : Nat)
  | hole (a : Nat)
  deriving DecidableEq, Repr

/-- HandleAddress (R94): validity, alignment, page, right, the handler area at user level (R70), and the peer aperture,
which no ordinary access reaches (R423; log entry 92); kind 0 read, 1 write, 2 update. align is the size, but for the
words of R132 that state an alignment of their own. -/
def State.handleAddress (s : State) (sl : SlotId) (hn off size kind : Nat) (align : Nat := size) : Addr :=
  let h := (s.slot sl).readH hn
  let va := (h.va + off) % 2 ^ 64
  if !h.valid then .trap 0x05 hn
  else if off % align != 0 then .trap 0x06 va
  else if pageBytes h.size < off + size then .trap 0x04 va
  else if (kind != 1 && !(h.r || h.bank)) || (kind != 0 && !(h.w || h.bank)) then .trap 0x04 va
  else if inHandlerArea va && !(s.slot sl).level then .trap 0x04 va
  else
    let a := s.backing (.core sl) h.frame (pageBytes h.size) h.sh off
    if isPeer a then .trap 0x04 va else if s.physOk a then .ok a va else .hole a

/-! ## Flags, events, side-effect flags -/

/-- ORs flags into FPCSR (R30, R31). -/
def State.raise (s : State) (sl : SlotId) (fl : Nat) : State :=
  s.modCsr sl (fun c => { c with fpcsr := c.fpcsr ||| fl })

/-- Whether a raised flag's trap enable is set (R30, R31). -/
def Csrs.fpe (c : Csrs) (fl : Nat) : Bool :=
  (fl % 32) &&& field c.fpcsr 8 5 != 0 || (bitOf fl 6 && bitOf c.fpcsr 14)

/-- Sets EVLATCH (R141). -/
def State.setEv (s : State) (sl : SlotId) : State := s.modCsr sl (fun c => { c with evlatch := true })

/-- Keeps STATUS of the block that the device holds for a task of the initial table (R375). -/
def State.keepStatus (s : State) (t : Task) (st : Nat) : State :=
  if t.handler then s else s.modKernel t.kernel (fun k => { k with tcbs := mset k.tcbs t.index st })

/-- Sets bits of the STATUS word of a task (R110, R248): 8 atomic performed, 16 future filled, 32 queue entry pushed;
in its TCB too, in memory or held by the device. -/
def State.setStatus (s : State) (sl : SlotId) (f : Nat → Nat) : State :=
  match (s.slot sl).task with
  | none => s
  | some t =>
    let st := f t.status
    let s1 := s.modSlot sl (fun v => { v with task := some { t with status := st } })
    match t.tcb with
    | none => s1.keepStatus t st
    | some va => match (s.kernelOf sl).bind (fun k => k.page? va) with
      | some p => s1.poke (.core sl) none (s.backing (.core sl) p.frame p.size p.shadow (va + 104 - p.va))
          (toBytes 4 st)
      | none => s1

/-- Sets one side-effect flag, if it is not set. -/
def State.sideEffect (s : State) (sl : SlotId) (bit : Nat) : State :=
  match (s.slot sl).task with
  | some t => if t.status &&& bit == bit then s else s.setStatus sl (· ||| bit)
  | none => s

/-- Counts an event of the Cone register (R327): kind 0 corrected, 1 detected, 2 checksum-corrected; the engine code. -/
def State.coneEvent (s : State) (sl : SlotId) (kind eng : Nat) : State :=
  let c := (s.slot sl).csr
  if !bitOf c.conecfg kind || c.cone == 0 then s
  else
    let s1 := s.modCsr sl (fun c => { c with cone := c.cone - 1 })
    if c.cone == 1 then s1.modSlot sl (fun v => { v with conex := some (kind + 256 * eng) }) else s1

/-! ## Soft errors found on a read (R323) -/

/-- What a check makes of flipped bits. -/
inductive Found where
  | corrected | silent | detected | undetected
  | miscorrected (counted : Bool)
  deriving DecidableEq, Repr

/-- CRC-16 of an error pattern over 512 data bits and 16 check bits: generator 0x8BB7, first bit first (R280). -/
def crc16 (bits : List Bool) : Nat :=
  bits.foldl (fun r b =>
    let r2 := r * 2 + (if b then 1 else 0)
    if 65536 ≤ r2 then (r2 % 65536) ^^^ 0x8BB7 else r2) 0

/-- Position k of the CRC's sequence: bytes ascending, most significant bit first (R280). -/
def crcBit (k : Nat) : Nat := k / 8 * 8 + (7 - k % 8)

/-- The free answer beyond a code (R280, R323; log entry 13). -/
def beyond (seg : Nat) (bits : List Nat) : Found :=
  match Config.beyondCode seg bits with
  | 0 => .detected
  | 1 => .miscorrected true
  | 2 => .miscorrected false
  | _ => .undetected

/-- HBM of each class (R280, R323). -/
def findHbm (cls seg : Nat) (bits : List Nat) : Found :=
  match cls with
  | 0 => match ((List.range 18).filter (fun k => bits.any (fun b => b / 32 == k))).length with
    | 0 => .silent
    | 1 => .corrected
    | 2 => .detected
    | _ => beyond seg bits
  | 1 => if crc16 ((List.range 528).map (fun k => bits.contains (crcBit k))) == 0 then .undetected else .detected
  | _ => if decide (bits.length ≤ 1) || Config.dramCorrects bits then .silent else .undetected

/-- Scratchpad of each class, per 32 bits (R323). -/
def findScratch (cls seg : Nat) (bits : List Nat) : Found :=
  let ns := (List.range 16).map (fun k => (bits.filter (fun b => flipWord b == k)).length)
  match cls with
  | 0 => if ns.any (fun n => decide (2 < n)) then beyond seg bits
    else if ns.any (fun n => n == 2) then .detected else .corrected
  | 1 => if ns.any (fun n => n % 2 == 1) then .detected else .undetected
  | _ => .undetected

/-- A die-cache line (R323): a single bit is corrected, a double bit in a clean line refetched, and more bits are beyond
the code; a parity error of its tag drops the line, which is refetched if it is clean. An even number of tag bits escapes
parity: the line is not found under its address, so a clean one reads from HBM and a dirty one is beyond the code (log entry
13). -/
def findCache (clean : Bool) (seg : Nat) (bits : List Nat) : Found :=
  let tag := (bits.filter (fun b => decide (1024 ≤ b))).length
  let data := bits.length - tag
  if tag % 2 == 1 then (if clean then .corrected else .detected)
  else if tag != 0 then (if clean then .silent else beyond seg bits)
  else if data ≤ 1 then .corrected
  else if data == 2 then (if clean then .corrected else .detected)
  else beyond seg bits

/-- Flips one data bit of memory. -/
def flipBit (m : List Host.Cell) (seg b : Nat) : List Host.Cell :=
  let a := seg * 64 + b / 8
  Memory.write m a (Memory.read m a ^^^ BitVec.ofNat 8 (2 ^ (b % 8)))

/-- Flips the data bits among the given bits of a segment. -/
def flipBits (m : List Host.Cell) (seg : Nat) (bits : List Nat) : List Host.Cell :=
  (bits.filter (fun b => decide (b < 512))).foldl (fun m b => flipBit m seg b) m

/-- Flipped ciphertext as it reads (R283): each 16-byte block that a flipped data bit lies in is a free value. -/
def State.garble (s : State) (seg : Nat) (bits : List Nat) : State :=
  (((bits.filter (fun b => decide (b < 512))).map (· / 128)).eraseDups).foldl (fun s k =>
    { s with
      mem := Memory.writeAll s.mem (seg * 64 + 16 * k) (toBytes 16 (Config.freeBits s.fresh % 2 ^ 128))
      fresh := s.fresh + 1 }) s

/-- Flipped bits of a segment as they read: of plaintext in storage of the die, of ciphertext in HBM (R283, R284). -/
def State.flipped (s : State) (f : Flip) (bits : List Nat) : State :=
  if f.onChip || f.cache.isSome then { s with mem := flipBits s.mem f.seg bits } else s.garble f.seg bits

/-- Finds the soft errors of one segment as a slot's engine reads it: corrected and counted, or poisoned, or
delivered wrong (R323); one in HBM or the die cache is an event of that structure (R427). -/
def State.settleFlip (s : State) (sl : SlotId) (eng : Nat) (f : Flip) : State :=
  let cls := match s.tileOfPhys (f.seg * 64) with
    | some (t, off) => (mget (s.tile t).regions (off / 0x40000) {}).cls
    | none => s.classOf (f.seg * 64)
  let onChip := decide (0xF000000000 ≤ f.seg * 64)
  let r := match f.cache with
    | some clean => findCache clean f.seg f.bits
    | none => if onChip then findScratch cls f.seg f.bits else findHbm cls f.seg f.bits
  let s0 := { s with flips := s.flips.filter (fun x => decide (x ≠ f)) }
  let bad := s0.flipped f f.bits
  let told (s : State) (kind : Nat) : State :=
    { s with found := s.found ++ [(if f.cache.isSome then 1 else if onChip then 6 else 3, kind, f.seg * 64)] }
  match r with
  | .corrected => told (s0.coneEvent sl 0 eng) 0
  | .silent => s0
  | .detected => told (bad.setPoison (f.seg * 64) 64) 1
  | .undetected => bad
  | .miscorrected counted =>
    let s1 := s0.flipped f (Config.miscorrected f.seg f.bits)
    if counted then told (s1.coneEvent sl 0 eng) 0 else s1

/-- What a read of bytes finds of a flip: in scratchpad each 32-bit word that it touches, elsewhere the segment (R323). -/
def Flip.found (a n : Nat) (f : Flip) : List Flip :=
  if f.onChip then
    ((List.range 16).filter (fun k => decide (a < f.seg * 64 + 4 * k + 4) && decide (f.seg * 64 + 4 * k < a + n)
      && f.bits.any (fun b => flipWord b == k))).map (fun k => { f with bits := f.bits.filter (fun b => flipWord b == k) })
  else [f]

/-- Finds the soft errors in n bytes that a slot's engine reads (R323). -/
def State.settle (s : State) (sl : SlotId) (eng a n : Nat) : State :=
  (s.flips.filter (fun f => decide (a < f.seg * 64 + 64) && decide (f.seg * 64 < a + n) && !f.bits.isEmpty)).foldl
    (fun s f =>
      let xs := f.found a n
      let left := f.bits.filter (fun b => !xs.any (fun x => x.bits.contains b))
      let others := s.flips.filter (fun x => decide (x ≠ f))
      xs.foldl (fun s x => s.settleFlip sl eng x)
        { s with flips := if left.isEmpty then others else { f with bits := left } :: others }) s

/-- Flips bits of a segment: they wait there until it is read, and a bit that flips twice is as it was. -/
def State.addFlip (s : State) (seg : Nat) (bits : List Nat) (cache : Option Bool) : State :=
  let here (f : Flip) : Bool := f.seg == seg && f.cache == cache
  let old := ((s.flips.find? here).map (·.bits)).getD []
  let new := bits.eraseDups
  let both := old.filter (fun b => !new.contains b) ++ new.filter (fun b => !old.contains b)
  { s with flips := { seg := seg, bits := both, cache := cache } :: s.flips.filter (fun f => !here f) }

/-- Elements of odd parity after one more odd error in an element (R323). -/
def flipParity (odd : List Nat) (i : Nat) : List Nat := if odd.contains i then odd.filter (· != i) else i :: odd

/-! ## Accumulators at a marker (R175, R182) -/

/-- The word of MZERO as a marker. -/
def markerWord : Nat := 0x41000000

/-- A tile that a marker starts (R172, R175): +0 everywhere, mode none, valid, CKV, zero vectors, a new window. -/
def Acc.zeroed (w : List WindowEntry) : Acc := { window := w }

/-- A tile as MZERO leaves it (R175). -/
def Acc.mzero : Acc := Acc.zeroed [{ word := markerWord }]

/-- In-bank units of the device: 2,048 of each of its eight stacks (R2). -/
def bankCount : Nat := 16384

/-- The first of some bank numbers from x on, around, that a list of fewer does not hold. -/
def firstNew : Nat → Nat → List Nat → Nat
  | 0, x, _ => x
  | n + 1, x, l => if l.contains x then firstNew n ((x + 1) % bankCount) l else x

/-- The banks of the first n slabs of the granule at a physical address: distinct ones of the device's (R2, R278; log entry
18). -/
def granuleBanks (base : Nat) : Nat → List Nat
  | 0 => []
  | n + 1 =>
    let l := granuleBanks base n
    l ++ [firstNew 64 (Config.bankOfSlab (base + n * 0x8000) % bankCount) l]

/-- The bank that holds the slab of a physical address (R278). -/
def slabBank (a : Nat) : Nat :=
  let k := a / 0x8000 % 64
  (granuleBanks (a / 0x200000 * 0x200000) (k + 1)).getD k 0

/-! ## Queues -/

/-- Whether an entry of a queue at an index still has to complete, given the open loops (R112, R126, R240). -/
def Sequencer.live (q : Sequencer) (i : Nat) : Bool :=
  decide (q.pos ≤ i) || q.loops.any (fun l => decide (l.start ≤ i) && decide (1 < l.count))

/-- Entries that count in a queue's occupancy (R240), the reserve entry apart. -/
def Sequencer.occupancy (q : Sequencer) : Nat :=
  (q.q.zipIdx.filter (fun e => e.1.counts && !e.1.held && q.live e.2)).length

/-- Whether the reserve entry is occupied (R256). -/
def Sequencer.reserve (q : Sequencer) : Bool := q.q.zipIdx.any (fun e => e.1.held && q.live e.2)

/-- Whether no entry of a queue is left to complete. -/
def Sequencer.isEmpty (q : Sequencer) : Bool := q.occupancy == 0 && !q.reserve

/-- Entries that count in the queue's counter of R112: every entry pushed and not completed (log entry 23). -/
def Sequencer.counter (q : Sequencer) : Nat := (q.q.zipIdx.filter (fun e => e.1.counts && q.live e.2)).length

/-- Commands of a slot in flight, chains' commands apart (R112, R192). -/
def State.inflight (s : State) (sl : SlotId) : List Cmd := s.cmds.filter (fun c => decide (c.slot = sl))

/-- The MEPI of a slot whose check is still to come (R178). -/
def State.epiCmd (s : State) (sl : SlotId) : Option Cmd := (s.inflight sl).find? (fun c => c.epi.isSome)

/-- A MEPI in progress is given up: what it has in flight completes as any command. -/
def State.dropEpi (s : State) (sl : SlotId) : State :=
  { s with cmds := s.cmds.map (fun c => if c.slot = sl then { c with epi := none } else c) }

/-- A counter of R112. The commands of a chain are counted with its XCHAIN, and by themselves once a fault has ended it. -/
def State.counter (s : State) (sl : SlotId) (sel : Nat) : Nat :=
  let v := s.slot sl
  let x := (v.seq .x).counter + (v.seq .b).counter
    + ((s.inflight sl).filter (fun c => !c.matrix && (!c.chained || v.chain.isNone))).length
  let m := (v.seq .m).counter + ((s.inflight sl).filter (fun c => c.matrix && c.epi.isNone)).length
  match sel with
  | 0 => (v.seq .v).counter
  | 1 => m
  | 2 => x
  | 3 => (v.seq .d).counter
  | 4 => v.rq
  | _ => (v.seq .v).counter + m + x + (v.seq .d).counter + v.rq

/-- The issuers of RENQ entries not yet read have their .rq counter decremented when the entries are discarded
(R130). -/
def State.discardRenq (s : State) (sl : SlotId) (es : List Entry) : State :=
  es.foldl (fun s e => match e.kind with
    | .renq _ iss => if s.sameGang iss sl then s.modSlot iss (fun v => { v with rq := v.rq - 1 }) else s
    | _ => s) s

/-- Discards a queue (R31, R166, R185, R212, R233): its entries leave, its loops close, and a chain in progress ends with
the copy queue. A register whose reply will no longer come stays pending (log entry 89). -/
def State.dropQueue (s : State) (sl : SlotId) (e : Engine) : State :=
  let q := (s.slot sl).seq e
  ((s.discardRenq sl (q.q.drop q.pos)).modSeq sl e
    (fun q => { q with q := [], pos := 0, loops := [], skip := 0 })).modSlot sl
    (fun v => { v with chain := if e = .x then none else v.chain })

/-- Discards every queue of a slot. -/
def State.dropQueues (s : State) (sl : SlotId) : State :=
  [Engine.v, .m, .x, .d, .b].foldl (fun s e => s.dropQueue sl e) s

/-! ## Segment signatures (R329) -/

/-- CRC-32C of one byte more, reflected (R329). -/
def crcByte (r : Nat) (b : Byte) : Nat :=
  (List.range 8).foldl (fun r _ => if r % 2 == 1 then (r / 2) ^^^ 0x82F63B78 else r / 2) (r ^^^ b.toNat)

/-- CRC-32C over a word's bytes, its prefix first (R329). -/
def crcEntry (r : Nat) (e : Entry) : Nat :=
  let ws := (match e.pre with | some p => toBytes 4 (0xE0000000 + p) | none => []) ++ toBytes 4 e.word
  ws.foldl crcByte r

/-- The segment signature takes the entry at a position of a queue the first time that the engine takes it or passes over it
(R329). -/
def State.signAt (s : State) (sl : SlotId) (e : Engine) (i : Nat) : State :=
  match ((s.slot sl).seq e).q[i]? with
  | none => s
  | some x =>
    if x.signed || !(decide (x.kind = .word) && decide (0 < x.stamp)) then s
    else
      let s1 := if (s.slot sl).csr.segOpen then
          s.modCsr sl (fun c => { c with segCrc := mmod c.segCrc e.code 0xFFFFFFFF (fun r => crcEntry r x) })
        else s
      s1.modSeq sl e (fun q => { q with q := q.q.modify i (fun y => { y with signed := true }) })

/-- The segment signature takes n entries of a queue from a position on (R329). -/
def State.signRun (s : State) (sl : SlotId) (e : Engine) (i n : Nat) : State :=
  (List.range n).foldl (fun s k => s.signAt sl e (i + k)) s

/-! ## Taking a trap -/

/-- Address of a slot's error record: the context's base plus 64 × task identity (R213), as a physical address through
the area that CREATE pinned. -/
def State.errorRecordAt (s : State) (sl : SlotId) : Option Nat :=
  match s.kernelOf sl with
  | none => none
  | some k =>
    let c := s.ctx k.fn k.ctx
    let va := c.errBase + 64 * identity sl
    (mfind c.pinned (va / 0x10000)).map (fun pa => pa + va % 0x10000)

/-- Virtual address of a slot's error record (R334). -/
def State.errorRecordVa (s : State) (sl : SlotId) : Nat :=
  match s.kernelOf sl with
  | none => 0
  | some k => (s.ctx k.fn k.ctx).errBase + 64 * identity sl

/-- The 64 bytes of an error record (R213). -/
def errorRecord (n cycle : Nat) (t : Trap) : List Byte :=
  toBytes 8 n ++ toBytes 1 t.engine ++ toBytes 1 t.cause ++ toBytes 1 t.sub ++ toBytes 1 0 ++ toBytes 4 t.word
    ++ toBytes 8 t.cap1.toNat ++ toBytes 8 t.cap2.toNat ++ toBytes 8 t.addr ++ toBytes 2 (t.tid % 4096) ++ toBytes 2 0
    ++ toBytes 4 t.dropped ++ toBytes 8 cycle ++ toBytes 8 t.block

/-- Writes a slot's error record (R213). -/
def State.writeErrorRecord (s : State) (sl : SlotId) (t : Trap) : State :=
  let n := (s.slot sl).recSeq + 1
  let s1 := s.modSlot sl (fun v => { v with recSeq := n })
  match s.errorRecordAt sl with
  | some a => s1.poke .bank none a (errorRecord n (Config.cycleOrigin (1000 + identity sl) + s.now) t)
  | none => s1

/-- Whether task replay is permitted (R332). -/
def State.mayReplay (s : State) (sl : SlotId) : Bool :=
  match (s.slot sl).task with
  | some t => t.status / 8 % 32 == 0
  | none => false

/-- Starts a replay or failure (R333, R334): split stops, queued entries go, what waits is over. A trap that an engine
has raised and an exhausted budget outlast a replay (R69, R327; log entry 61). -/
def State.startEnding (s : State) (sl : SlotId) (e : Ending) : State :=
  ((s.dropQueues sl).dropEpi sl).modSlot sl (fun v =>
    { v with
      ending := some e
      wait := none
      stall := none
      traps := if e = .replay then v.traps else []
      conex := if e = .replay then v.conex else none
      bundles := []
      used := []
      outer := []
      chain := none })

/-- The handler entry (R69, R70). -/
def handlerEntry : Word := 0x1FFFFFFB0000000#64

/-- Enters the kernel-level handler (R69): TRAPCAUSE, TRAPPC and TRAPVAL, kernel level with its own s56–s63 and
h12–h15, the handle of the slot's kernel page in h15, PC at the handler's entry. Bundles open at user level stay open
behind the handler's words (log entry 91). -/
def State.enterKernel (s : State) (sl : SlotId) (cause : Nat) (pc : Word) (val : Nat) : State :=
  let kva := 0x1FFFFFFB1000000 + 0x10000 * identity sl
  s.modSlot sl (fun v => { v with
    csr := { v.csr with trapcause := cause, trappc := pc, trapval := BitVec.ofNat 64 val }
    level := true
    pc := handlerEntry
    wait := none
    stall := none
    bundles := []
    used := []
    outer := (v.bundles, v.used) :: v.outer
    regs := { v.regs with
      h := mset v.regs.h 31 ({ va := kva, frame := handlerPhys sl.part kva, r := true, w := true, valid := true }
        : Handle) } })

/-- Whether a partition has a handler loaded (R70, R393). -/
def State.hasHandler (s : State) (p : Nat) : Bool :=
  match s.part? p with
  | some v => v.hasHandler
  | none => false

/-! ## Fetch (R42, R298) -/

/-- Physical address of a word to be fetched: the handler image at kernel level, or a page of the lease whose range
grants r and is no bank range (R42, R70). -/
def State.fetchAddr (s : State) (sl : SlotId) (va : Nat) : Option Nat :=
  if inHandlerArea va then
    if (s.slot sl).level && s.hasHandler sl.part && decide (va < 0x1FFFFFFB0800000) then some (handlerPhys sl.part va) else none
  else
    match s.pageOf sl va, s.kernelOf sl with
    | some p, some k =>
      let rights := k.rangeRights p
      if p.bk || !bitOf rights 0 then none
      else some (s.backing (.core sl) p.frame p.size p.shadow (va - p.va))
    | _, _ => none

/-- One word fetched, old or new where nothing orders it (R298; log entry 8). -/
def State.fetchOne (s : State) (sl : SlotId) (va : Nat) : Option Nat :=
  (s.fetchAddr sl va).map (fun a =>
    s.viewBy (s.orderedFetch sl) (.core sl) 0 (Config.pick s.stepNo a) a 4)

/-- Finds the soft errors in the words that a slot's core fetches (R323): at its PC, and after a prefix there. -/
def State.settleFetch (s : State) (sl : SlotId) : State :=
  let at_ (s : State) (va : Nat) : State := match s.fetchAddr sl va with
    | some a => s.settle sl 0 a 4
    | none => s
  let pc := (s.slot sl).pc.toNat
  let s1 := at_ s pc
  if (s1.fetchOne sl pc).any (fun w => field w 29 3 == 7) then at_ s1 (pc + 4) else s1

/-- The first word at a slot's PC, or 0. -/
def State.wordAt (s : State) (sl : SlotId) : Nat := (s.fetchOne sl (s.slot sl).pc.toNat).getD 0

/-! ## Traps -/

/-- Takes a trap (R68 to R71, R325, R328): OUTLEASE fails the task; consumed poison and CKFAIL in class P replay the
task or fail it; a trap at kernel level or with no handler fails the task; any other enters the handler. -/
def State.takeTrap (s : State) (sl : SlotId) (t : Trap) (pc : Word) : State :=
  let t1 := if t.engine == 0 then
      { t with addr := t.val, word := t.word }
    else t
  if t.cause == 0x04 then s.startEnding sl (.fail t1)
  else if (t.cause == 0x07 || t.cause == 0x0A) && s.kclass sl == 0 then
    s.startEnding sl (if s.mayReplay sl then .replay else .fail t1)
  else if (s.slot sl).level || !s.hasHandler sl.part then s.startEnding sl (.fail t1)
  else s.enterKernel sl t.cause pc t.val

/-- The first word of the instruction being split: its prefix, if it has one (R54). -/
def State.firstWord (s : State) : Nat :=
  match s.cur.entry.pre with
  | some p => 0xE0000000 + p
  | none => s.cur.entry.word

/-- A trap of the word being split or executed by the control core: precise, TRAPPC at its first word (R66, R68). -/
def State.trapHere (s : State) (cause val : Nat) : State :=
  let sl := s.cur.slot
  s.takeTrap sl { cause := cause, val := val, word := s.firstWord } s.pc

/-- A trap of the control core that ends a meaning. -/
def trapOut (s : State) (cause val : Nat) : Out := .next (s.trapHere cause val)

/-- A fault found by a queued engine (R31, R166, R185, R212, R233): the queue halts, later entries go, the error record
is written, and the trap is entered at the slot's next boundary. completed says that the word itself has completed. What
R71 sends elsewhere ends the task at once, and what replays or fails the task writes its record then (R334; log
entry 24). -/
def State.engineTrap (s : State) (sl : SlotId) (e : Engine) (t : Trap) (completed : Bool := false) : State :=
  let q := (s.slot sl).seq e
  let en := s.cur.entry
  let t1 := { t with
    engine := e.code
    word := en.word
    cap1 := en.cap1
    cap2 := en.cap2
    block := en.block
    dropped := (if completed then { q with pos := q.pos + 1 } else q).counter }
  let s1 := { s with cur := { s.cur with status := .halted } }
  if t.cause == 0x04 || ((t.cause == 0x07 || t.cause == 0x0A) && s.kclass sl == 0) || (s.slot sl).level
      || !s.hasHandler sl.part then
    s1.takeTrap sl t1 (s.slot sl).pc
  else
    let s2 := s1.dropQueue sl e
    let s3 := s2.writeErrorRecord sl t1
    s3.modSlot sl (fun v => { v with traps := v.traps ++ [t1] })

/-- TRAPVAL of POISON (R325): address, SREG, LOCAL, engine code. -/
def poisonVal (addr : Nat) (sreg loc : Bool) (eng : Nat) : Nat :=
  addr % 2 ^ 57 + (if sreg then 2 ^ 59 else 0) + (if loc then 2 ^ 60 else 0) + eng * 2 ^ 61

/-- Consumption of poison by the control core (R325): in class U the word goes on and one detected event counts; in P
and D the word stops. -/
def State.consumeCore (s : State) (val : Nat) (go : State → Out) : Out :=
  let s1 := s.coneEvent s.cur.slot 1 0
  if s.kclass s.cur.slot == 2 then go s1 else .next (s1.trapHere 0x07 val)

/-- Consumption of poison by an engine word (R325). A word that cannot yet go on has not consumed anything (R143,
R160). -/
def State.consumeEngine (s : State) (e : Engine) (val : Nat) (go : State → Out) : Out :=
  let s1 := s.coneEvent s.cur.slot 1 e.code
  let eat : Out := if s.kclass s.cur.slot == 2 then go s1
    else .next (s1.engineTrap s.cur.slot e { cause := 0x07, val := val, addr := val % 2 ^ 57 })
  match go s with
  | .next t => if t.cur.status = .stalled then .next t else eat
  | _ => eat

/-- The executing entry cannot begin or go on yet. -/
def stallOut (s : State) : Out := .next { s with cur := { s.cur with status := .stalled } }

/-- The executing entry has completed. -/
def doneOut (s : State) : Out := .next { s with cur := { s.cur with status := .done } }

end Sys2Proof.Machine
end

