-- ==== Sys2Proof/Machine/Tasks.lean ====
section
/-!
DEFINITION. Task control blocks, dependences, futures and ready lists (spec/09, R236 to R253), and spawning an error
handler (R334).
-/

namespace Sys2Proof.Machine

/-- Physical address of a virtual address in a kernel's lease. -/
def State.leasePhys (s : State) (k : Kernel) (va : Nat) : Option Nat :=
  (k.page? va).map (fun p => s.backing .bank p.frame p.size p.shadow (va - p.va))

/-- Cycle count of a partition (R248, R381; log entry 10). -/
def State.partCycle (s : State) (p : Nat) : Nat := (Config.cycleOrigin p + s.now) % 2 ^ 64

/-- A number of n bytes at a byte offset of a block. -/
def blockNum (b : List Byte) (off n : Nat) : Nat := ofBytes ((b.drop off).take n)

/-- A signed 32-bit offset from a TCB's own address (R248). -/
def tcbOffset (va off : Nat) : Nat := (((va : Int) + toSigned 32 off) % (2 ^ 64 : Nat)).toNat

/-- The task that a TCB describes (R248), for a kernel and, once admitted, a gang. -/
def taskOfTcb (kernel va : Nat) (b : List Byte) : Task where
  kernel := kernel
  tcb := some va
  gang := 0
  member := 0
  entry := blockNum b 8 8
  args := [blockNum b 16 8, blockNum b 24 8, blockNum b 32 8, blockNum b 40 8].map (BitVec.ofNat 64)
  status := blockNum b 104 4
  rsub := blockNum b 100 4
  seqNo := blockNum b 0 8
  rdyc := blockNum b 112 8
  prio := blockNum b 90 1 % 4
  tickets := blockNum b 88 2
  reqm := blockNum b 91 1
  reqa := blockNum b 92 1
  reqr := blockNum b 94 2
  succ := ((List.range 6).map (fun i => blockNum b (48 + 4 * i) 4)).filter (· != 0) |>.map (tcbOffset va)
  handler := false

/-- Future words that a TCB names (R248). -/
def tcbFutures (va : Nat) (b : List Byte) : List Nat :=
  ((List.range 4).map (fun i => blockNum b (72 + 4 * i) 4)).filter (· != 0) |>.map (tcbOffset va)

/-- Whether a TCB is ill-formed (R249). -/
def tcbIllFormed (k : Kernel) (va : Nat) (b : List Byte) : Bool :=
  let entry := blockNum b 8 8
  entry % 4 != 0 || entry / 2 ^ 57 != 0 || blockNum b 90 1 / 4 != 0 || blockNum b 93 1 != 0
    || blockNum b 105 3 != 0 || blockNum b 120 8 != 0
    || decide (16 < blockNum b 91 1) || decide (4 < blockNum b 92 1)
    || (List.range 6).any (fun i => blockNum b (48 + 4 * i) 4 % 128 != 0)
    || (List.range 4).any (fun i => blockNum b (72 + 4 * i) 4 % 8 != 0)
    || (k.page? entry).isNone
    || (tcbFutures va b).any (fun f => (k.page? f).isNone)
    || decide (2 ^ k.ranges.length ≤ blockNum b 100 4)
    || (List.range k.ranges.length).any (fun i => bitOf (blockNum b 100 4) i &&
        ((k.ranges[i]?).map (fun r => r.len == 0)).getD true)

/-- Adds an entry to a ready list at its level (R251). -/
def State.addReady (s : State) (p : Nat) (r : Ready) : State := s.modPart p (fun v => { v with ready := v.ready ++ [r] })

/-- Writes STATE of a TCB (R248). -/
def State.tcbState (s : State) (k : Kernel) (va st : Nat) : State :=
  match s.leasePhys k (va + 104) with
  | some a =>
    let old := s.readNum .bank a 4
    s.poke .bank none a (toBytes 4 (old / 8 * 8 + st))
  | none => s

/-- Whether a spawned task can become ready: counter zero and futures full (R250). -/
def State.taskReady (s : State) (k : Kernel) (va : Nat) : Bool :=
  match s.leasePhys k va with
  | some a =>
    let b := s.readBytes .bank a 128
    blockNum b 96 4 == 0 && (tcbFutures va b).all (fun f =>
      match s.leasePhys k f with | some fa => s.full fa | none => false)
  | none => false

/-- Makes one spawned task ready (R250): RDYC written, STATE ready, on its partition's list. -/
def State.makeReady (s : State) (p : Nat) (w : Spawned) : State :=
  match mfind s.kernels w.kernel with
  | none => s
  | some k =>
    match s.leasePhys k w.tcb with
    | none => s
    | some a =>
      let c := s.partCycle p
      let s1 := (s.tcbState k w.tcb 2).poke .bank none (a + 112) (toBytes 8 c)
      let t := taskOfTcb w.kernel w.tcb (s1.readBytes .bank a 128)
      let s2 := s1.addReady p { level := t.prio, rdyc := c, seqNo := t.seqNo, since := s.now, kernel := w.kernel,
                                tasks := [t] }
      s2.modPart p (fun v => { v with spawned := v.spawned.filter (fun x => decide (x ≠ w)) })

/-- Moves every spawned task of a partition that can run to the ready list (R250). -/
def State.settleReady (s : State) (p : Nat) : State :=
  match s.part? p with
  | none => s
  | some v => v.spawned.foldl (fun s w =>
      match mfind s.kernels w.kernel with
      | some k => if s.taskReady k w.tcb then s.makeReady p w else s
      | none => s) s

/-- Decrements the dependence counter of a successor, saturating at 0 (R250). -/
def State.decDep (s : State) (k : Kernel) (va : Nat) : State :=
  match s.leasePhys k (va + 96) with
  | some a => s.poke .bank none a (toBytes 4 (s.readNum .bank a 4 - 1))
  | none => s

/-- Spawns the error handler of a kernel as a gang of one at level 3 (R249, R334), unless its entry is 0. -/
def State.spawnHandler (s : State) (kid : Nat) (src : Task) (args : List Nat) : State :=
  match mfind s.kernels kid with
  | none => s
  | some k =>
    if k.ehentry == 0 then s
    else
      let t : Task := { src with
        tcb := none
        member := 0
        entry := k.ehentry
        args := args.map (BitVec.ofNat 64)
        status := 2
        prio := 3
        rdyc := s.partCycle k.part
        succ := []
        handler := true }
      s.addReady k.part { level := 3, rdyc := s.partCycle k.part, seqNo := t.seqNo, since := s.now, kernel := kid,
                          tasks := [t] }

/-- A failure counts in its kernel (R249, R334, R381). -/
def State.countFailure (s : State) (kid : Nat) : State := s.modKernel kid (fun k => { k with failed := k.failed + 1 })

/-- Registers a TCB as spawned, or fails it as ill-formed (R127, R249). -/
def State.spawnTcb (s : State) (sl : SlotId) (t : Task) (k : Kernel) (va : Nat) (b : List Byte) : State :=
  if tcbIllFormed k va b then
    ((s.tcbState k va 5).countFailure t.kernel).spawnHandler t.kernel { t with tickets := (s.slot sl).csr.tickets }
      [va, 0, 0x0F, 0xFFFFFFFF]
  else
    let s1 := s.tcbState k va 1
    (s1.modPart sl.part (fun v => { v with spawned := v.spawned ++ [⟨t.kernel, va⟩] })).settleReady sl.part

end Sys2Proof.Machine
end

