-- ==== Sys2Proof/Machine/Weights.lean ====
section
/-!
DEFINITION. Tickets, currencies, effective weights and loans (spec/12, R303, R304, R311, R315, R316, R318).
-/

namespace Sys2Proof.Machine

/-- Sum of a list. -/
def sumOf (xs : List Nat) : Nat := xs.foldl (· + ·) 0

/-! ## Currencies -/

/-- The currency of a slot's task: the CURNODE of its context (R303, R390). -/
def State.nodeOf (s : State) (sl : SlotId) : Nat :=
  match s.kernelOf sl with
  | some k => (s.ctx k.fn k.ctx).node
  | none => 0

/-- Whether a slot holds a task that counts and lends: not one that is being pre-empted or killed (R400, R405). -/
def State.counts (s : State) (sl : SlotId) : Bool :=
  (s.slot sl).task.isSome && (match s.kernelOf sl with
    | some k => (s.ctx k.fn k.ctx).state == 1 || (s.ctx k.fn k.ctx).state == 4
    | none => false)

/-- Tickets of the admitted tasks of a currency. -/
def State.ownIssued (s : State) (n : Nat) : Nat :=
  sumOf ((s.slots.filter (fun (e : SlotId × Slot) => s.counts e.1 && s.nodeOf e.1 == n)).map (fun e => e.2.csr.tickets))

/-- Issued total of a currency, over a tree of the depth given (R303). -/
def State.issued (s : State) : Nat → Nat → Nat
  | 0, _ => 0
  | f + 1, n =>
    s.ownIssued n + sumOf ((s.currencies.filter (fun (c : Nat × Currency) => c.2.parent == n && c.1 != n && c.1 != 0)).map
      (fun c => if s.issued f c.1 == 0 then 0 else c.2.funding))

/-- Rate of a currency (R304). -/
def State.rate (s : State) : Nat → Nat → Nat
  | 0, _ => 0
  | f + 1, n =>
    if n = 0 then 2 ^ 32
    else
      let c := mget s.currencies n default
      let i := s.issued 4 n
      if i = 0 then 0 else min (s.rate f c.parent * c.funding / i) (2 ^ 48 - 1)

/-- Base value of a slot's task (R304). -/
def State.baseValue (s : State) (sl : SlotId) : Nat :=
  if (s.slot sl).task.isSome then min ((s.slot sl).csr.tickets * s.rate 4 (s.nodeOf sl) / 2 ^ 16) (2 ^ 24 - 1) else 0

/-! ## Lending -/

/-- The identity that stands for none (R108). -/
def noIdentity : Nat := 0xFFFFFFFF

/-- The running task of the lender's partition that an identity names, other than the lender (R315). -/
def State.runner (s : State) (sl : SlotId) (ident : Nat) : Option SlotId :=
  let tgt := slotOfIdentity sl.part ident
  if ident == noIdentity || decide (tgt = sl) || !s.counts tgt then none else some tgt

/-- The identity that an object holds at an offset, for a slot that waits on it. -/
def State.objectIdent (s : State) (sl : SlotId) (h off size field : Nat) : Nat :=
  match s.handleAddress sl h off size 0 (if size = 32 then 64 else 8) with
  | .ok a _ => s.readNum (.core sl) (a + field) 4
  | _ => noIdentity

/-- One releaser, without shares. -/
def oneReleaser (x : Option SlotId) : List (SlotId × Nat × Bool) :=
  match x with
  | some r => [(r, 1, true)]
  | none => []

/-- The members not yet arrived that can receive a loan, in shares (R316). -/
def State.absent (s : State) (sl : SlotId) (g : Gang) (n gen : Nat) : List (SlotId × Nat × Bool) :=
  let ms := (List.range g.size).filterMap (fun m =>
    if gen < mget g.arrived (n, m) 0 then none
    else match mfind g.members m with
      | some x => if decide (x ≠ sl) && s.counts x then some x else none
      | none => none)
  ms.zipIdx.map (fun x => (x.1, ms.length, x.2 == 0))

/-- Whom a slot lends to while it waits (R110, R315), with the shares. A future that has been filled names no owner
(R134). -/
def State.releasers (s : State) (sl : SlotId) : List (SlotId × Nat × Bool) :=
  match (s.slot sl).wait with
  | none => []
  | some w =>
    match w.kind with
    | .qpop _ h off => oneReleaser (s.runner sl (s.objectIdent sl h off 32 20))
    | .qpush _ h off => oneReleaser (s.runner sl (s.objectIdent sl h off 32 24))
    | .semw _ h off _ => oneReleaser (s.runner sl (s.objectIdent sl h off 16 8))
    | .ldf _ h off =>
      let full := match s.handleAddress sl h off 8 0 with
        | .ok a _ => s.full a
        | _ => true
      if full then [] else oneReleaser (s.runner sl (s.objectIdent sl h off 8 0))
    | .waitf _ f _ _ => oneReleaser (s.runner sl (mget (s.slot sl).issuer f noIdentity))
    | .renq _ m _ _ => match s.gangOf sl with
      | some g => oneReleaser ((mfind g.members m).filter (fun x => decide (x ≠ sl)))
      | none => []
    | .bara _ n => match s.gangOf sl with
      | some g => s.absent sl g n (mget g.completed n 0)
      | none => []
    | .barw _ gen n _ => match s.gangOf sl with
      | some g => s.absent sl g n gen
      | none => []
    | _ => []

/-- The paths of a lender's loan, at most the number of hops given (R316). A path that meets itself ends nowhere. -/
def State.pathsFrom (s : State) (origin : SlotId) :
    Nat → SlotId → List SlotId → List (Nat × Bool) → List (List SlotId × List (Nat × Bool))
  | 0, _, path, shares => [(path, shares)]
  | f + 1, x, path, shares =>
    match s.releasers x with
    | [] => if path.isEmpty then [] else [(path, shares)]
    | rs => rs.flatMap (fun r =>
        if decide (r.1 = origin) || path.contains r.1 then []
        else s.pathsFrom origin f r.1 (path ++ [r.1]) (shares ++ [r.2]))

/-- The loans that the current waits of a partition call for (R316). -/
def State.wanted (s : State) (p : Nat) : List Loan :=
  (s.slots.filter (fun (e : SlotId × Slot) => e.1.part == p && s.counts e.1 && e.2.wait.isSome)).flatMap (fun e =>
    (s.pathsFrom e.1 8 e.1 [] []).map (fun x =>
      { lender := e.1, path := x.1, shares := x.2, hops := 0, since := s.now, gone := false }))

/-- Whether two loans follow the same path with the same shares. -/
def Loan.same (a b : Loan) : Bool :=
  decide (a.lender = b.lender) && decide (a.path = b.path) && decide (a.shares = b.shares)

/-- What of an amount a loan brings to its end (R316). -/
def Loan.amount (l : Loan) (x : Nat) : Nat := l.shares.foldl (fun v sh => v / sh.1 + if sh.2 then v % sh.1 else 0) x

/-- The loans that have reached a slot and count there (R317). -/
def State.loansAt (s : State) (sl : SlotId) : List Loan :=
  match s.part? sl.part with
  | none => []
  | some p => p.loans.filter (fun l =>
      decide (l.path.length ≤ l.hops) && decide (l.path.getLast? = some sl) && s.counts l.lender && s.counts sl)

/-- A compensation factor (R310). -/
def Kiln.factorOf (k : Kiln) (n : Nat) : Nat := mget k.factor n 0x10000

/-- Own weight of a slot on an engine, from the base value installed in its Kiln (R311). -/
def State.ownWeight (s : State) (sl : SlotId) (e : Engine) : Nat :=
  let k := s.kiln sl.tileId e
  min (mget k.base sl.slot 0 * k.factorOf sl.slot / 2 ^ 16) (2 ^ 24 - 1)

/-- Loans received on an engine (R311). -/
def State.loansOn (s : State) (sl : SlotId) (e : Engine) : Nat :=
  sumOf ((s.loansAt sl).map (fun l => l.amount (s.ownWeight l.lender e)))

/-- Effective weight on an engine (R311). -/
def State.weight (s : State) (sl : SlotId) (e : Engine) : Nat := min (s.ownWeight sl e + s.loansOn sl e) (2 ^ 24 - 1)

/-- TKLOAN (R318): of the base values as they stand (R304), which a Kiln may install later (R305; log entry 55). -/
def State.tkloan (s : State) (sl : SlotId) : Nat :=
  min (sumOf ((s.loansAt sl).map (fun l => l.amount (s.baseValue l.lender)))) (2 ^ 24 - 1)

/-- Keeps the effective weights of a Kiln's slots as those at the start of the cycle (R313). -/
def State.noteWeights (s : State) (t : TileId) (e : Engine) : State :=
  let ws := (List.range 8).map (fun i => (i, s.weight ⟨t.part, t.tile, i⟩ e))
  s.modKiln t e (fun k => { k with start := ws })

/-- A change of tickets, funding, admission or retirement: every Kiln has a revaluation to install (R305). -/
def State.revalue (s : State) : State :=
  { s with parts := s.parts.map (fun (p : Nat × Part) => (p.1, { p.2 with
      tiles := p.2.tiles.map (fun (t : Nat × Tile) => (t.1, { t.2 with
        kilns := t.2.kilns.map (fun (k : Engine × Kiln) => (k.1, { k.2 with stale := some (k.2.stale.getD s.now) })) })) })) }

/-- A Kiln installs the current base values of all its slots in one step (R305). -/
def State.install (s : State) (t : TileId) (e : Engine) : State :=
  s.modKiln t e (fun k =>
    { k with
      base := (List.range 8).map (fun i => (i, s.baseValue ⟨t.part, t.tile, i⟩))
      stale := none })

/-- The Kilns of a slot's tile install the revaluation that its task's admission or return causes, and the slot takes part in
draws with its weight from then on (R305). -/
def State.installFor (s : State) (sl : SlotId) : State :=
  [Engine.v, .m, .x, .d].foldl (fun s e =>
    let s1 := s.install sl.tileId e
    let x := s1.weight sl e
    s1.modKiln sl.tileId e (fun k => { k with start := mset k.start sl.slot x })) s

end Sys2Proof.Machine
end

