-- ==== Sys2Proof/Machine/Csr.lean ====
section
/-!
DEFINITION. Control and status registers (R41): reads, writes under R8, and the error injection that ERRINJ arms
(R335).
-/

namespace Sys2Proof.Machine

/-- DEVFEAT for the variant (R446): 0 is the Z9, 1 the Z5. A die that failed its boot is not counted (R450). -/
def State.devfeat (s : State) : Nat :=
  if s.variant == 0 then 0x803 + 16 * (4 - s.mp.deadDies.length) else 0x400 + 16 * (2 - s.mp.deadDies.length)

/-- DRVFEAT (R447). -/
def State.drvfeat (s : State) : Nat := mget s.regs 0x1708 0

/-- Whether the bank feature is offered and accepted (R448). -/
def State.hasBank (s : State) : Bool := bitOf s.devfeat 0 && bitOf s.drvfeat 0

/-- Whether the distribution feature is offered and accepted (R448). -/
def State.hasDist (s : State) : Bool := bitOf s.devfeat 1 && bitOf s.drvfeat 1

/-- NCLUS: clusters of the partition (R433). -/
def State.nclus (s : State) (p : Nat) : Nat := ((s.part? p).map (fun v => v.clusters.length)).getD 0

/-- SEGSIG (R330). -/
def Csrs.segsig (c : Csrs) : Nat :=
  c.segIdx % 65536 + (if c.segOpen then 2 ^ 16 else 0) + c.segEng % 8 * 2 ^ 17 + (if c.segBeat then 2 ^ 20 else 0)
    + c.segLast % 2 ^ 32 * 2 ^ 32

/-- UISTAT (R245). -/
def Csrs.uistat (c : Csrs) : Nat :=
  c.xdone + c.bdone * 256 + (if c.topo then 2 ^ 16 else 0) + (if c.ovf then 2 ^ 17 else 0)
    + (if c.en then 2 ^ 18 else 0) + (if c.inh then 2 ^ 19 else 0)

/-- The value of a CSR (R41). -/
def State.csrRead (s : State) (sl : SlotId) (n : Nat) : Nat :=
  let c := (s.slot sl).csr
  match n with
  | 0x000 => c.fpcsr
  | 0x001 => c.rngseed
  | 0x002 => c.cktolAbs
  | 0x003 => c.cktolRel
  | 0x010 => sl.slot
  | 0x011 => sl.tile
  | 0x012 => s.nclus sl.part
  | 0x013 => s.kclass sl
  | 0x020 => c.tickets
  | 0x021 => s.tkloan sl
  | 0x022 => ((s.part? sl.part).map (·.drawseed)).getD 0
  | 0x030 => c.cone
  | 0x031 => c.conecfg
  | 0x032 => c.segsig
  | 0x040 => c.uivec
  | 0x041 => c.uistat
  | 0x042 => if c.evlatch then 1 else 0
  | 0x050 => c.trapcause
  | 0x051 => c.trappc.toNat
  | 0x052 => c.trapval.toNat
  | 0x060 => c.errinj
  | 0x070 => s.devfeat
  | 0x071 => s.drvfeat
  | _ => 0

/-- Whether user-level code may not touch a CSR at all (R41). -/
def csrPriv (n : Nat) : Bool := n == 0x050 || n == 0x051 || n == 0x052 || n == 0x060

/-- The bits that an injection flips of a location of n bits: BIT, and with DBL the next where there is one (R335; log entry
99). -/
def injBits (inj n : Nat) : List Nat :=
  let b := field inj 6 6
  if bitOf inj 2 && decide (b + 1 < n) then [b, b + 1] else [b]

/-- Flips the armed bits of a value of n bits (R335). -/
def flipInj (v inj n : Nat) : Nat := (injBits inj n).foldl (fun v b => v ^^^ 2 ^ b) v

/-- Makes the 32-bit word at an address of scratchpad what its flipped bits make of it, with check bits that agree (R335). -/
def State.resealWord (s : State) (a : Nat) : State :=
  let here (f : Flip) : Bool := f.seg == a / 64 && f.cache.isNone
  let word (b : Nat) : Bool := flipWord b == a % 64 / 4
  let bits := ((s.flips.filter here).flatMap (·.bits)).filter word
  { s with
    mem := flipBits s.mem (a / 64) bits
    flips := s.flips.map (fun f => if here f then { f with bits := f.bits.filter (fun b => !word b) } else f) }

/-- Fires the armed injection (R335): the location's bits flip; without SIL, its own check finds the flip (R323). -/
def State.inject (s : State) (sl : SlotId) : State :=
  let inj := (s.slot sl).csr.errinj
  let silent := bitOf inj 1
  let s1 := s.modCsr sl (fun c => { c with errinj := setField (setField inj 0 1 0) 14 1 1 })
  match field inj 3 2 with
  | 0 =>
    let el := 128 * field inj 34 7 + field inj 41 7
    s1.modRegs sl (fun r => { r with a := mmod r.a (field inj 32 2) {} (fun a =>
      { a with
        el := mmod a.el el 0 (fun v => BitVec.ofNat 40 (flipInj v.toNat inj 40))
        odd := if silent then a.odd.filter (· != el)
          else if (injBits inj 40).length % 2 == 1 then flipParity a.odd el else a.odd }) })
  | 1 =>
    let la := field inj 32 22 / 4 * 4
    let a := s1.localPhys sl la
    if silent then
      let s2 := s1.resealWord a
      { s2 with mem := Memory.writeAll s2.mem a (toBytes 4 (flipInj
          (ofBytes ((List.range 4).map (fun i => Memory.read s2.mem (a + i)))) inj 32)) }
    else s1.addFlip (a / 64) ((injBits inj 32).map (· + a % 64 * 8)) none
  | _ =>
    let k := field inj 32 4 * 1024 + field inj 36 5 * 32 + field inj 41 5
    s1.modRegs sl (fun r => { r with
      m := mmod r.m k 0 (fun v => BitVec.ofNat 32 (flipInj v.toNat inj 32))
      modd := if silent then r.modd.filter (· != k)
        else if (injBits inj 32).length % 2 == 1 then flipParity r.modd k else r.modd })

/-- Whether an injection of a kind is armed with a trigger (R335). -/
def Csrs.armed (c : Csrs) (kind trig : Nat) : Bool :=
  bitOf c.errinj 0 && field c.errinj 3 2 == kind && field c.errinj 12 2 == trig

/-- Whether an injection waits for the next entry boundary of an engine (R335): the matrix engine for an accumulator element,
the vector engine for a matrix-register element. -/
def Csrs.atBoundary (c : Csrs) (e : Engine) : Bool := (e == .m && c.armed 0 0) || (e == .v && c.armed 2 0)

/-- Fires an injection that waits for a read of scratchpad bytes by the slot (R335). -/
def State.injectLocal (s : State) (sl : SlotId) (a n : Nat) : State :=
  let c := (s.slot sl).csr
  if c.armed 1 2 && decide (a < field c.errinj 32 22 / 4 * 4 + 4) && decide (field c.errinj 32 22 / 4 * 4 < a + n) then
    s.inject sl
  else s

/-- Fires an injection into a scratchpad word that waits for nothing (R335): at once, or when the region that the slot holds
there is in the scratchpad again (log entry 99). -/
def State.injectNow (s : State) (sl : SlotId) : State :=
  let c := (s.slot sl).csr
  if c.armed 1 0 && s.resident sl (field c.errinj 32 22 / 4 * 4) 4 then s.inject sl else s

/-- Whether a value of ERRINJ may arm (R335). -/
def State.injectable (s : State) (sl : SlotId) (v : Nat) : Bool :=
  let kind := field v 3 2
  let trig := field v 12 2
  kind != 3 && trig != 3 && (trig != 1 || kind == 0) && decide (field v 6 6 ≤ (if kind == 0 then 39 else 31))
    && (kind != 0 || decide (field v 32 2 < (((s.slot sl).task).map (·.reqa)).getD 0))
    && (kind != 1 || s.localHeld sl (field v 32 22))

/-- A write of a CSR under R8: read-only and reserved fields ignored, W1C fields cleared by ones, at the writer's
privilege (R41). -/
def State.csrWrite (s : State) (sl : SlotId) (n v : Nat) : State :=
  let k := (s.slot sl).level
  match n with
  | 0x000 => s.modCsr sl (fun c => { c with fpcsr :=
      ((c.fpcsr % 128) &&& (127 - v % 128)) + field v 8 5 * 256 + field v 14 1 * 2 ^ 14 })
  | 0x001 => s.modCsr sl (fun c => { c with
      rngseed := v % 2 ^ 32
      gens := (List.range 4).map (fun i => (i, seedGenerator v i)) })
  | 0x002 => s.modCsr sl (fun c => { c with cktolAbs := v % 2 ^ 32 })
  | 0x003 => s.modCsr sl (fun c => { c with cktolRel := v % 2 ^ 32 })
  | 0x022 => if k then s.modPart sl.part (fun p => { p with drawseed := v % 2 ^ 32 }) else s
  | 0x030 => if k then s.modCsr sl (fun c => { c with cone := v % 65536 }) else s
  | 0x031 => if k then s.modCsr sl (fun c => { c with conecfg := v % 16 }) else s
  | 0x040 => s.modCsr sl (fun c => { c with uivec := field v 2 55 * 4 })
  | 0x041 => s.modCsr sl (fun c => { c with
      xdone := field v 0 8
      bdone := field v 8 8
      topo := c.topo && !bitOf v 16
      ovf := c.ovf && !bitOf v 17 })
  | 0x050 => if k then s.modCsr sl (fun c => { c with trapcause := v % 256 }) else s
  | 0x051 => if k then s.modCsr sl (fun c => { c with trappc := BitVec.ofNat 64 v }) else s
  | 0x052 => if k then s.modCsr sl (fun c => { c with trapval := BitVec.ofNat 64 v }) else s
  | 0x060 =>
    if k then
      let old := (s.slot sl).csr.errinj
      let fired := if bitOf v 14 then 0 else field old 14 1
      let w := field v 0 5 + field v 6 8 * 64 + fired * 2 ^ 14 + field v 32 22 * 2 ^ 32
      let w1 := if s.injectable sl v then w else setField w 0 1 0
      let s1 := s.modCsr sl (fun c => { c with errinj := w1 })
      s1.injectNow sl
    else s
  | _ => s

/-- CSRs that queued engine words read, whose writes wait for the engines (R104). -/
def csrWaits (n : Nat) : Bool := n == 0x000 || n == 0x001 || n == 0x002 || n == 0x003 || n == 0x030 || n == 0x031

/-- Whether every engine queue of a slot is empty and nothing of it is in progress (R104). -/
def State.enginesIdle (s : State) (sl : SlotId) : Bool :=
  [Engine.v, .m, .x, .d, .b].all (fun e => ((s.slot sl).seq e).isEmpty) && (s.inflight sl).isEmpty
    && (s.slot sl).chain.isNone

end Sys2Proof.Machine
end

