-- ==== Sys2Proof/Machine/Records.lean ====
section
/-!
DEFINITION. Tensor records and the record cache (R269 to R273), and the addresses of tensor elements (R271).
-/

namespace Sys2Proof.Machine

/-- A well-formed tensor record (R270). -/
structure Record where
  tid : Nat
  base : Nat
  sbase : Nat
  e0 : Nat
  e1 : Nat
  e2 : Nat
  e3 : Nat
  s0 : Nat
  s1 : Int
  s2 : Int
  s3 : Int
  code : Nat
  fmt : Format
  cls : Nat
  shadow : Bool
  deriving DecidableEq, Repr

/-- The record in 64 bytes, or none where the bytes alone make it ill-formed (R13, R270, R272). DEDUCED: S0 = 0 is ill-formed as
an extent of 0 is, since R270 gives it from 1 on (log entry 105). -/
def parseRecord (tid : Nat) (b : List Byte) : Option Record :=
  let n := blockNum b
  let base := n 0 8
  let sbase := n 8 8
  let bits := ((formatOf (n 40 1)).map Format.size).getD 8
  let st := [n 28 4, n 32 4, n 36 4].map (toSigned 32)
  match formatChecked (n 40 1) (n 41 1) with
  | none => none
  | some f =>
    if base / 2 ^ 57 != 0 || sbase / 2 ^ 57 != 0 || n 26 2 != 0 || n 44 8 != 0 || n 52 8 != 0 || n 60 4 != 0
      || decide (7 < n 42 1) || decide (3 < n 43 1) then none
    else if n 16 2 == 0 || n 18 2 == 0 || n 20 2 == 0 || n 22 2 == 0 || n 24 2 == 0 then none
    else if n 42 1 % 4 == 3 then none
    else if (f.isMx || decide (bits < 8)) && n 24 2 != 1 then none
    else if f.isMx != (sbase != 0) then none
    else if decide (8 ≤ bits) && (base % (bits / 8) != 0 || st.any (fun x => x % ((bits / 8 : Nat) : Int) != 0)) then none
    else some { tid := tid, base := base, sbase := sbase, e0 := n 16 2, e1 := n 18 2, e2 := n 20 2, e3 := n 22 2,
                s0 := n 24 2, s1 := st.getD 0 0, s2 := st.getD 1 0, s3 := st.getD 2 0, code := n 40 1, fmt := f,
                cls := n 42 1 % 4, shadow := n 42 1 / 4 % 2 == 1 }

/-- What TRSYNC has ordered before a slot's reads of a record (R297): the later one of every record or of this one. -/
def Slot.recordFloor (v : Slot) (tid : Nat) : Nat × Nat :=
  let x := mget v.recFloor tid (0, 0)
  (max v.recAll.1 x.1, max v.recAll.2 x.2)

/-- Reads the 64 bytes of a record in memory (R269, R273): from the kernel's table, in a range that grants r, on no bank
page; a table at address 0 is no table. Each 8-byte field is old or new where no TRSYNC orders it (R120, R297). -/
def State.recordBytes (s : State) (sl : SlotId) (g : Agent) (pick tid : Nat) : Option (Nat × List Byte) :=
  match (s.slot sl).task, s.kernelOf sl with
  | some _, some k =>
    let floor := (s.slot sl).recordFloor tid
    let va := k.ttab + 64 * tid
    match k.page? va, k.page? (va + 63) with
    | some p, some _ =>
      if k.ttab == 0 || p.bk || !grantsR (k.rangeRights p) then none
      else
        let a := s.backing g p.frame p.size p.shadow (va - p.va)
        some (a, (List.range 8).flatMap (fun i =>
          toBytes 8 (s.viewBy (s.orderedRecord sl floor) g floor.1 (Config.pick pick (1000000 + i)) (a + 8 * i) 8)))
    | _, _ => none
  | _, _ => none

/-- Looks a record up for an engine word or PUB (R120, R269, R273): a cached entry becomes the most recent; a miss
loads the record, replacing the least recent entry of 64. Answers no record where it is ill-formed by its bytes, its
place or its poison (R272). -/
def State.lookup (s : State) (sl : SlotId) (g : Agent) (eng tid : Nat) : State × Option Record :=
  let t := s.tile sl.tileId
  match t.cache.find? (fun c => c.slot == sl.slot && c.tid == tid) with
  | some c =>
    let rest := t.cache.filter (fun x => !(x.slot == sl.slot && x.tid == tid))
    (s.modTile sl.tileId (fun t => { t with cache := c :: rest }), if tid == 0 then none else parseRecord tid c.bytes)
  | none =>
    if tid == 0 then (s, none)
    else match s.recordBytes sl g s.fresh tid with
      | none => (s, none)
      | some (a, _) =>
        let s1 := { s.settle sl eng a 64 with fresh := s.fresh + 1 }
        match s1.recordBytes sl g s.fresh tid with
        | none => (s1, none)
        | some (_, b) =>
          if s1.poisonedIn a 64 then (s1, none)
          else
            (s1.modTile sl.tileId (fun t =>
              { t with cache := ({ slot := sl.slot, tid := tid, bytes := b, table := a } :: t.cache).take 64 }),
             parseRecord tid b)

/-- Removes record-cache entries of a slot: of one identifier, or all (R120, R273). -/
def State.dropCached (s : State) (sl : SlotId) (tid : Option Nat) : State :=
  s.modTile sl.tileId (fun t => { t with cache := t.cache.filter (fun c =>
    !(c.slot == sl.slot && (match tid with | some x => c.tid == x | none => true))) })

/-- TRSYNC (R120, R297): the entries go, and what precedes it is ordered before the slot's later reads of the record. -/
def State.dropRecords (s : State) (sl : SlotId) (tid : Option Nat) : State :=
  let s1 := { s.dropCached sl tid with seqT := s.seqT + 1 }
  s1.modSlot sl (fun v => match tid with
    | some x => { v with recFloor := mset v.recFloor x (v.lastOrd, s.seqT + 1) }
    | none => { v with recAll := (v.lastOrd, s.seqT + 1) })

/-- Bit address of an element (R271). -/
def Record.bitAddr (r : Record) (i0 i1 i2 i3 : Nat) : Int :=
  8 * (r.base : Int) + i0 * r.s0 * r.fmt.size + 8 * (i1 * r.s1 + i2 * r.s2 + i3 * r.s3)

/-- Virtual address of the byte that holds an element's first bit, and the bit within it. -/
def Record.elem (r : Record) (i0 i1 i2 i3 : Nat) : Nat × Nat :=
  let b := r.bitAddr i0 i1 i2 i3
  ((b / 8 % (2 ^ 64 : Nat)).toNat, (b % 8).toNat)

/-- Bytes that an element touches. -/
def Record.elemBytes (r : Record) (bit : Nat) : Nat := (bit + r.fmt.size + 7) / 8

/-- Virtual address of the scale byte of an element (R271). -/
def Record.scale (r : Record) (i0 i1 i2 i3 : Nat) : Nat :=
  r.sbase + i0 / 32 + (r.e0 + 31) / 32 * (i1 + r.e1 * (i2 + r.e2 * i3))

/-- The gang window (R259). -/
def inGangWindow (va : Nat) : Bool := decide (0x1FFFFFFC0000000 ≤ va) && decide (va ≤ 0x1FFFFFFFFFFFFFF)

/-- What a byte of a tensor transfer is refused with: outside the lease or lacking a right (OUTLEASE, with the
address), or a class that disagrees with the record (R272). -/
inductive Touch where
  | ok (phys : Nat) (p : Page)
  | outlease (va : Nat)
  | badClass
  | local_
  deriving DecidableEq, Repr

/-- One byte of a transfer through a record (R272). -/
def State.touchVa (s : State) (sl : SlotId) (g : Agent) (cls va : Nat) (write : Bool) : Touch :=
  match (s.slot sl).task, s.kernelOf sl with
  | some t, some k =>
    match k.page? va with
    | none => .outlease va
    | some p =>
      let rights := k.rangeRights p
      if !t.mayUse p.range || (write && !grantsW rights) || (!write && !grantsR rights) then .outlease va
      else if p.cls != cls then .badClass
      else .ok (s.backing g p.frame p.size p.shadow (va - p.va)) p
  | _, _ => .outlease va

/-- Whether the declared range that holds a record's base has the record's shadow attribute (R272); a revoked range is still
one that the launch declared. DEDUCED: where no declared range holds the base, the record has to have SHADOW = 0 (log entry
105). -/
def State.shadowAgrees (s : State) (sl : SlotId) (r : Record) : Bool :=
  match s.kernelOf sl with
  | some k => match k.ranges.find? (fun x => decide (x.base ≤ r.base) && decide (r.base < x.base + x.len)) with
      | some x => x.shadow == r.shadow
      | none => !r.shadow
  | none => false

/-- The pages of the buffer that a record's base lies in: every page of its declared shadow range (R276). -/
def State.bufferPages (s : State) (sl : SlotId) (r : Record) : List Page :=
  match s.kernelOf sl with
  | some k => match k.page? r.base with
      | some p => k.pages.filter (fun q => q.range == p.range && q.sh)
      | none => []
  | none => []

/-- Whether an address lies in the shadow backing of a page of one of these leaves. -/
def State.inShadow (s : State) (leaves : List Nat) (a : Nat) : Bool :=
  s.kernels.any (fun (k : Nat × Kernel) => k.2.pages.any (fun p =>
    let b := p.frame + (1 - (Memory.read s.mem p.leaf).toNat / 64 % 2) * p.size
    p.sh && leaves.contains p.leaf && decide (b ≤ a) && decide (a < b + p.size)))

/-- A publish (R121, R204, R276, R295): SEL of every page of the buffer inverts in one step, as one place in T; the shadow
writes of the commands that have completed are visible with it. -/
def State.publish (s : State) (sl : SlotId) (scope : Nat) (leaves : List Nat) : State :=
  let done (c : Nat) : Bool := match mfind s.vis c with | some v => v.done.isSome | none => true
  let h := s.hist.map (fun (r : Rec) =>
    if (match r.cmd with | some c => done c | none => false) && s.inShadow leaves r.addr then { r with pubs := s.seqT :: r.pubs }
    else r)
  let s1 := leaves.foldl (fun s a =>
    { s with
      hist := histOf s.mem s.seqT (.core sl) none false a [0] ++ s.hist
      mem := Memory.write s.mem a (Memory.read s.mem a ^^^ 0x40#8) }) { s with hist := h }
  { s1 with
    seqT := s1.seqT + 1
    pubs := { leaves := leaves, by_ := s.fenceHere scope sl, at_ := s.now, agents := [], fences := [] } :: s1.pubs }

end Sys2Proof.Machine
end

