-- ==== Sys2Proof/Machine/Operands.lean ====
section
/-!
DEFINITION. The operand forms of the vector and distribution engines: lines of matrix registers, streams, lane masks,
scratchpad accesses of an engine, binding and freeing of matrix registers (spec/05 R142 to R146, R160, R162; spec/07
R200, R201; spec/09 R239, R244).
-/

namespace Sys2Proof.Machine

/-! ## Matrix registers -/

/-- The element that lane l of line i names in a direction (R142). -/
def lineEl (dir i l : Nat) : Nat :=
  match dir with
  | 0 => 32 * i + l
  | 1 => 32 * l + i
  | _ => 32 * l + (l + i) % 32

/-- The register part of a vector operand (R46). -/
def opReg (o : Nat) : Nat := o % 16

/-- The direction part of a vector operand (R46). -/
def opDir (o : Nat) : Nat := o / 16 % 4

/-- Whether an operand is a stream (R46). -/
def isStream (o : Nat) : Bool := opDir o == 3

/-- An element of a matrix register; an unbound register reads zero (R142). -/
def Regs.el (r : Regs) (m e : Nat) : W32 := if r.mbound.contains m then mget r.m (1024 * m + e) 0 else 0

/-- Whether an element carries poison or fails its parity (R323, R324). -/
def Regs.elBad (r : Regs) (m e : Nat) : Bool :=
  r.mbound.contains m && (r.mpoison.contains (1024 * m + e) || r.modd.contains (1024 * m + e))

/-- Frees a matrix register (R47, R162): it reads zero until it is written. -/
def Regs.freeM (r : Regs) (m : Nat) : Regs :=
  { r with
    m := r.m.filter (fun x => x.1 / 1024 != m)
    mbound := r.mbound.filter (fun x => x != m)
    mpoison := r.mpoison.filter (fun x => x / 1024 != m)
    modd := r.modd.filter (fun x => x / 1024 != m) }

/-- Writes elements of a matrix register, binding it (R142): what an unbound one held is gone. -/
def Regs.writeEls (r : Regs) (m : Nat) (xs : List (Nat × W32)) : Regs :=
  let q := if r.mbound.contains m then r else r.freeM m
  { q with
    mbound := if q.mbound.contains m then q.mbound else m :: q.mbound
    m := xs.foldl (fun t x => mset t (1024 * m + x.1) x.2) q.m
    mpoison := q.mpoison.filter (fun k => !xs.any (fun x => 1024 * m + x.1 == k))
    modd := q.modd.filter (fun k => !xs.any (fun x => 1024 * m + x.1 == k)) }

/-- Address of a matrix-register element in its slot's own view (R325). -/
def elAddr (m e : Nat) : Nat := 0x500000 + m * 0x1000 + 4 * e

/-- Matrix registers that a slot has reserved (R238). -/
def State.reserved (s : State) (sl : SlotId) : Nat := (((s.slot sl).task).map (·.reqm)).getD 0

/-- Uses an architectural register (R239): a physical register holds it, most recently used first; where none is free a
victim goes to the backing store, and beyond its 64 places to the spill area. keep names registers of the entry in
progress. -/
def Tile.usePhys (t : Tile) (reserved : Nat → Nat) (k : Nat × Nat) (keep : List (Nat × Nat)) : Tile :=
  let rest := t.phys.filter (fun x => decide (x ≠ k))
  if rest.length < 64 then
    { t with phys := k :: rest, backing := t.backing.filter (fun x => decide (x ≠ k)) }
  else
    let old := rest.reverse.filter (fun x => !keep.contains x)
    let held (n : Nat) := (rest.filter (fun x => x.1 == n)).length
    let v := match old.find? (fun x => decide (reserved x.1 < held x.1)) with
      | some v => some v
      | none => old.find? (fun x => x.1 == k.1)
    match v with
    | some v => { t with
        phys := k :: rest.filter (fun x => decide (x ≠ v))
        backing := v :: t.backing.filter (fun x => decide (x ≠ k)) }
    | none => { t with phys := k :: rest }

/-- Uses matrix registers of a slot in order. -/
def State.useRegs (s : State) (sl : SlotId) (ms : List Nat) : State :=
  let keep := (ms.filter (fun m => (s.slot sl).regs.mbound.contains m)).map (fun m => (sl.slot, m))
  s.modTile sl.tileId (fun t => keep.foldl (fun t k =>
    t.usePhys (fun n => s.reserved { sl with slot := n }) k keep) t)

/-- Frees a matrix register of a slot with its physical register or spilled copy (R162, R239). -/
def State.freeReg (s : State) (sl : SlotId) (m : Nat) : State :=
  (s.modRegs sl (fun r => r.freeM m)).modTile sl.tileId (fun t =>
    { t with phys := t.phys.filter (fun x => decide (x ≠ (sl.slot, m)))
             backing := t.backing.filter (fun x => decide (x ≠ (sl.slot, m))) })

/-- Writes elements of a matrix register of a slot. -/
def State.writeM (s : State) (sl : SlotId) (m : Nat) (xs : List (Nat × W32)) : State :=
  (s.modRegs sl (fun r => r.writeEls m xs)).useRegs sl [m]

/-- Fires an injection that waits for a read of one of these elements of a register (R335). -/
def State.injectM (s : State) (sl : SlotId) (m : Nat) (els : List Nat) : State :=
  let c := (s.slot sl).csr
  if c.armed 2 2 && field c.errinj 32 4 == m && els.contains (field c.errinj 36 10) then s.inject sl else s

/-! ## Masks and index registers -/

/-- The top of the mask stack, or all ones (R144). -/
def Regs.maskTop (r : Regs) : W32 := r.mask.headD 0xFFFFFFFF#32

/-- The lane mask: guard predicate and mask top (R144). -/
def Slot.laneMask (v : Slot) : Nat := (v.readP v.regs.g &&& v.regs.maskTop).toNat

/-- The current value of an index register (R142). -/
def Slot.xval (v : Slot) (e : Engine) (n : Nat) : Nat := (mget (v.seq e).x n {}).val

/-! ## Streams -/

/-- Number of positions of a pattern (R200). -/
def Stream.count (t : Stream) : Nat := t.ext.foldl (· * ·) 1

/-- Offset of a position of a pattern in 4-byte elements (R200): dimension 0 fastest. -/
def patternOffset : List Nat → List Int → Nat → Int
  | e :: es, d :: ds, p => ((p % e : Nat) : Int) * d + patternOffset es ds (p / e)
  | _, _, _ => 0

/-- Local address of a position (R200). -/
def Stream.addr (t : Stream) (p : Nat) : Nat := ((t.base : Int) + 4 * patternOffset t.ext t.str p).toNat

/-- Whether n elements are more than a stream buffers: at least 256 (R201; log entry 25). -/
def overDepth (n : Nat) : Bool := decide (256 < n) && decide (256 + Config.streamExtra < n)

/-- What the streams of a word allow (R143, R166, R244). -/
inductive Gate where
  | ok
  | stall
  | fault (sub q : Nat)
  deriving DecidableEq, Repr

/-- The word of an entry at queue position i is an XBIND of stream q split before a stamp and not yet executed. -/
def Sequencer.bindsStream (x : Sequencer) (q stamp : Nat) : Bool :=
  x.q.zipIdx.any (fun e => decide (x.pos ≤ e.2) && (match e.1.kind with | .word => true | _ => false)
    && e.1.word / 0x400000 == 0x185 && e.1.cap2.toNat % 16 == q && decide (0 < e.1.stamp) && decide (e.1.stamp < stamp))

/-- One stream operand: unbound, of the wrong direction, past the pattern, or still waiting. skip counts positions that
the word takes from the stream before this use. -/
def Slot.gateOne (v : Slot) (stamp : Nat) (write : Bool) (q skip : Nat) : Gate :=
  if (v.seq .x).bindsStream q stamp then .stall
  else match mfind v.regs.streams q with
    | none => .fault 1 q
    | some t =>
      if t.write != write then .fault 2 q
      else if t.count < t.next + skip + 32 then .fault 3 q
      else if write then (if overDepth (t.out.length + 32) then .stall else .ok)
      else if t.filled.length < skip + 32 then .stall else .ok

/-- Uses of stream q among operands. -/
def uses (q : Nat) (os : List Nat) : Nat := (os.filter (fun o => isStream o && opReg o == q)).length

/-- The source operands in reading order, after those already counted. -/
def Slot.gateSrc (v : Slot) (stamp : Nat) : List Nat → List Nat → Gate
  | _, [] => .ok
  | seen, o :: os =>
    if isStream o then
      match v.gateOne stamp false (opReg o) (32 * uses (opReg o) seen) with
      | .ok => v.gateSrc stamp (o :: seen) os
      | .stall => (match v.gateSrc stamp (o :: seen) os with | .fault a b => .fault a b | _ => .stall)
      | g => g
    else v.gateSrc stamp seen os

/-- Whether a word may begin (R143): its sources, then its destination. -/
def Slot.gate (v : Slot) (stamp : Nat) (srcs : List Nat) (dst : Option Nat) : Gate :=
  match v.gateSrc stamp [] srcs with
  | .fault a b => .fault a b
  | g =>
    match dst with
    | none => g
    | some o =>
      if isStream o then
        match v.gateOne stamp true (opReg o) 0 with
        | .ok => g
        | h => h
      else g

/-- The 32 elements of a source operand: value, and the local address where it carries poison (R142, R143, R325). -/
def Slot.readLine (v : Slot) (xv skip o : Nat) : List (Nat × Option Nat) :=
  let r := opReg o
  if isStream o then
    match mfind v.regs.streams r with
    | none => []
    | some t => ((t.filled.drop skip).take 32).zipIdx.map (fun e =>
        (e.1.1.toNat, if e.1.2 then some (t.addr (t.next + skip + e.2)) else none))
  else
    (List.range 32).map (fun l =>
      let e := lineEl (opDir o) (xv % 32) l
      ((v.regs.el r e).toNat, if v.regs.elBad r e then some (elAddr r e) else none))

/-- The source operands of a word in reading order (R143, R145). -/
def Slot.readLines (v : Slot) (xv : Nat) : List Nat → List Nat → List (List (Nat × Option Nat))
  | _, [] => []
  | seen, o :: os => v.readLine xv (32 * uses (opReg o) seen) o :: v.readLines xv (o :: seen) os

/-- The first poisoned element of a word's operands. -/
def firstBad (ls : List (List (Nat × Option Nat))) : Option Nat := ls.flatten.findSome? (·.2)

/-- A read use of a stream advances it by 32 positions (R143). -/
def Stream.take32 (t : Stream) : Stream := { t with next := t.next + 32, filled := t.filled.drop 32 }

/-- Advances every source stream of a word. -/
def State.takeStreams (s : State) (sl : SlotId) (srcs : List Nat) : State :=
  srcs.foldl (fun s o =>
    if isStream o then s.modRegs sl (fun r =>
      match mfind r.streams (opReg o) with
      | some t => { r with streams := mset r.streams (opReg o) t.take32 }
      | none => r)
    else s) s

/-- Writes the result lanes to a destination operand (R142 to R145); a lane with no value is not written, but its
stream position is passed. -/
def State.writeLine (s : State) (sl : SlotId) (xv o : Nat) (res : List (Option Nat)) : State :=
  let r := opReg o
  let xs := res.zipIdx.filterMap (fun e => e.1.map (fun v => (e.2, BitVec.ofNat 32 v)))
  if isStream o then
    s.modRegs sl (fun g =>
      match mfind g.streams r with
      | some t => { g with streams := mset g.streams r { t with
          next := t.next + 32, out := t.out ++ xs.map (fun x => (t.next + x.1, x.2)) } }
      | none => g)
  else s.writeM sl r (xs.map (fun x => (lineEl (opDir o) (xv % 32) x.1, x.2)))

/-- Matrix registers among operands. -/
def regsOf (os : List Nat) : List Nat := (os.filter (fun o => !isStream o)).map opReg

/-- Injections armed on elements that a word reads. -/
def State.injectLines (s : State) (sl : SlotId) (xv : Nat) (os : List Nat) : State :=
  os.foldl (fun s o => if isStream o then s
    else s.injectM sl (opReg o) ((List.range 32).map (lineEl (opDir o) (xv % 32)))) s

/-! ## Running a lane word -/

/-- What a lane word works on: index value, lane mask, operands va, vb and vd in reading order. -/
structure Lanes where
  xv : Nat
  mask : Nat
  ops : List (List Nat)
  deriving Repr

/-- Lane l of operand k. -/
def Lanes.at (v : Lanes) (k l : Nat) : Nat := (v.ops.getD k []).getD l 0

/-- Applies a lane operation to the admitted lanes (R144, R145): values and flags. -/
def Lanes.map (v : Lanes) (f : Nat → Nat × Nat) : List (Option Nat) × Nat :=
  let rs := (List.range 32).map (fun l => if bitOf v.mask l then some (f l) else none)
  (rs.map (Option.map (·.1)), rs.foldl (fun a r => a ||| (r.map (·.2)).getD 0) 0)

/-- An FMTERR of the vector or distribution engine (R166, R233): sub-code and stream. -/
def fmtStream (sub q code : Nat) : Trap :=
  { cause := 0x0B, val := code + q * 2 ^ 16 + sub * 2 ^ 32, sub := sub, tid := q }

/-- Completes a vector or distribution word (R31): its flags enter FPCSR; a flag whose trap is enabled halts the queue
after the word. -/
def State.finishLanes (s : State) (e : Engine) (fl : Nat) : Out :=
  let s1 := s.raise s.cur.slot fl
  if (s1.slot s.cur.slot).csr.fpe fl then
    .next (s1.engineTrap s.cur.slot e { cause := 0x12, val := e.code + fl * 256 } true)
  else doneOut s1

/-- Runs a lane word (R145): the streams decide whether it begins; operands are read, and poison among them consumed;
the operation gives a state, result lanes and flags; va is freed where lu says so; the result is written; the flags
enter FPCSR. -/
def laneWord (s : State) (e : Engine) (srcs : List Nat) (dst : Option Nat) (x : Nat) (free : Option Nat)
    (op : State → Lanes → State × List (Option Nat) × Nat) : Out :=
  let sl := s.cur.slot
  match (s.slot sl).gate s.cur.entry.stamp srcs dst with
  | .stall => stallOut s
  | .fault sub q => .next (s.engineTrap sl e (fmtStream sub q e.code))
  | .ok =>
    let xv := (s.slot sl).xval e x
    let s0 := s.injectLines sl xv srcs
    let ls := (s0.slot sl).readLines xv [] srcs
    let go (s1 : State) : Out :=
      let v : Lanes := ⟨xv, (s1.slot sl).laneMask, ls.map (fun o => o.map (·.1))⟩
      let s2 := (s1.takeStreams sl srcs).useRegs sl (regsOf srcs)
      let r := op s2 v
      let s3 := match free with | some m => r.1.freeReg sl m | none => r.1
      let s4 := match dst with | some o => s3.writeLine sl xv o r.2.1 | none => s3
      s4.finishLanes e r.2.2
    match firstBad ls with
    | some a => s0.consumeEngine e (poisonVal a false true e.code) go
    | none => go s0

/-- The register that lu frees (R47): the M register of va. -/
def freed (l a : Nat) : Option Nat := if l == 1 then some (opReg a) else none

/-! ## Scratchpad accesses of an engine -/

/-- n bytes of a slot's scratchpad as an ordinary access of an engine reads them, with errors found (R160, R323): state,
value, and whether the segment carries poison. -/
def State.readLocal (s : State) (sl : SlotId) (g : Agent) (code a n : Nat) : State × Nat × Bool :=
  let s0 := s.injectLocal sl a n
  let p := s0.localPhys sl a
  let s1 := s0.settle sl code p n
  (s1, s1.readNum g p n, s1.poisonedIn p n)

/-- Reads of several 4-byte elements in lane order; an absent lane gives none. -/
def State.readLanes (s : State) (sl : SlotId) (g : Agent) (code : Nat) :
    List (Option Nat) → State × List (Option (Nat × Bool))
  | [] => (s, [])
  | none :: as =>
    let r := s.readLanes sl g code as
    (r.1, none :: r.2)
  | some a :: as =>
    let x := s.readLocal sl g code a 4
    let r := x.1.readLanes sl g code as
    (r.1, some (x.2.1, x.2.2) :: r.2)

/-- Stores of several 4-byte elements in lane order (R161). -/
def State.storeLanes (s : State) (sl : SlotId) (g : Agent) : List (Nat × Nat) → State
  | [] => s
  | (a, v) :: xs => (s.store g none (s.localPhys sl a) (toBytes 4 v)).storeLanes sl g xs

/-- The addresses of the admitted lanes (R159): bits [1:0] ignored. -/
def laneAddrs (mask : Nat) (f : Nat → Nat) : List (Option Nat) :=
  (List.range 32).map (fun l => if bitOf mask l then some (f l % 2 ^ 64 / 4 * 4) else none)

/-- The lowest-lane address outside the held regions (R160). -/
def State.badLane (s : State) (sl : SlotId) (as : List (Option Nat)) : Option Nat :=
  as.findSome? (fun a => match a with | some x => if s.spanHeld sl x 4 then none else some x | none => none)

/-- Whether every admitted lane's region is resident (R160, R320). -/
def State.lanesResident (s : State) (sl : SlotId) (as : List (Option Nat)) : Bool :=
  as.all (fun a => match a with | some x => s.resident sl x 4 | none => true)

/-- Notes the stall on the regions that are not resident. -/
def State.wantLanes (s : State) (sl : SlotId) (as : List (Option Nat)) : State :=
  as.foldl (fun s a => match a with
    | some x => if s.resident sl x 4 then s else s.wantSpan sl x 4
    | none => s) s

/-- The first poisoned lane. -/
def badRead (as : List (Option Nat)) (vs : List (Option (Nat × Bool))) : Option Nat :=
  (as.zip vs).findSome? (fun e => match e with
    | (some a, some (_, true)) => some a
    | _ => none)

/-- Fills one element of a read-stream (R201): it is read now, at a moment that R294 allows. -/
def State.fillStream (s : State) (sl : SlotId) (q : Nat) : State :=
  match mfind (s.slot sl).regs.streams q with
  | none => s
  | some t =>
    let p := t.next + t.filled.length
    if t.write || decide (t.count ≤ p) || overDepth (t.filled.length + 1) then s
    else
      let a := t.addr p
      if !s.spanHeld sl a 4 then
        s.takeTrap sl { cause := 0x04, val := a, engine := 1, addr := a } (s.slot sl).pc
      else if !s.resident sl a 4 then s.wantSpan sl a 4
      else
        let s0 := s.injectLocal sl a 4
        let ph := s0.localPhys sl a
        let s1 := s0.settle sl 1 ph 4
        let v := s1.viewNum (.eng sl .v) t.view t.own (Config.pick s1.fresh a) ph 4
        let bad := s1.poisonedIn ph 4
        { s1 with fresh := s1.fresh + 1 }.modRegs sl (fun r =>
          { r with streams := mset r.streams q { t with filled := t.filled ++ [(BitVec.ofNat 32 v, bad)] } })

/-- Drains one element of a write-stream (R201): a scratchpad store; sixteen drains that rewrite a whole segment clear
its mark (R324). -/
def State.drainStream (s : State) (sl : SlotId) (q : Nat) : State :=
  match mfind (s.slot sl).regs.streams q with
  | none => s
  | some t =>
    match t.out with
    | [] => s
    | (p, v) :: rest =>
      let a := t.addr p
      if !s.spanHeld sl a 4 then
        s.takeTrap sl { cause := 0x04, val := a, engine := 1, addr := a } (s.slot sl).pc
      else if !s.resident sl a 4 then s.wantSpan sl a 4
      else
        let s1 := s.store (.eng sl .v) none (s.localPhys sl a) (toBytes 4 v.toNat)
        let rec16 := (a :: t.recent).take 16
        let seg := a / 64 * 64
        let whole := (List.range 16).all (fun i => rec16.contains (seg + 4 * i))
        let s2 := if whole then s1.clearPoison (s1.localPhys sl seg) 64 else s1
        s2.modRegs sl (fun r => { r with streams := mset r.streams q { t with out := rest, recent := rec16 } })

/-- Whether every write-stream of a slot has drained (R164). -/
def Slot.drained (v : Slot) : Bool := v.regs.streams.all (fun t => t.2.out.isEmpty)

/-! ## Event flags -/

/-- Sets an event flag (R164). -/
def State.setF (s : State) (sl : SlotId) (f v : Nat) : State := s.modRegs sl (fun r => { r with f := mset r.f f v })

/-- ESET in a queue whose earlier entries have completed (R164, R183, R207, R232). -/
def esetWord (f : Nat) (ready : Bool) (s : State) : Out :=
  if ready then doneOut (s.setF s.cur.slot f 1) else stallOut s

/-- EWAIT (R164): waits for the flag, clears it; what the flag ordered is ordered for this engine (R241, R294). -/
def ewaitWord (e : Engine) (f : Nat) (s : State) : Out :=
  if mget (s.slot s.cur.slot).regs.f f 0 == 1 then
    doneOut ((s.setF s.cur.slot f 0).modSeq s.cur.slot e (fun q => { q with own := s.seqT }))
  else stallOut s

end Sys2Proof.Machine
end

