-- ==== Sys2Proof/Machine/Commands.lean ====
section
/-!
DEFINITION. Commands in flight: issue, the performing of element writes, barrier objects and completion (spec/07 R192,
R193, R203; spec/04 R113, R114; spec/10 R260, R275 to R277; spec/11 R292).
-/

namespace Sys2Proof.Machine

/-! STAT bits (R114). -/

/-- POIS. -/
def stPOIS : Nat := 1
/-- FAIL. -/
def stFAIL : Nat := 2
/-- CKUC. -/
def stCKUC : Nat := 4
/-- CKCOR. -/
def stCKCOR : Nat := 8
/-- FMT. -/
def stFMT : Nat := 16
/-- CLASS. -/
def stCLASS : Nat := 32
/-- BANK. -/
def stBANK : Nat := 64
/-- PEER. -/
def stPEER : Nat := 128

/-- The update of a barrier object when an attached operation completes (R114), as one place in T. ids are the commands
whose completion it shows (R293). -/
def State.barrierUpdate (s : State) (sl : SlotId) (a bits : Nat) (ids : List Nat) : State :=
  let p := s.localPhys sl a
  let s := s.injectLocal sl a 16
  let rd (o : Nat) := ofBytes ((List.range 4).map (fun i => Memory.read s.mem (p + o + i)))
  let pend := rd 4
  let flip := decide (pend ≤ 1)
  let img := toBytes 4 (if flip then (rd 0 ^^^ 1) else rd 0)
    ++ toBytes 4 (if flip then rd 12 else pend - 1)
    ++ toBytes 4 (rd 8 ||| bits)
  let s1 := s.store (.eng sl .x) none p img
  s1.modSlot sl (fun v =>
    let all := ids ++ mget v.barCmds a []
    if flip then { v with barCmds := mdel v.barCmds a, barFlip := mset v.barFlip a (ids, all) }
    else { v with barCmds := mset v.barCmds a all })

/-- A user-level event (R193, R245, R246): X or B completion. With delivery disabled it sets EVLATCH too. -/
def State.userEvent (s : State) (sl : SlotId) (bank : Bool) : State :=
  s.modCsr sl (fun c =>
    let n := if bank then c.bdone else c.xdone
    { c with
      xdone := if bank then c.xdone else min 255 (c.xdone + 1)
      bdone := if bank then min 255 (c.bdone + 1) else c.bdone
      ovf := c.ovf || decide (255 ≤ n)
      evlatch := c.evlatch || !c.en })

/-- The oldest record of an issuer on its way to a slot's flags arrives there (R340). -/
def Slot.arrive (v : Slot) : Slot :=
  match v.arriving with
  | [] => v
  | (f, i, _) :: rest => { v with issuer := mset v.issuer f i, arriving := rest }

/-- The records that a slot's flags had to have by now, or every one of a flag (R340). -/
def Slot.arriveBy (v : Slot) (due : Nat × Nat × Nat → Bool) : Slot :=
  { v with
    issuer := (v.arriving.filter due).foldl (fun m x => mset m x.1 x.2.1) v.issuer
    arriving := v.arriving.filter (fun x => !due x) }

/-- Sets a ready flag at a completion (R113, R193): READY, which sets EVLATCH too (R141), or FAIL. The records of issuers on
their way to it are there by then (R340). -/
def State.setReady (s : State) (sl : SlotId) (f id : Nat) (ok : Bool) : State :=
  s.modSlot sl (fun w =>
    let v := w.arriveBy (fun x => x.1 == f)
    { v with
    ready := mmod v.ready f 0 (fun b => if ok then b ||| 1 else b ||| 2)
    flagCmds := mmod v.flagCmds f [] (fun l => id :: l)
    csr := { v.csr with evlatch := v.csr.evlatch || ok } })

/-- The open loops of an engine: bundle, run and completed iterations (R242). -/
def Sequencer.place (q : Sequencer) : List (Nat × Nat × Nat) := q.loops.map (fun l => (l.bundle, l.run, l.iters))

/-- Issues a command (R192): it is in flight from now on. -/
def State.issue (s : State) (c : Cmd) : State :=
  let id := s.nextCmd
  { s with
    nextCmd := id + 1
    cmds := s.cmds ++ [{ c with
      id := id
      started := s.now
      iters := ((s.slot c.slot).seq c.engine).place }]
    vis := mset s.vis id { slot := c.slot, matrix := c.matrix, done := none, place := 0, seenAt := none, fences := [] } }

/-- A command in flight. -/
def State.cmd? (s : State) (id : Nat) : Option Cmd := s.cmds.find? (fun c => c.id == id)

/-- Changes a command in flight. -/
def State.modCmd (s : State) (id : Nat) (f : Cmd → Cmd) : State :=
  { s with cmds := s.cmds.map (fun c => if c.id == id then f c else c) }

/-- Where the first byte of an element write goes. -/
def Move.dest (m : Move) : Dest := { addr := m.addr, leaf := m.leaf, half := m.half, visible := m.visible, member := m.member }

/-- Physical address of a destination (R275, R277): of a shadow page, in its shadow or its visible backing at this
moment. -/
def State.destAddr (s : State) (d : Dest) : Nat :=
  let sel := (Memory.read s.mem (d.leaf - 1)).toNat / 64 % 2
  d.addr + (if d.leaf == 0 then 0 else (if d.visible then sel else 1 - sel) * d.half)

/-- Physical address where an element write performs. -/
def State.moveAddr (s : State) (m : Move) : Nat := s.destAddr m.dest

/-- The runs of bytes that an element write goes to: destination and length. -/
def Move.runs (m : Move) : List (Dest × Nat) :=
  match m.rest with
  | none => [(m.dest, m.bytes.length)]
  | some d => [(m.dest, 1), (d, m.bytes.length - 1)]

/-- Bits that an element write writes. -/
def Move.size (m : Move) : Nat := if m.width == 0 then 8 * m.bytes.length else m.width

/-- y op v of XRED in a format (R203): the new pattern and its flags. -/
def redValue (fmt op rm r y v : Nat) : Nat × Nat :=
  match formatOf fmt with
  | some (.flt F) =>
    let a := decodeFl F y
    let b := decodeFl F v
    (match op with
     | 0 => (addFl rm a b).round F rm false r
     | 1 => (minMaxFl true a b).round F 0 false 0
     | _ => (minMaxFl false a b).round F 0 false 0)
  | some (.int n sg) =>
    let a : Int := if sg then toSigned n y else (y : Int)
    let b : Int := if sg then toSigned n v else (v : Int)
    (match op with
     | 0 => (wrapTo n (a + b), 0)
     | 1 => (wrapTo n (max a b), 0)
     | _ => (wrapTo n (min a b), 0))
  | _ => (v, 0)

/-- The agent whose write a command's element write is: an in-bank unit's is an ordinary place in T (R296). -/
def Cmd.agent (c : Cmd) : Agent := if c.engine == .b then .bank else .eng c.slot c.engine

/-- The command whose asynchronous write it is. -/
def Cmd.async (c : Cmd) : Option Nat := if c.engine == .b then none else some c.id

/-- Bits of a matrix register from a bit position on. -/
def Regs.bits (r : Regs) (m pos w : Nat) : Nat :=
  ((r.el m (pos / 32)).toNat + (r.el m (pos / 32 + 1)).toNat * 2 ^ 32) / 2 ^ (pos % 32) % 2 ^ w

/-- The elements of a matrix register after bits from a position on are replaced. -/
def Regs.withBits (r : Regs) (m pos w v : Nat) : List (Nat × W32) :=
  let e := pos / 32
  let x := setField ((r.el m e).toNat + (r.el m (e + 1)).toNat * 2 ^ 32) (pos % 32) w v
  (e, BitVec.ofNat 32 x) :: (if pos % 32 + w ≤ 32 then [] else [(e + 1, BitVec.ofNat 32 (x / 2 ^ 32))])

/-- Whether a slot is the command's own or that of a member of its gang that has not retired (R260). -/
def State.reaches (s : State) (c : Cmd) (m : SlotId) : Bool :=
  decide (m = c.slot) || s.sameGang m c.slot

/-- What becomes of an element write that is due: it performs, waits for a spilled region (R320), or is lost because the
member holds the place no more (R260). -/
inductive Reach where
  | go | wait | lost
  deriving DecidableEq, Repr

/-- What becomes of an element write to memory. -/
def State.reachMove (s : State) (c : Cmd) (m : Move) : Reach :=
  let lost (r : Dest × Nat) : Bool := match r.1.member with
    | none => false
    | some (t, a) => !s.reaches c t || !s.spanHeld t a r.2
  let away (r : Dest × Nat) : Bool := match r.1.member with
    | none => false
    | some (t, a) => !s.resident t a r.2
  if m.runs.any lost then .lost else if m.runs.any away then .wait else .go

/-- Whether an element write to a register still reaches it: the member has not retired, and a tile is not in the other
mode (R260). -/
def State.reachReg (s : State) (c : Cmd) (m : RegMove) : Bool :=
  s.reaches c m.slot && (!m.acc || (match mfind (s.slot m.slot).regs.a m.reg with
    | some t => t.mode == 0 || t.mode == m.mode
    | none => true))

/-- An element write that is lost: nothing is written, and the command fails (R260). -/
def State.loseWrite (s : State) (c : Cmd) : State := s.modCmd c.id (fun c => { c with stat := c.stat ||| stFAIL })

/-- Performs one element write to memory (R292): it is indivisible and takes its place in T, with its poison (R197). An
update of a poisoned word leaves its segment poisoned (R324). -/
def State.writeMove (s : State) (c : Cmd) (m : Move) : State :=
  let rs := m.runs.map (fun r => (s.destAddr r.1, r.2))
  let old := ofBytes (rs.flatMap (fun r => (List.range r.2).map (fun i => Memory.read s.mem (r.1 + i))))
  let n := m.bytes.length
  let r := match m.op with
    | none => (if m.width == 0 then m.bytes else toBytes n (setField old m.bit m.width (ofBytes m.bytes)), 0)
    | some op =>
      let y := redValue m.fmt op m.rm m.draw old (ofBytes m.bytes)
      (toBytes n y.1, y.2)
  let k := (rs.head?.map (·.2)).getD 0
  let s1 := (rs.zip [r.1.take k, r.1.drop k]).foldl (fun t x => { t.store c.agent c.async x.1.1 x.2 with seqT := s.seqT }) s
  let s2 := { s1 with seqT := s.seqT + 1 }
  let s3 := if m.poison then rs.foldl (fun t x => t.setPoison x.1 x.2) s2 else s2
  let stays := m.poison || (m.op.isSome && rs.any (fun x => s.poisonedIn x.1 x.2))
  s3.modCmd c.id (fun c => { c with
    fl := c.fl ||| r.2
    wrote := rs ++ c.wrote
    bits := c.bits + m.size
    marked := if stays then rs.flatMap (fun x => [x.1 / 64, (x.1 + x.2 - 1) / 64]) ++ c.marked else c.marked })

/-- An element write to memory that is due. -/
def State.doMove (s : State) (c : Cmd) (m : Move) : State :=
  if s.reachMove c m == .lost then s.loseWrite c else s.writeMove c m

/-- Performs one element write to an accumulator or matrix register (R260): the tile takes the image's mode, its CKV
goes and its window is replayable no more. -/
def State.writeRegMove (s : State) (c : Cmd) (m : RegMove) : State :=
  if m.acc then
    s.modRegs m.slot (fun r => { r with a := mmod r.a m.reg {} (fun t =>
      let old := (mget t.el m.el 0).toNat
      let v := match m.op with
        | none => m.val % 2 ^ 40
        | some op => (redValue m.fmt op m.rm m.draw old (m.val % 2 ^ 40)).1
      { t with
        el := mset t.el m.el (BitVec.ofNat 40 v)
        mode := if t.mode == 0 then m.mode else t.mode
        ckv := false
        replayable := false
        poison := (if m.poison || (m.op.isSome && t.poison.contains m.el) then [m.el] else []) ++ t.poison.filter (· != m.el)
        odd := if m.op.isSome then t.odd else t.odd.filter (· != m.el) }) })
  else
    let old := (s.slot m.slot).regs.bits m.reg m.el m.width
    let v := match m.op with
      | none => (m.val, 0)
      | some op => redValue m.fmt op m.rm m.draw old m.val
    let xs := (s.slot m.slot).regs.withBits m.reg m.el m.width v.1
    let stays := m.poison || ((m.op.isSome || m.width % 32 != 0) && xs.any (fun x => (s.slot m.slot).regs.elBad m.reg x.1))
    let s1 := (s.writeM m.slot m.reg xs).modCmd c.id (fun c => { c with fl := c.fl ||| v.2 })
    if stays then
      s1.modRegs m.slot (fun r => { r with mpoison := xs.map (fun x => 1024 * m.reg + x.1) ++ r.mpoison })
    else s1

/-- An element write to a register that is due. -/
def State.doRegMove (s : State) (c : Cmd) (m : RegMove) : State :=
  if s.reachReg c m then (s.writeRegMove c m).modCmd c.id (fun c => { c with bits := c.bits + m.width }) else s.loseWrite c

/-- Whether two element writes touch a common byte. -/
def Move.meets (a b : Move) : Bool :=
  a.runs.any (fun x => b.runs.any (fun y => decide (x.1.addr < y.1.addr + y.2) && decide (y.1.addr < x.1.addr + x.2)
    && x.1.leaf == y.1.leaf))

/-- Whether element write i may perform now: always, except that one that keeps its order waits for earlier ones to the
same bytes (R199). -/
def Cmd.mayPerform (c : Cmd) (i : Nat) (m : Move) : Bool :=
  (c.engine != .b || i == 0) && (!c.ordered || (c.moves.take i).all (fun x => !x.meets m))

/-- Notes that an element write waits for a spilled region. -/
def State.wantMove (s : State) (m : Move) : State :=
  m.runs.foldl (fun s r => match r.1.member with
    | some (t, a) => s.wantSpan t a r.2
    | none => s) s

/-- A unit access of a bank command is the latest in T (R296): the slot's later commands to that bank take places after
it. -/
def State.noteUnit (s : State) (c : Cmd) : State :=
  match c.bank with
  | some b => s.modSlot c.slot (fun v => { v with bankAt := mset v.bankAt b s.seqT })
  | none => s

/-- The memory system performs element write i of command n: the memory writes first, then the register writes. -/
def State.performOne (s : State) (n i : Nat) : State :=
  match s.cmd? n with
  | none => s
  | some c =>
    if !c.executed || !c.remote.isEmpty then s
    else match c.moves[i]? with
    | some m =>
      if !c.mayPerform i m then s
      else if s.reachMove c m == .wait then s.wantMove m
      else ((s.doMove c m).noteUnit c).modCmd n (fun c => { c with moves := c.moves.eraseIdx i })
    | none =>
      match c.regMoves[i - c.moves.length]? with
      | some m => (s.doRegMove c m).modCmd n (fun c => { c with regMoves := c.regMoves.eraseIdx (i - c.moves.length) })
      | none => s

/-- Performs every element write that is left. -/
def State.performAll (s : State) (c : Cmd) : State :=
  let s1 := c.moves.foldl (fun s m => (s.doMove c m).noteUnit c) s
  let s2 := c.regMoves.foldl (fun s m => s.doRegMove c m) s1
  s2.modCmd c.id (fun c => { c with moves := [], regMoves := [] })

/-- Segments of which a command has written every byte. -/
def Cmd.covered (c : Cmd) : List Nat :=
  let segs := (c.wrote.map (fun w => w.1 / 64)).eraseDups
  segs.filter (fun g =>
    (List.range 64).all (fun b => c.wrote.any (fun w => decide (w.1 ≤ 64 * g + b) && decide (64 * g + b < w.1 + w.2))))

/-- Segments that a command has rewritten wholly, and that nothing has poisoned since it began to (R324). -/
def Cmd.rewrote (c : Cmd) : List Nat := c.covered.filter (fun g => !c.marked.contains g)

/-- Writes a reply to a register copy (R57, R193): the register is pending no more. -/
def State.writeReply (s : State) (sl : SlotId) (idx : Nat) (v : Nat) : State :=
  if idx == 0 then s
  else s.modSlot sl (fun x => { x with
    pending := x.pending.filter (· != idx)
    regs := { x.regs with
      s := mset x.regs.s idx (BitVec.ofNat 64 v)
      spoison := x.regs.spoison.filter (· != idx)
      sflip := x.regs.sflip.filter (· != idx) } })

/-- Completion of a command (R193), in its order: every write performed and placed; the reply; the ready flags; the
barrier object; the counter; the user-level interrupt. The model's choices: the flags of an MDRAIN, MEPI or X command enter
FPCSR here, so no read of FPCSR sees those of a command in flight (log entry 31); XSTAT counts a command of a chain block
as a completed X entry beside its XCHAIN, and takes a command's bytes here, not as its writes perform (log entry 23). -/
def State.completeCmd (s : State) (id : Nat) : State :=
  match s.cmd? id with
  | none => s
  | some c0 =>
    let s1 := s.performAll c0
    let c := (s1.cmd? id).getD c0
    let s2 := { s1 with
      poison := s1.poison.filter (fun g => !c.rewrote.contains g)
      flips := s1.flips.map (fun (x : Flip) => if c.covered.contains x.seg then
        { x with bits := x.bits.filter (fun b => b < 512 || 1024 ≤ b) } else x) }
    let seen (v : Vis) : Vis := { v with done := some s.now, place := s2.seqT }
    let s3 := { s2 with vis := mmod s2.vis id ⟨c.slot, c.matrix, none, 0, none, []⟩ seen }
    let s4 := s3.writeReply c.slot c.rd (c.reply.getD c.stat)
    let ok := c.stat &&& (stPOIS ||| stFAIL) == 0
    let s5 := c.flags.foldl (fun s f => if s.reaches c f.1 then s.setReady f.1 f.2 id ok else s) s4
    let s6 := match c.bar with
      | some a => s5.barrierUpdate c.slot a c.stat [id]
      | none => s5
    let s7 := { s6 with cmds := s6.cmds.filter (fun x => x.id != id) }
    let s8 := if c.engine == .x then s7.modSlot c.slot (fun v => { v with
        xdoneCount := v.xdoneCount + 1
        xbytes := v.xbytes + c.bits / 8
        chain := if c.chained then v.chain.map (fun h => { h with stat := h.stat ||| c.stat }) else v.chain }) else s7
    let s9 := if c.fl == 0 then s8 else s8.raise c.slot c.fl
    if c.ui then s9.userEvent c.slot (c.engine == .b) else s9

end Sys2Proof.Machine
end

