-- ==== Sys2Proof/Machine/Matrix.lean ====
section
/-!
DEFINITION. The M words (spec/06, R167 to R186): operand descriptors, accumulator tiles, checksums, the command window,
draining, the fused epilogue, checks, barriers and events.
-/

namespace Sys2Proof.Machine

/-! ## Operand descriptors -/

/-- The fields of an operand descriptor (R167). -/
structure Desc where
  base : Nat
  code : Nat
  esz : Nat
  rsv : Nat
  rows : Nat
  klen : Nat
  stride : Nat
  soff : Nat
  deriving DecidableEq, Repr

/-- Reads a descriptor (R167). -/
def Desc.of (v : Nat) : Desc :=
  { base := field v 0 22
    code := field v 22 6
    esz := field v 28 3
    rsv := field v 31 1
    rows := field v 32 7 + 1
    klen := field v 39 7 + 1
    stride := field v 46 8
    soff := field v 54 10 }

/-- The format that a descriptor names, where code and element size agree. -/
def Desc.fmt? (d : Desc) : Option Format := formatChecked d.code d.esz

/-- Local address of a row (R168). -/
def Desc.row (d : Desc) (r : Nat) : Nat := d.base + 64 * d.stride * r

/-- Local address of the scale area or index row (R167, R173). -/
def Desc.scales (d : Desc) : Nat := d.base + 256 * d.soff

/-- The bytes of elements k0 to k0 + k − 1 of a row of elements of size bits: first and one past the last (R168). -/
def rowSpan (row size k0 k : Nat) : Nat × Nat := (row + k0 * size / 8, row + ((k0 + k) * size + 7) / 8)

/-- The scale bytes of blocks of a row (R168). -/
def scaleSpan (area row k0 k : Nat) : Nat × Nat := (area + 32 * row + k0 / 32, area + 32 * row + (k0 + k + 31) / 32)

/-- Whether spans of local bytes lie in held regions. -/
def State.spansHeld (s : State) (sl : SlotId) (xs : List (Nat × Nat)) : Bool :=
  xs.all (fun x => s.spanHeld sl x.1 (x.2 - x.1))

/-- Whether spans are resident. -/
def State.spansResident (s : State) (sl : SlotId) (xs : List (Nat × Nat)) : Bool :=
  xs.all (fun x => s.resident sl x.1 (x.2 - x.1))

/-- Notes the stall on spans that are not resident. -/
def State.wantSpans (s : State) (sl : SlotId) (xs : List (Nat × Nat)) : State :=
  xs.foldl (fun s x => if s.resident sl x.1 (x.2 - x.1) then s else s.wantSpan sl x.1 (x.2 - x.1)) s

/-- Finds the soft errors in spans that an engine reads, with injections armed there (R323, R335). -/
def State.settleSpans (s : State) (sl : SlotId) (code : Nat) (xs : List (Nat × Nat)) : State :=
  xs.foldl (fun s x => (s.injectLocal sl x.1 (x.2 - x.1)).settle sl code (s.localPhys sl x.1) (x.2 - x.1)) s

/-- The first local address of spans that carries poison. -/
def State.badSpan (s : State) (sl : SlotId) (xs : List (Nat × Nat)) : Option Nat :=
  xs.findSome? (fun x => ((List.range (x.2 - x.1)).map (· + x.1)).find? (fun a => s.poisoned (s.localPhys sl a)))

/-- One element of a local row as the matrix engine reads it: old or new (R184, R294). -/
def State.elemAt (s : State) (sl : SlotId) (op row size e : Nat) (rowNo : Nat) : Nat :=
  let bit := e * size
  let n := (bit % 8 + size + 7) / 8
  let a := row + bit / 8
  let key := Config.pick s.fresh (((a * 8 + bit % 8) * 2 + op) * 256 + rowNo)
  s.viewNum (.eng sl .m) s.cur.entry.view s.cur.entry.own key (s.localPhys sl a) n / 2 ^ (bit % 8) % 2 ^ size

/-- The patterns and scales of a row's elements. area gives the scale bytes, where the word reads them. -/
def State.rowEls (s : State) (sl : SlotId) (op : Nat) (row : Nat) (f : Format) (k0 k rowNo : Nat) (area : Option Nat) :
    List (Nat × Nat) :=
  (List.range k).map (fun i =>
    (s.elemAt sl op row f.size (k0 + i) rowNo,
     match area with
     | some a => s.elemAt sl op (a + 32 * rowNo) 8 ((k0 + i) / 32) rowNo
     | none => 0))

/-! ## Accumulators -/

/-- The accumulator of a slot. -/
def State.acc (s : State) (sl : SlotId) (n : Nat) : Acc := mget (s.slot sl).regs.a n {}

/-- Sets an accumulator. -/
def State.setAcc (s : State) (sl : SlotId) (n : Nat) (t : Acc) : State :=
  s.modRegs sl (fun r => { r with a := mset r.a n t })

/-- Element (i, j). -/
def Acc.at (t : Acc) (i j : Nat) : Nat := (mget t.el (128 * i + j) 0).toNat

/-- Replaces elements; what is written carries no poison. -/
def Acc.put (t : Acc) (xs : List (Nat × Nat)) : Acc :=
  { t with
    el := xs.map (fun x => (x.1, BitVec.ofNat 40 x.2)) ++ t.el.filter (fun y => !xs.any (fun x => x.1 == y.1))
    poison := t.poison.filter (fun p => !xs.any (fun x => x.1 == p))
    odd := t.odd.filter (fun p => !xs.any (fun x => x.1 == p)) }

/-- Address of an accumulator element in its slot's own view (R325). -/
def accAddr (n e : Nat) : Nat := 0x400000 + n * 0x20000 + 8 * e

/-- Fires an injection that waits for a read of these elements of a tile (R335). -/
def State.injectAcc (s : State) (sl : SlotId) (n : Nat) (used : Nat → Bool) : State :=
  let c := (s.slot sl).csr
  let e := 128 * field c.errinj 34 7 + field c.errinj 41 7
  if c.armed 0 2 && field c.errinj 32 2 == n && used e then s.inject sl else s

/-- Whether an element is poisoned or fails its parity (R323, R324). -/
def Acc.elBad (t : Acc) (e : Nat) : Bool := t.poison.contains e || t.odd.contains e

/-- The first poisoned element among those a word uses. -/
def Acc.bad (t : Acc) (n : Nat) (used : Nat → Bool) : Option Nat :=
  ((List.range 16384).find? (fun e => used e && t.elBad e)).map (accAddr n)

/-! ## Accumulation -/

/-- Groups of four (R32). -/
def groups {α : Type} : List α → List (List α)
  | a :: b :: c :: d :: r => [a, b, c, d] :: groups r
  | [] => []
  | xs => [xs]

/-- The value of an element with its scale (R20, R168). -/
def opValue (f : Format) (x : Nat × Nat) : Fl :=
  if f.isMx then (mulFl (scaleFl x.2) (elementFl f x.1)).v else elementFl f x.1

/-- A group padded to four products with +0 (R32). -/
def pad4 (ps : List Ex) : List Ex := ps ++ List.replicate (4 - ps.length) (Ex.of .zero 0)

/-- One element of the tile through every group of the word (R172): the new pattern and the flags. -/
def accumulate (isInt : Bool) (fa fb : Format) (c : Nat) (xs ys : List (Nat × Nat)) : Nat × Nat :=
  (groups (xs.zip ys)).foldl (fun (t : Nat × Nat) g =>
    let r := if isInt then groupAccumulateInt t.1 (g.map (fun p => elementInt fa p.1.1 * elementInt fb p.2.1))
      else groupAccumulate t.1 (pad4 (g.map (fun p => mulFl (opValue fa p.1) (opValue fb p.2))))
    (r.1, t.2 ||| r.2)) (c, 0)

/-- The tile's elements after a word, and the flags. -/
def accumulateAll (isInt : Bool) (fa fb : Format) (t : Acc) (as bs : List (List (Nat × Nat))) :
    List (Nat × Nat) × Nat :=
  let rs := as.zipIdx.flatMap (fun a => bs.zipIdx.map (fun b =>
    (128 * a.2 + b.2, accumulate isInt fa fb (t.at a.2 b.2) a.1 b.1)))
  (rs.map (fun r => (r.1, r.2.1)), rs.foldl (fun f r => f ||| r.2.2) 0)

/-- The value that the checksum cells use: an MXINT element in integer mode enters as its integer (R174). -/
def sumValue (isInt : Bool) (f : Format) (x : Nat × Nat) : Fl :=
  if isInt then .ofInt (elementInt f x.1) else opValue f x

/-- An exact sum rounded once to FP32 by RNE (R174, R179), with the flags of the rounding (R25, R38). -/
def sum32 (xs : List Fl) : Nat × Nat := (groupSum xs).rne32

/-- Column k of rows of values. -/
def column (rows : List (List Fl)) (k : Nat) : List Fl := rows.map (fun r => r.getD k .zero)

/-- One checksum cell through the groups, the last padded with +0: c ← RNE(c + RNE(Σ products)) (R174), with flags. -/
def sumCell (c : Nat) (ps : List Ex) : Nat × Nat :=
  (groups ps).foldl (fun (c : Nat × Nat) g =>
    let s := sum32 ((pad4 g).map (·.v))
    let r := addRne32 c.1 s.1
    (r.1, g.foldl (fun f p => f ||| p.fl) (c.2 ||| s.2 ||| r.2))) (c, 0)

/-- Checksum cells through one word: each line's cell takes the line's products. -/
def sumCells (m : Map Nat W32) (lines : List (List Ex)) : Map Nat W32 × Nat :=
  lines.zipIdx.foldl (fun (m : Map Nat W32 × Nat) x =>
    let r := sumCell (mget m.1 x.2 0).toNat x.1
    (mset m.1 x.2 (BitVec.ofNat 32 r.1), m.2 ||| r.2)) (m, 0)

/-- The sums of columns of rows of values, each rounded to FP32: the values and the flags (R174). -/
def columnSums (rows : List (List Fl)) (k : Nat) : List Fl × Nat :=
  let xs := (List.range k).map (fun i => sum32 (column rows i))
  (xs.map (fun x => decodeFl FP32 x.1), xs.foldl (fun f x => f ||| x.2) 0)

/-- The values of rows with their signs cleared. -/
def absRows (rows : List (List Fl)) : List (List Fl) := rows.map (fun r => r.map Fl.abs)

/-- UpdateChecksums (R174): the tile, and the flags of its roundings (R25, R38; log entry 31). -/
def updateChecksums (isInt : Bool) (fa fb : Format) (t : Acc) (as bs : List (List (Nat × Nat))) : Acc × Nat :=
  let va := as.map (fun r => r.map (sumValue isInt fa))
  let vb := bs.map (fun r => r.map (sumValue isInt fb))
  let k := (as.headD []).length
  let sA := columnSums va k
  let aA := columnSums (absRows va) k
  let sB := columnSums vb k
  let aB := columnSums (absRows vb) k
  let cc := sumCells t.cc (vb.map (fun b => List.zipWith mulFl sA.1 b))
  let mc := sumCells t.mc (absRows vb |>.map (fun b => List.zipWith mulFl aA.1 b))
  let cr := sumCells t.cr (va.map (fun a => List.zipWith mulFl a sB.1))
  let mr := sumCells t.mr (absRows va |>.map (fun a => List.zipWith mulFl a aB.1))
  ({ t with cc := cc.1, mc := mc.1, cr := cr.1, mr := mr.1 },
   sA.2 ||| aA.2 ||| sB.2 ||| aB.2 ||| cc.2 ||| mc.2 ||| cr.2 ||| mr.2)

/-- Whether a write by any agent has touched local spans since the marker of a tile's window (R182). -/
def Acc.wroteTo (t : Acc) (xs : List (Nat × Nat)) : Bool :=
  t.wrote.any (fun w => xs.any (fun x => decide (w.1 < x.2) && decide (x.1 < w.2)))

/-- Whether an accumulating word is checked (R172): CK, MMAC, or a kernel of class P. -/
def checkedWord (word cls : Nat) : Bool := bitOf word 2 || word / 0x400000 % 128 == 3 || cls == 0

/-- Adds an entry to a window (R182): beyond 16 the window is not replayable. -/
def Acc.append (t : Acc) (e : WindowEntry) : Acc :=
  { t with window := t.window ++ [e], replayable := t.replayable && decide (t.window.length < 16) }

/-- Executes an accumulating word on a tile, given what it read (R172): the tile and the flags. -/
def runAccumulate (cls : Nat) (t0 : Acc) (e : WindowEntry) : Acc × Nat :=
  let fa := (Desc.of e.cap1.toNat).fmt?.getD .fa40
  let fb := (Desc.of e.cap2.toNat).fmt?.getD .fa40
  let isInt := match fa with | .mxi _ _ => true | _ => false
  let za := bitOf e.word 3
  let t1 := if za then Acc.zeroed [] else t0
  let t2 := { t1 with mode := if t1.mode == 0 then (if isInt then 2 else 1) else t1.mode }
  let r := accumulateAll isInt fa fb t2 e.a e.b
  let t3 := t2.put r.1
  let t4 := if checkedWord e.word cls then updateChecksums isInt fa fb t3 e.a e.b else ({ t3 with ckv := false }, 0)
  (t4.1.append e, r.2 ||| t4.2)

/-- What MLOADA makes of the loaded rows (R175): mode, elements, checksums of its rows and columns, and the flags of its
conversions and sums (R17, R38). -/
def runLoad (e : WindowEntry) : Acc × Nat :=
  let f := (Desc.of e.cap1.toNat).fmt?.getD .fa40
  let isInt := match f with | .int40 => true | _ => false
  let val (p : Nat) : Nat × Nat := match f with
    | .flt _ => (Ex.of (decodeFl FP32 p) (sigFlag [decodeFl FP32 p])).round FA40 0 true 0
    | _ => (p % 2 ^ 40, 0)
  let fl (p : Nat) : Fl := if isInt then .ofInt (toSigned 40 p) else decodeFl FA40 (val p).1
  let rows := e.a.map (fun r => r.map (fun x => fl x.1))
  let n := (e.a.headD []).length
  let sums (xs : List (List Fl)) : List (Nat × Nat) := xs.map sum32
  let cells (xs : List (Nat × Nat)) : Map Nat W32 := xs.zipIdx.map (fun r => (r.2, BitVec.ofNat 32 r.1.1))
  let flags (xs : List (Nat × Nat)) : Nat := xs.foldl (fun f x => f ||| x.2) 0
  let cols := (List.range n).map (column rows)
  let cr := sums rows
  let mr := sums (absRows rows)
  let cc := sums cols
  let mc := sums (absRows cols)
  ({ (Acc.zeroed [e]).put (e.a.zipIdx.flatMap (fun r => r.1.zipIdx.map (fun x => (128 * r.2 + x.2, (val x.1.1).1)))) with
      mode := if isInt then 2 else 1
      cr := cells cr
      mr := cells mr
      cc := cells cc
      mc := cells mc },
   flags (e.a.flatMap (fun r => r.map (fun x => val x.1))) ||| flags cr ||| flags mr ||| flags cc ||| flags mc)

/-- Re-executes the entries of a window from its marker (R182): products, sums and rounding are those of the first
execution. -/
def replayEntries (cls : Nat) (es : List WindowEntry) : Acc :=
  es.foldl (fun t e =>
    match e.word / 0x400000 % 128 with
    | 4 => Acc.zeroed [e]
    | 5 => (runLoad e).1
    | _ => (runAccumulate cls t e).1) Acc.mzero

/-- Replays a tile's window (R182): the tile is discarded and computed again; it is not replayed a second time. The entries
read their operands again, and poison that they meet there is consumed (R325): its local address. -/
def State.replayWindow (s : State) (sl : SlotId) (n : Nat) : State × Option Nat :=
  let t := s.acc sl n
  let spans := t.window.flatMap (·.spans)
  let s1 := s.settleSpans sl 2 spans
  match s1.badSpan sl spans with
  | some a => (s1, some a)
  | none =>
    let r := replayEntries (s.kclass sl) t.window
    (s1.setAcc sl n { r with window := t.window, replayable := t.replayable, replayed := true, wrote := t.wrote }, none)

/-- Whether a tile's window may be replayed now (R182, R331). -/
def Acc.mayReplay (t : Acc) : Bool := t.replayable && !t.replayed && !t.window.isEmpty

/-! ## Faults and consumption -/

/-- Records STAT bits for the next MBAR (R183). -/
def State.recordM (s : State) (bits : Nat) : State :=
  s.modSlot s.cur.slot (fun v => { v with mstat := v.mstat ||| bits })

/-- An FMTERR of the matrix engine (R185): the tile that the word names becomes invalid. -/
def matFault (s : State) (tile : Option Nat) (sub tid : Nat) : Out :=
  let sl := s.cur.slot
  let s1 := match tile with
    | some n => s.setAcc sl n { s.acc sl n with valid := false }
    | none => s
  .next (s1.engineTrap sl .m { cause := 0x0B, val := 2 + tid * 2 ^ 16 + sub * 2 ^ 32, sub := sub, tid := tid })

/-- Runs a matrix word unless it would consume poison (R325): in class P the tile's window is replayed where R182 lets
it and the word tried again; then and in class D the word stops; in class U it goes on. -/
def matConsume (s : State) (n : Nat) (bad : State → Option Nat) (run : State → Out) : Out :=
  match bad s with
  | none => run s
  | some a =>
    if s.kclass s.cur.slot == 0 && (s.acc s.cur.slot n).mayReplay then
      let r := (s.coneEvent s.cur.slot 1 2).replayWindow s.cur.slot n
      let s1 := r.1.recordM stPOIS
      match r.2 <|> bad s1 with
      | none => run s1
      | some b => s1.consumeEngine .m (poisonVal b false true 2) run
    else (s.recordM stPOIS).consumeEngine .m (poisonVal a false true 2) run

/-! ## Accumulating words -/

/-- Whether a format may be a matrix operand (R168). -/
def operandFormat : Format → Bool
  | .flt F => F != FP32
  | .mxf _ => true
  | .mxi _ _ => true
  | _ => false

/-- Whether a format is an MXINT format. -/
def Format.isMxi : Format → Bool
  | .mxi _ _ => true
  | _ => false

/-- The signedness of an MXINT format. -/
def Format.mxiSigned : Format → Bool
  | .mxi _ sg => sg
  | _ => false

/-- The tests of R167 to R170 that need no memory: the sub-code of the first that fails, in ascending sub-code (log
entry 26). The sum over held bytes follows. -/
def accCheck (word : Nat) (A B : Desc) (t : Acc) (gather : Bool) : Option Nat :=
  match A.fmt?, B.fmt? with
  | some fa, some fb =>
    let isInt := fa.isMxi && fb.isMxi
    if !operandFormat fa || !operandFormat fb then some 2
    else if fa.isMxi != fb.isMxi || A.klen != B.klen then some 3
    else if isInt && (bitOf word 0 != fa.mxiSigned || bitOf word 1 != fb.mxiSigned) then some 3
    else if !isInt && (bitOf word 0 || bitOf word 1) then some 3
    else if A.base % 64 != 0 || B.base % 64 != 0 then some 4
    else if (fa.isMx || fb.isMx) && A.klen % 32 != 0 then some 5
    else if A.rsv != 0 || B.rsv != 0 || (!gather && !fa.isMx && A.soff != 0) || (!fb.isMx && B.soff != 0) then some 6
    else if !bitOf word 3 && (!t.valid || (t.mode != 0 && t.mode != (if isInt then 2 else 1))) then some 7
    else none
  | _, _ => some 1

/-- The bytes that an operand's rows and scales take (R168, R173). -/
def operandSpans (d : Desc) (f : Format) (k0 k : Nat) (rows : List Nat) (area : Option Nat) : List (Nat × Nat) :=
  rows.map (fun r => rowSpan (d.row r) f.size k0 k) ++
    (match area with
     | some a => rows.map (fun r => scaleSpan a r k0 k)
     | none => [])

/-- The opcode, tile and control byte of an accumulating word (R48, R62, R171). -/
def accWord (op acc ks za ck sb sa : Nat) : Nat :=
  0x40000000 + op * 0x400000 + acc * 2 ^ 20 + ks * 32 + za * 8 + ck * 4 + sb * 2 + sa

/-- The accumulating words MMA, MMAG and MMAC (R172, R173). word holds the opcode, the tile and the control byte. DEDUCED: bytes
outside the held regions (sub-code 4) are looked for once the descriptors pass every other sub-code, the index list first,
then the operands that the list names; so a poisoned index that names a row outside them gives the fault, and poison is
consumed only by a word without one (log entry 26). -/
def accumWord (word acc : Nat) (gather : Bool) (ks : Nat) (s : State) : Out :=
  let sl := s.cur.slot
  let A := Desc.of s.cur.entry.cap1.toNat
  let B := Desc.of s.cur.entry.cap2.toNat
  let t := s.acc sl acc
  let idxSpan : List (Nat × Nat) := if gather then [(A.scales, A.scales + 4 * A.rows)] else []
  match accCheck word A B t gather with
  | some sub => matFault s (some acc) sub 0
  | none =>
    let fa := A.fmt?.getD .fa40
    let fb := B.fmt?.getD .fa40
    let isInt := fa.isMxi
    let k0 := 128 * ks
    let k := A.klen
    if !s.spansHeld sl idxSpan then matFault s (some acc) 4 0
    else if !s.spansResident sl idxSpan then stallOut (s.wantSpans sl idxSpan)
    else
      let s0 := s.settleSpans sl 2 idxSpan
      let rowsA := (List.range A.rows).map (fun i => if gather then s0.elemAt sl 0 A.scales 32 i i else i)
      let areaA := if fa.isMx && !isInt then some (A.scales + (if gather then 512 else 0)) else none
      let areaB := if fb.isMx && !isInt then some B.scales else none
      let spansA := operandSpans A fa k0 k rowsA areaA
      let spansB := operandSpans B fb k0 k (List.range B.rows) areaB
      let spans := spansA ++ spansB
      if !s0.spansHeld sl spans then matFault s0 (some acc) 4 0
      else if !s0.spansResident sl spans then stallOut (s0.wantSpans sl spans)
      else
        let inTile (e : Nat) : Bool := decide (e / 128 < A.rows) && decide (e % 128 < B.rows) && !bitOf word 3
        let s1 := (s0.settleSpans sl 2 spans).injectAcc sl acc inTile
        matConsume s1 acc
          (fun s => match s.badSpan sl (idxSpan ++ spans) with
            | some a => some a
            | none => (s.acc sl acc).bad acc inTile)
          (fun s =>
            let e : WindowEntry :=
              { word := word
                cap1 := s.cur.entry.cap1
                cap2 := s.cur.entry.cap2
                a := rowsA.map (fun r => s.rowEls sl 0 (A.row r) fa k0 k r areaA)
                b := (List.range B.rows).map (fun r => s.rowEls sl 1 (B.row r) fb k0 k r areaB)
                spans := (if gather then [(A.scales, A.scales + 512)] else []) ++ spans }
            let t0 := s.acc sl acc
            let r := runAccumulate (s.kclass sl) t0 e
            let t1 := { r.1 with replayable := r.1.replayable && !r.1.wroteTo e.spans }
            let s2 := ({ s.setAcc sl acc t1 with fresh := s.fresh + 1 }.raise sl r.2)
            let s3 := if s.cur.entry.seg then
                s2.modCsr sl (fun c => { c with segBeats := mmod c.segBeats 2 0 (· + (k + 3) / 4) })
              else s2
            doneOut (if (s3.slot sl).csr.armed 0 1 && field (s3.slot sl).csr.errinj 32 2 == acc then s3.inject sl
              else s3))

/-- MMA (R172). -/
def execMma (c : Fin 4) (_a _b : Fin 64) (k : Fin 8) (z q t u : Fin 2) (s : State) : Out :=
  accumWord (accWord 1 c.val k.val z.val q.val t.val u.val) c.val false k.val s

/-- MMAG (R173). -/
def execMmag (c : Fin 4) (_a _b : Fin 64) (k : Fin 8) (z q t u : Fin 2) (s : State) : Out :=
  accumWord (accWord 2 c.val k.val z.val q.val t.val u.val) c.val true k.val s

/-- MMAC (R172). -/
def execMmac (c : Fin 4) (_a _b : Fin 64) (k : Fin 8) (z t u : Fin 2) (s : State) : Out :=
  accumWord (accWord 3 c.val k.val z.val 1 t.val u.val) c.val false k.val s

/-- MNOP (R183). -/
def execMnop (s : State) : Out := doneOut s

/-- MZERO (R175). -/
def execMzero (c : Fin 4) (s : State) : Out :=
  doneOut (s.setAcc s.cur.slot c.val Acc.mzero)

/-! ## Loading and draining -/

/-- Whether a format may be loaded (R175). -/
def loadFormat : Format → Bool
  | .flt F => F == FP32
  | .fa40 => true
  | .int40 => true
  | _ => false

/-- MLOADA (R175). -/
def execMloada (c : Fin 4) (_a : Fin 64) (s : State) : Out :=
  let sl := s.cur.slot
  let D := Desc.of s.cur.entry.cap1.toNat
  match D.fmt? with
  | none => matFault s (some c.val) 1 0
  | some f =>
    let spans := operandSpans D f 0 D.klen (List.range D.rows) none
    if !loadFormat f then matFault s (some c.val) 2 0
    else if D.base % 64 != 0 || !s.spansHeld sl spans then matFault s (some c.val) 4 0
    else if D.rsv != 0 || D.soff != 0 then matFault s (some c.val) 6 0
    else if !s.spansResident sl spans then stallOut (s.wantSpans sl spans)
    else
      let s1 := s.settleSpans sl 2 spans
      matConsume s1 c.val (fun s => s.badSpan sl spans) (fun s =>
        let e : WindowEntry :=
          { word := 0x41400000
            cap1 := s.cur.entry.cap1
            a := (List.range D.rows).map (fun r => s.rowEls sl 0 (D.row r) f 0 D.klen r none)
            spans := spans }
        let r := runLoad e
        doneOut ({ s.setAcc sl c.val r.1 with fresh := s.fresh + 1 }.raise sl r.2))

/-- Whether a format may be drained from a tile of a mode (R176): 0 none, 1 float, 2 int. -/
def drainFormat (mode : Nat) : Format → Bool
  | .flt _ => mode != 2
  | .fa40 => mode != 2
  | .int n _ => mode != 1 && n != 64
  | .int40 => mode != 1
  | _ => false

/-- Whether a format is an integer one. -/
def Format.isInt : Format → Bool
  | .int _ _ => true
  | .int40 => true
  | _ => false

/-- The drained pattern of an element and its flags (R16, R176). -/
def drainValue (f : Format) (rm : Nat) (ieee : Bool) (r v : Nat) : Nat × Nat :=
  match f with
  | .flt F => (Ex.of (decodeFl FA40 v) (sigFlag [decodeFl FA40 v])).round F rm ieee r
  | .int n sg => satInt n sg (toSigned 40 v)
  | .int40 => (wrapTo 64 (toSigned 40 v), 0)
  | _ => (v, 0)

/-- MDRAIN (R176): its writes are asynchronous. -/
def execMdrain (c : Fin 4) (_a : Fin 64) (r : Fin 8) (v : Fin 2) (s : State) : Out :=
  let sl := s.cur.slot
  let D := Desc.of s.cur.entry.cap1.toNat
  let t := s.acc sl c.val
  match D.fmt? with
  | none => matFault s (some c.val) 1 0
  | some f =>
    let spans := operandSpans D f 0 D.klen (List.range D.rows) none
    if !drainFormat t.mode f || (t.mode == 2 && r.val != 0) then matFault s (some c.val) 2 0
    else if D.base % 64 != 0 || !s.spansHeld sl spans then matFault s (some c.val) 4 0
    else if D.rsv != 0 || D.soff != 0 then matFault s (some c.val) 6 0
    else if !t.valid then matFault s (some c.val) 7 0
    else if !s.spansResident sl spans then stallOut (s.wantSpans sl spans)
    else
      let used (e : Nat) : Bool := decide (e / 128 < D.rows) && decide (e % 128 < D.klen)
      let s1 := s.injectAcc sl c.val used
      matConsume s1 c.val (fun s => (s.acc sl c.val).bad c.val used) (fun s =>
        let t := s.acc sl c.val
        let n := D.rows * D.klen
        let ds := if f.isInt then (List.replicate n 0, s) else s.draws sl 2 r.val n
        let ys := (List.range n).map (fun i =>
          drainValue f r.val (v.val == 0) (ds.1.getD i 0) (t.at (i / D.klen) (i % D.klen)))
        let s2 := ds.2.setAcc sl c.val { t with replayable := false }
        let mv := ys.zipIdx.map (fun y =>
          { addr := s2.localPhys sl (D.row (y.2 / D.klen) + (y.2 % D.klen) * (f.size / 8))
            bytes := toBytes (f.size / 8) y.1.1 : Move })
        doneOut (s2.issue
          { slot := sl
            engine := .m
            word := s.cur.entry.word
            matrix := true
            moves := mv
            dst := spans.map (fun x => (s2.localPhys sl x.1, x.2 - x.1))
            stamp := s.cur.entry.stamp
            born := s.cur.entry.born
            fl := ys.foldl (fun a y => a ||| y.2) 0 }))

/-! ## Checking a tile -/

/-- What CheckTile finds (R179). -/
inductive Check where
  | pass
  | correct (i j : Nat)
  | bad (rows cols : Nat)
  deriving DecidableEq, Repr

/-- The exact value of an element of a tile. -/
def Acc.value (t : Acc) (i j : Nat) : Fl :=
  if t.mode == 2 then .ofInt (toSigned 40 (t.at i j)) else decodeFl FA40 (t.at i j)

/-- One line of CheckTile (R179): its sum rounded to FP32, its residue and its bound, with the flags of their roundings
(R25, R38). -/
structure LineCheck where
  sum : Nat
  bad : Bool
  fl : Nat
  deriving DecidableEq, Repr

/-- Checks a line: whether its residue exceeds its bound (R179). -/
def lineCheck (xs : List Fl) (ck mag absT relT : Nat) : LineCheck :=
  let sum := sum32 xs
  let res := (addFl 0 (decodeFl FP32 sum.1) (decodeFl FP32 ck).negate).rne32
  let bound := (fmaFl 0 (decodeFl FP32 relT) (decodeFl FP32 mag) (decodeFl FP32 absT)).rne32
  let r := (decodeFl FP32 res.1).abs
  let b := decodeFl FP32 bound.1
  { sum := sum.1, bad := r.isNaN || b.isNaN || b.lt r, fl := sum.2 ||| res.2 ||| bound.2 }

/-- Row i, with S_i (R179). -/
def Acc.rowCheck (t : Acc) (absT relT i : Nat) : LineCheck :=
  lineCheck ((List.range 128).map (t.value i)) (mget t.cr i 0).toNat (mget t.mr i 0).toNat absT relT

/-- Column j, with T_j (R179). -/
def Acc.colCheck (t : Acc) (absT relT j : Nat) : LineCheck :=
  lineCheck ((List.range 128).map (fun i => t.value i j)) (mget t.cc j 0).toNat (mget t.mc j 0).toNat absT relT

/-- CheckTile's comparison (R179), and the flags that its roundings raise. -/
def Acc.check (t : Acc) (absT relT : Nat) : Check × Nat :=
  let rows := (List.range 128).map (t.rowCheck absT relT)
  let cols := (List.range 128).map (t.colCheck absT relT)
  let failing (xs : List LineCheck) : List Nat := (xs.zipIdx.filter (fun x => x.1.bad)).map (·.2)
  ((match failing rows, failing cols with
    | [], [] => .pass
    | [i], [j] => .correct i j
    | R, Q => .bad R.length Q.length),
   (rows ++ cols).foldl (fun f x => f ||| x.fl) 0)

/-- The corrected pattern of element (i, j), and the flags of RoundFA40 or Sat40 (R38, R179). -/
def Acc.corrected (t : Acc) (i j : Nat) : Nat × Nat :=
  let T := (sum32 ((List.range 128).map (fun i => t.value i j))).1
  let d := (addFl 0 (decodeFl FP32 T) (decodeFl FP32 (mget t.cc j 0).toNat).negate).v
  if t.mode == 2 then
    match d with
    | .fin neg m e => sat40 (toSigned 40 (t.at i j) - (toIntRound 0 0 neg m e).1)
    | _ => (t.at i j, 0)
  else (addFl 0 (decodeFl FA40 (t.at i j)) d.negate).round FA40 0 true 0

/-- Applies CheckTile to a tile of a slot (R179, R181): a pass goes on with the corrected element, if one was, and with
the flags of the comparison and the correction; what cannot be corrected is answered by the class: a window replay and
another try, CKFAIL with the tile invalid, or as if it had passed. -/
def checkTile (s : State) (n : Nat) (retry : State → Option Out)
    (fail : State → State) (pass : State → Option (Nat × Nat) → Nat → Out) : Out :=
  let sl := s.cur.slot
  let t := s.acc sl n
  let c := (s.slot sl).csr
  let found := t.check c.cktolAbs c.cktolRel
  match found.1 with
  | .pass => pass s none found.2
  | .correct i j =>
    let y := t.corrected i j
    let s1 := (s.setAcc sl n (t.put [(128 * i + j, y.1)])).recordM stCKCOR
    pass (s1.coneEvent sl 2 2) (some (i, j)) (found.2 ||| y.2)
  | .bad rows cols =>
    let s1 := s.recordM stCKUC
    if s.kclass sl == 2 then pass (s1.coneEvent sl 1 2) none found.2
    else
      let again (s : State) : Option Out :=
        let r := s.replayWindow sl n
        match r.2 with
        | some a => some ((fail r.1).recordM stPOIS |>.consumeEngine .m (poisonVal a false true 2) (fun s => .next s))
        | none => retry r.1
      match (if s.kclass sl == 0 && t.mayReplay then again s1 else none) with
      | some o => o
      | none =>
        let s2 := fail (s1.setAcc sl n { t with valid := false })
        .next (s2.engineTrap sl .m
          { cause := 0x0A, val := 2 + n * 16 + min 255 rows * 2 ^ 8 + min 255 cols * 2 ^ 16 })

/-- Runs MCHK once its reads are clean: after a window replay it checks once more. -/
def runCheck (n : Nat) (s : State) : Out :=
  let pass (s : State) (_ : Option (Nat × Nat)) (fl : Nat) : Out := doneOut (s.raise s.cur.slot fl)
  checkTile s n (fun s1 => some (checkTile s1 n (fun _ => none) id pass)) id pass

/-- MCHK (R179). -/
def execMchk (c : Fin 4) (s : State) : Out :=
  let sl := s.cur.slot
  let t := s.acc sl c.val
  if !t.valid then matFault s (some c.val) 7 0
  else if t.mode == 0 then doneOut s
  else if !t.ckv then matFault s (some c.val) 9 0
  else
    let s1 := s.injectAcc sl c.val (fun _ => true)
    matConsume s1 c.val (fun s => (s.acc sl c.val).bad c.val (fun _ => true)) (runCheck c.val)

/-! ## The fused epilogue -/

/-- The fields of the epilogue descriptor and of the bias and scale value (R177). -/
structure Epi where
  tid : Nat
  act : Nat
  row0 : Nat
  col0 : Nat
  rows : Nat
  cols : Nat
  rsv : Bool
  baddr : Nat
  bias : Bool
  scl : Bool
  alpha : Nat
  deriving Repr

/-- Reads them (R177). -/
def Epi.of (a b : Nat) : Epi :=
  { tid := field a 0 12
    act := field a 12 2
    row0 := 128 * field a 16 16
    col0 := 128 * field a 32 16
    rows := field a 48 7 + 1
    cols := field a 56 7 + 1
    rsv := field a 14 2 != 0 || bitOf a 55 || bitOf a 63 || field b 24 8 != 0 || decide (2 ≤ field a 12 2)
    baddr := field b 0 22
    bias := bitOf b 22
    scl := bitOf b 23
    alpha := field b 32 32 }

/-- The pattern that MEPI writes for one element, and its flags (R178). DEDUCED: an exact sum of zero after BIAS takes the sign of
R86 under rm, and an element of a tile in mode none goes into an integer record as R29 converts it (log entries 11 and 103). -/
def epiValue (e : Epi) (f : Format) (mode rm : Nat) (ieee : Bool) (r v bias : Nat) : Nat × Nat :=
  if mode == 2 then
    let u := toSigned 40 v
    let u1 := if e.act == 1 && decide (u < 0) then 0 else u
    match f with
    | .int n sg => satInt n sg u1
    | _ => (0, 0)
  else
    let u := decodeFl FA40 v
    let x := if e.scl then mulFl u (decodeFl FP32 e.alpha) else Ex.of u (sigFlag [u])
    let y := if e.bias then addFl rm x.v (decodeFl FP32 bias) else Ex.of x.v 0
    let z := if e.act == 1 && !y.v.isNaN && !(Fl.zero.lt y.v) then Fl.zero else y.v
    let w := match f with
      | .flt F => roundTo F rm ieee r z 1
      | .int n sg => floatToInt z n sg rm r
      | _ => (0, 0)
    (w.1, x.fl ||| y.fl ||| w.2)

/-- The element writes of MEPI: for each element of the written area, the page of its byte and the offset. -/
def State.epiPlaces (s : State) (sl : SlotId) (rec : Record) (e : Epi) : List Touch :=
  (List.range (e.rows * e.cols)).map (fun i =>
    s.touchVa sl (.eng sl .m) rec.cls (rec.elem (e.col0 + i % e.cols) (e.row0 + i / e.cols) 0 0).1 true)

/-- The first test of R177 and R178 that fails, in ascending sub-code but for sub-code 8, which follows those of
sub-code 1 (log entry 26). -/
def epiCheck (s : State) (sl : SlotId) (t : Acc) (rm : Nat) (e : Epi) (rec : Option Record) : Option Nat :=
  match rec with
  | none => some 1
  | some r =>
    let fits := decide (e.col0 + e.cols ≤ r.e0) && decide (e.row0 + e.rows ≤ r.e1) && r.e2 == 1 && r.e3 == 1
    if !s.shadowAgrees sl r || inGangWindow r.base then some 1
    else if fits && (s.epiPlaces sl r e).any (fun p => match p with | .badClass => true | _ => false) then some 1
    else if !drainFormat t.mode r.fmt || (match r.fmt with | .fa40 => true | .int40 => true | _ => false) then some 2
    else if t.mode == 2 && (e.scl || e.bias || rm != 0) then some 2
    else if e.baddr % 4 != 0 || (e.bias && !s.spanHeld sl e.baddr (4 * e.cols)) then some 4
    else if e.rsv then some 6
    else if !t.valid then some 7
    else if !r.shadow || !fits then some 8
    else none

/-- A write of an element of a record through a page (R275, R277): a record of a shadow buffer writes the shadow of a shadow
page, any other record its visible backing (log entry 98). -/
def shadowMove (p : Page) (off : Nat) (shadow : Bool) (bytes : List Byte) : Move :=
  { addr := p.frame + off
    bytes := bytes
    leaf := p.shadow
    half := p.size
    visible := !shadow }

/-- The patterns of the written area of a tile, row-major, with their flags (R178). -/
def epiValues (e : Epi) (f : Format) (t : Acc) (rm : Nat) (ieee : Bool) (x : Epilogue) : List (Nat × Nat) :=
  (List.range (e.rows * e.cols)).map (fun i =>
    epiValue e f t.mode rm ieee (x.draws.getD i 0) (t.at (i / e.cols) (i % e.cols)) (x.bias.getD (i % e.cols) 0))

/-- The element writes of a MEPI with the patterns that they now carry. -/
def epiMoves (f : Format) (x : Epilogue) (vs : List (Nat × Nat)) : List Move :=
  (x.moves.zip vs).map (fun m => { m.1 with bytes := toBytes (f.size / 8) m.2.1 })

/-- The flags of patterns. -/
def valueFlags (vs : List (Nat × Nat)) : Nat := vs.foldl (fun f v => f ||| v.2) 0

/-- The entry in progress stays at the head of its queue. -/
def goOnOut (s : State) : Out := .next { s with cur := { s.cur with status := .moved } }

/-- The scratchpad bytes that a MEPI reads until it completes (R319): its bias row, and while its check is to come what the
tile's window would read again. -/
def State.epiReads (s : State) (sl : SlotId) (n : Nat) (e : Epi) (checked : Bool) : List (Nat × Nat) :=
  ((if e.bias then [(e.baddr, e.baddr + 4 * e.cols)] else [])
    ++ (if checked then (s.acc sl n).window.flatMap (·.spans) else [])).map (fun x => (s.localPhys sl x.1, x.2 - x.1))

/-- Begins one MEPI (R178): its element writes are in flight; with CKV = 1 its check follows the last of them, and with
CKV = 0 or mode none it has executed. -/
def runEpi (n rm : Nat) (ieee : Bool) (e : Epi) (r : Record) (s : State) : Out :=
  let sl := s.cur.slot
  let t := s.acc sl n
  let cnt := e.rows * e.cols
  let ds := if t.mode == 2 then (List.replicate cnt 0, s) else s.draws sl 2 rm cnt
  let move (i : Nat) : Option Move :=
    let va := (r.elem (e.col0 + i % e.cols) (e.row0 + i / e.cols) 0 0).1
    (s.pageOf sl va).map (fun p => shadowMove p (va - p.va) true [])
  let x : Epilogue :=
    { fmt := r.code
      draws := ds.1
      bias := if e.bias then (List.range e.cols).map (fun j => s.elemAt sl 1 e.baddr 32 j j) else []
      moves := (List.range cnt).filterMap move }
  let vs := epiValues e r.fmt t rm ieee x
  let checked := t.ckv && t.mode != 0
  let s1 := { ds.2 with fresh := ds.2.fresh + 1 }.issue
    { slot := sl, engine := .m, word := s.cur.entry.word, matrix := true, moves := epiMoves r.fmt x vs
      src := s.epiReads sl n e checked
      stamp := s.cur.entry.stamp, born := s.cur.entry.born, fl := valueFlags vs, epi := if checked then some x else none }
  if checked then goOnOut s1 else doneOut s1

/-- Discards the writes of a MEPI whose tile is uncorrectable (R178): each element that it wrote holds, by a free pick, its
former value or the one written; what it has not written yet is not written. -/
def State.discardEpi (s : State) (c : Cmd) : State :=
  let s1 := (s.hist.filter (fun r => r.cmd == some c.id)).foldl (fun s r =>
    if Config.pick s.fresh r.at_ % 2 == 1 then s.store (.eng c.slot .m) none r.addr [r.old] else s) s
  { s1 with fresh := s1.fresh + 1, cmds := s1.cmds.filter (fun x => x.id != c.id) }

/-- The check of a MEPI after its last store (R178, R181): a corrected element of the written area is written once more
before the word completes; a window replay executes the word again, with the same draws and only the flags of that
execution (R182; log entry 83). -/
def finishEpi (n rm : Nat) (ieee : Bool) (e : Epi) (c : Cmd) (x : Epilogue) (s : State) : Out :=
  let sl := s.cur.slot
  let f := (formatOf x.fmt).getD .fa40
  if !c.moves.isEmpty then goOnOut s
  else
    let vals (s : State) : List (Nat × Nat) := epiValues e f (s.acc sl n) rm ieee x
    checkTile s n
      (fun s =>
        let vs := vals s
        some (goOnOut (s.modCmd c.id (fun c => { c with moves := epiMoves f x vs, fl := valueFlags vs }))))
      (fun s => s.discardEpi c)
      (fun s cor fl =>
        let again := match cor with
          | some (i, j) => if i < e.rows ∧ j < e.cols then some (i * e.cols + j) else none
          | none => none
        let vs := vals s
        doneOut (s.modCmd c.id (fun c => { c with
          epi := none
          fl := c.fl ||| fl ||| (again.map (fun k => (vs.getD k (0, 0)).2)).getD 0
          moves := match again with
            | some k => ((epiMoves f x vs).drop k).take 1
            | none => [] })))

/-- MEPI (R177, R178). -/
def execMepi (c : Fin 4) (_a _b : Fin 64) (r : Fin 8) (v : Fin 2) (s : State) : Out :=
  let sl := s.cur.slot
  let e := Epi.of s.cur.entry.cap1.toNat s.cur.entry.cap2.toNat
  let t := s.acc sl c.val
  match s.epiCmd sl with
  | some k => finishEpi c.val r.val (v.val == 0) e k (k.epi.getD default) s
  | none =>
  let look := s.lookup sl (.eng sl .m) 2 e.tid
  let s0 := look.1
  match epiCheck s0 sl t r.val e look.2 with
  | some sub => matFault s0 (some c.val) sub e.tid
  | none =>
    match look.2 with
    | none => matFault s0 (some c.val) 1 e.tid
    | some rec =>
      match (s0.epiPlaces sl rec e).findSome? (fun p => match p with | .outlease va => some va | _ => none) with
      | some va => .next (s0.engineTrap sl .m { cause := 0x04, val := va, addr := va, tid := e.tid })
      | none =>
        let spans : List (Nat × Nat) := if e.bias then [(e.baddr, e.baddr + 4 * e.cols)] else []
        if !s0.spansResident sl spans then stallOut (s0.wantSpans sl spans)
        else
          let used (i : Nat) : Bool := t.ckv || (decide (i / 128 < e.rows) && decide (i % 128 < e.cols))
          let s1 := (s0.settleSpans sl 2 spans).injectAcc sl c.val used
          matConsume s1 c.val
            (fun s => match s.badSpan sl spans with
              | some a => some a
              | none => (s.acc sl c.val).bad c.val used)
            (runEpi c.val r.val (v.val == 0) e rec)

/-! ## Barriers and events -/

/-- Whether every earlier matrix entry of the slot has completed, its epilogues and drains included (R183). -/
def State.matrixQuiet (s : State) (sl : SlotId) : Bool := !(s.inflight sl).any (fun c => c.matrix)

/-- The matrix commands of a slot that have completed and that it has not seen complete: what MBAR's barrier object shows
(R184, R293). -/
def State.matrixDone (s : State) (sl : SlotId) : List Nat :=
  (s.vis.filter (fun (v : Nat × Vis) => decide (v.2.slot = sl) && v.2.matrix && v.2.done.isSome && v.2.seenAt.isNone)).map (·.1)

/-- MBAR (R183). -/
def execMbar (_a : Fin 64) (s : State) : Out :=
  let sl := s.cur.slot
  let a := s.cur.entry.cap1.toNat
  if a % 16 != 0 || !s.spanHeld sl a 16 then matFault s none 4 0
  else if !s.matrixQuiet sl then stallOut s
  else if !s.resident sl a 16 then stallOut (s.wantSpan sl a 16)
  else
    let s1 := s.barrierUpdate sl a (s.slot sl).mstat (s.matrixDone sl)
    doneOut (s1.modSlot sl (fun v => { v with mstat := 0 }))

/-- ESET of the matrix queue (R183). -/
def execEsetM (f : Fin 16) (s : State) : Out := esetWord f.val (s.matrixQuiet s.cur.slot) s

/-- EWAIT of the matrix queue (R183). -/
def execEwaitM (f : Fin 16) (s : State) : Out := ewaitWord .m f.val s

end Sys2Proof.Machine
end

