-- ==== Sys2Proof/WellFormed.lean ====
section
/-!
DEFINITION. Which operand values an instruction admits: the stated limits of test 4 of R66, and for the events the numbers
of partitions, functions, contexts, slots, clusters and ports that there are (R2).
-/

namespace Sys2Proof

/-- Why a word is no instruction (R53, R66); each raises ILLEGAL at split time. -/
inductive Reject where
  /-- A prefix followed by an L word (R66, test 1). -/
  | prefixOfPrefix
  /-- An opcode that the maps leave unassigned (R66, test 3). -/
  | unassigned
  /-- A reserved field that is not zero (R66, test 4). -/
  | reserved
  /-- A prefix that R53 does not allow. -/
  | prefixForbidden
  /-- A value outside the instruction's limits (R66, test 4). -/
  | limit
  /-- Fewer bytes than the instruction has. -/
  | truncated
  deriving DecidableEq, Repr

/-- payload : field, unsigned (R53): m is 2 to the width of the word's own field. -/
def extU (pre : Option Payload) (m low : Nat) : Nat :=
  match pre with
  | none => low
  | some p => p.val * m + low

/-- payload : field read as two's complement, or the field alone sign-extended (R45, R53). -/
def extS (pre : Option Payload) (bits low : Nat) : Int :=
  match pre with
  | none => toSigned bits low
  | some p => toSigned (bits + 29) (p.val * 2 ^ bits + low)

/-- No bit above the field that the instruction uses. -/
def noExt (pre : Option Payload) : Bool :=
  match pre with
  | none => true
  | some p => p.val == 0

/-- Rounding modes (R24). -/
def roundOk (m : Nat) : Bool := decide (m ≤ 4)

/-- Predicate numbers (R44). -/
def predOk (p : Nat) : Bool := decide (p ≤ 95)

/-- Scopes of FENCE, PUB and the record words: every code of R51 but .bank (R117, R121). -/
def fenceScopeOk (s : Nat) : Bool := decide (s ≤ 9) && s != 6

/-- Scopes of the atomics (R100). -/
def atomicScopeOk (s : Nat) : Bool := decide (s ≤ 9) && s != 6 && s != 8

/-- Engine codes of KSET, XSET and RENQ (R124, R130). -/
def engineCodeOk (e : Nat) : Bool := decide (1 ≤ e ∧ e ≤ 5)

/-- lu is not allowed on a stream operand (R47). -/
def luOk (a l : Nat) : Bool := l == 0 || decide (a < 48)

/-- The numbers of R41's table. -/
def csrListed (n : Nat) : Bool :=
  [0x000, 0x001, 0x002, 0x003, 0x010, 0x011, 0x012, 0x013, 0x020, 0x021, 0x022, 0x030, 0x031, 0x032,
   0x040, 0x041, 0x042, 0x050, 0x051, 0x052, 0x060, 0x070, 0x071].contains n

/-- Engines named by LOOPB's four places, up to the code 0 that ends the list (R125). -/
def loopParts (e0 e1 e2 e3 : Nat) : List Nat :=
  if e0 == 0 then [] else if e1 == 0 then [e0] else if e2 == 0 then [e0, e1]
  else if e3 == 0 then [e0, e1, e2] else [e0, e1, e2, e3]

/-- LOOPB's list (R125): a first engine, codes 1 to 5, none twice, everything after the end zero, and no lead on the
last engine. -/
def loopListOk (e0 l0 e1 l1 e2 l2 e3 : Nat) : Bool :=
  let ps := loopParts e0 e1 e2 e3
  e0 != 0 && ps.all (fun e => decide (e ≤ 5)) && decide ps.Nodup &&
  (match ps.length with
   | 1 => e1 == 0 && e2 == 0 && e3 == 0 && l0 == 0 && l1 == 0 && l2 == 0
   | 2 => e2 == 0 && e3 == 0 && l1 == 0 && l2 == 0
   | 3 => e3 == 0 && l2 == 0
   | _ => true)

/-- Partition numbers (R2, R392). -/
def partOk (p : Nat) : Bool := decide (p < 16)

/-- Functions: the physical one and 31 virtual ones (R2, R410). -/
def fnOk (fn : Nat) : Bool := decide (fn < 32)

/-- Contexts of a function, and launch queues of a context (R371, R387). -/
def ctxOk (c : Nat) : Bool := decide (c < 8)

/-- Nagil ports (R2). -/
def portOk (n : Nat) : Bool := decide (n < 24)

/-- Physical clusters (R2). -/
def clusterOk (c : Nat) : Bool := decide (c < 64)

/-- Tiles of a partition: 4 in each of up to 60 clusters (R2, R386). -/
def tileOk (t : TileId) : Bool := partOk t.part && decide (t.tile < 240)

/-- Task slots: 8 on a tile (R2). -/
def slotOk (sl : SlotId) : Bool := tileOk sl.tileId && decide (sl.slot < 8)

/-- The stated limits of each instruction: what test 4 of R66 refuses beyond the fixed fields, and of each event (R2). -/
def wellFormed : Instr → Bool
  | .add _ _ _ => true
  | .sub _ _ _ => true
  | .and _ _ _ => true
  | .or _ _ _ => true
  | .xor _ _ _ => true
  | .sll _ _ _ => true
  | .srl _ _ _ => true
  | .sra _ _ _ => true
  | .slt _ _ _ => true
  | .sltu _ _ _ => true
  | .min _ _ _ => true
  | .max _ _ _ => true
  | .minu _ _ _ => true
  | .maxu _ _ _ => true
  | .sel _ _ _ => true
  | .mul _ _ _ => true
  | .mulh _ _ _ => true
  | .mulhu _ _ _ => true
  | .div _ _ _ => true
  | .divu _ _ _ => true
  | .rem _ _ _ => true
  | .remu _ _ _ => true
  | .clz _ _ => true
  | .ctz _ _ => true
  | .popc _ _ => true
  | .sext _ _ w => decide (w.val ≤ 2)
  | .zext _ _ w => decide (w.val ≤ 2)
  | .addi _ _ _ _ => true
  | .andi _ _ _ _ => true
  | .ori _ _ _ _ => true
  | .xori _ _ _ _ => true
  | .slli _ _ i pre => decide (extU pre 1024 i.val ≤ 63)
  | .srli _ _ i pre => decide (extU pre 1024 i.val ≤ 63)
  | .srai _ _ i pre => decide (extU pre 1024 i.val ≤ 63)
  | .slti _ _ _ _ => true
  | .sltiu _ _ _ _ => true
  | .movi _ _ _ => true
  | .movs _ _ => true
  | .fadd _ _ _ m => roundOk m.val
  | .fsub _ _ _ m => roundOk m.val
  | .fmul _ _ _ m => roundOk m.val
  | .fdiv _ _ _ m => roundOk m.val
  | .fsqrt _ _ m => roundOk m.val
  | .fmin _ _ _ => true
  | .fmax _ _ _ => true
  | .fma _ _ _ m => roundOk m.val
  | .fcmp _ _ _ c => decide (c.val ≤ 4)
  | .fcvt _ _ k e m => decide (k.val ≤ 11) && roundOk m.val && (e.val == 0 || k.val == 8 || k.val == 9) && (decide (k.val ≤ 9) || m.val == 0)
  | .fclass _ _ => true
  | .beq _ _ _ _ => true
  | .bne _ _ _ _ => true
  | .blt _ _ _ _ => true
  | .bge _ _ _ _ => true
  | .bltu _ _ _ _ => true
  | .bgeu _ _ _ _ => true
  | .j _ _ => true
  | .jal _ _ => true
  | .jalr _ _ _ _ => true
  | .ld _ _ _ t => decide (t.val ≤ 7)
  | .st _ _ _ t => decide (t.val ≤ 7)
  | .ldl _ _ _ _ _ => true
  | .stl _ _ _ _ _ => true
  | .ldf _ _ _ => true
  | .stf _ _ _ => true
  | .aadd _ _ _ s => atomicScopeOk s.val
  | .aand _ _ _ s => atomicScopeOk s.val
  | .aor _ _ _ s => atomicScopeOk s.val
  | .axor _ _ _ s => atomicScopeOk s.val
  | .amin _ _ _ s => atomicScopeOk s.val
  | .amax _ _ _ s => atomicScopeOk s.val
  | .aswp _ _ _ s => atomicScopeOk s.val
  | .acas d _ _ s => atomicScopeOk s.val && d.val % 2 == 0
  | .csrr _ c pre => csrListed (extU pre 1024 c.val)
  | .csrw _ c pre => csrListed (extU pre 1024 c.val)
  | .csrx _ _ c pre => csrListed (extU pre 1024 c.val)
  | .prd _ p pre => decide (extU pre 1024 p.val ≤ 95)
  | .vread _ _ _ e => decide (e.val ≤ 1)
  | .sev _ => true
  | .trap _ _ => true
  | .sysc _ _ => true
  | .uien _ pre => noExt pre
  | .waitc _ s _ _ _ => decide (s.val ≤ 5)
  | .waitf _ _ _ _ pre => noExt pre
  | .waitb _ _ _ _ _ pre => noExt pre
  | .bara _ _ => true
  | .barw _ _ _ _ pre => noExt pre
  | .fence k s pre => noExt pre && k.val != 0 && fenceScopeOk s.val
  | .bfenceHandle _ => true
  | .trsync _ pre => noExt pre
  | .trsyncAll pre => noExt pre
  | .pub _ _ s => fenceScopeOk s.val
  | .xlate _ _ _ => true
  | .hinv _ => true
  | .kset e _ _ _ _ => engineCodeOk e.val
  | .xset e _ _ _ _ _ => engineCodeOk e.val
  | .loopb e _ f g h i j l pre => noExt pre && loopListOk e.val l.val j.val i.val h.val g.val f.val
  | .tspawn _ _ _ => true
  | .klaunch _ _ _ _ => true
  | .renq _ _ _ e => engineCodeOk e.val
  | .qinit _ _ c => decide (c.val ≤ 10)
  | .qpush _ _ _ => true
  | .qpop _ _ _ => true
  | .qtryPop d _ _ => d.val % 2 == 0
  | .qtryPush d _ _ => d.val % 2 == 0
  | .semw _ _ _ _ pre => noExt pre
  | .semp _ _ => true
  | .ffill _ _ => true
  | .fclr _ _ _ => true
  | .tkset _ _ => true
  | .tkget _ e k => decide (k.val ≤ 4) && (if k.val ≤ 1 then e.val == 0 else decide (1 ≤ e.val ∧ e.val ≤ 4))
  | .ralloc _ c pre => noExt pre && decide (c.val ≤ 2)
  | .rfree _ pre => noExt pre
  | .rpin _ _ pre => noExt pre
  | .runpin _ _ pre => noExt pre
  | .segb _ _ => true
  | .sege _ _ => true
  | .vadd _ a _ _ l => luOk a.val l.val
  | .vsub _ a _ _ l => luOk a.val l.val
  | .vmul _ a _ _ l => luOk a.val l.val
  | .vdiv _ a _ _ l => luOk a.val l.val
  | .vmin _ a _ _ l => luOk a.val l.val
  | .vmax _ a _ _ l => luOk a.val l.val
  | .vabs _ a _ l => luOk a.val l.val
  | .vneg _ a _ l => luOk a.val l.val
  | .vfma d a _ _ l => decide (d.val < 48) && luOk a.val l.val
  | .vfms d a _ _ l => decide (d.val < 48) && luOk a.val l.val
  | .vrcpa _ a _ l => luOk a.val l.val
  | .vrsqa _ a _ l => luOk a.val l.val
  | .vexp2a _ a _ l => luOk a.val l.val
  | .vlog2a _ a _ l => luOk a.val l.val
  | .viadd _ a _ _ l => luOk a.val l.val
  | .visub _ a _ _ l => luOk a.val l.val
  | .vimul _ a _ _ l => luOk a.val l.val
  | .vimin _ a _ _ l => luOk a.val l.val
  | .vimax _ a _ _ l => luOk a.val l.val
  | .vnmin _ a _ _ l => luOk a.val l.val
  | .vnmax _ a _ _ l => luOk a.val l.val
  | .viadds _ a _ _ l => luOk a.val l.val
  | .vnadds _ a _ _ l => luOk a.val l.val
  | .vand _ a _ _ l => luOk a.val l.val
  | .vor _ a _ _ l => luOk a.val l.val
  | .vxor _ a _ _ l => luOk a.val l.val
  | .vnot _ a _ l => luOk a.val l.val
  | .vsll _ a _ _ l => luOk a.val l.val
  | .vsrl _ a _ _ l => luOk a.val l.val
  | .vsra _ a _ _ l => luOk a.val l.val
  | .vpack _ a _ _ l => luOk a.val l.val
  | .vunpk _ a _ _ _ l => luOk a.val l.val
  | .vcvtF16F32 _ a r _ _ l => roundOk r.val && luOk a.val l.val
  | .vcvtBf16F32 _ a r _ _ l => roundOk r.val && luOk a.val l.val
  | .vcvtE4m3F32 _ a r _ _ l => roundOk r.val && luOk a.val l.val
  | .vcvtE5m2F32 _ a r _ _ l => roundOk r.val && luOk a.val l.val
  | .vcvtF32F16 _ a _ l => luOk a.val l.val
  | .vcvtF32Bf16 _ a _ l => luOk a.val l.val
  | .vcvtF32E4m3 _ a _ l => luOk a.val l.val
  | .vcvtF32E5m2 _ a _ l => luOk a.val l.val
  | .vcvtI32F32 _ a r _ l => roundOk r.val && luOk a.val l.val
  | .vcvtN32F32 _ a r _ l => roundOk r.val && luOk a.val l.val
  | .vcvtF32I32 _ a r _ l => roundOk r.val && luOk a.val l.val
  | .vcvtF32N32 _ a r _ l => roundOk r.val && luOk a.val l.val
  | .vcmpEqF32 d _ _ _ => predOk d.val
  | .vcmpNeF32 d _ _ _ => predOk d.val
  | .vcmpLtF32 d _ _ _ => predOk d.val
  | .vcmpLeF32 d _ _ _ => predOk d.val
  | .vcmpEqI32 d _ _ _ => predOk d.val
  | .vcmpLtI32 d _ _ _ => predOk d.val
  | .vcmpLeI32 d _ _ _ => predOk d.val
  | .vcmpLtN32 d _ _ _ => predOk d.val
  | .vcmpLeN32 d _ _ _ => predOk d.val
  | .vpand d a b _ => predOk d.val && predOk a.val && predOk b.val
  | .vpor d a b _ => predOk d.val && predOk a.val && predOk b.val
  | .vpxor d a b _ => predOk d.val && predOk a.val && predOk b.val
  | .vpandn d a b _ => predOk d.val && predOk a.val && predOk b.val
  | .vpsel a => predOk a.val
  | .vmpush a _ => predOk a.val
  | .vskipz n pre => decide (1 ≤ extU pre 65536 n.val ∧ extU pre 65536 n.val ≤ 32)
  | .vredAddF32 _ a _ l => luOk a.val l.val
  | .vredMaxF32 _ a _ l => luOk a.val l.val
  | .vredMinF32 _ a _ l => luOk a.val l.val
  | .vredAddI32 _ a _ l => luOk a.val l.val
  | .vscanAddF32 _ a _ l => luOk a.val l.val
  | .vscanAddI32 _ a _ l => luOk a.val l.val
  | .vperm _ a _ _ l => luOk a.val l.val
  | .vbcst _ _ _ => true
  | .vmov _ a _ l => luOk a.val l.val
  | .vtrn _ _ _ => true
  | .vidx _ _ => true
  | .vfree _ => true
  | .vld _ _ _ _ => true
  | .vst _ a _ _ l => luOk a.val l.val
  | .vgth _ _ _ _ => true
  | .vsct _ a _ _ l => luOk a.val l.val
  | .vbrk _ _ pre => noExt pre
  | .esetV _ => true
  | .ewaitV _ => true
  | .mma _ _ _ _ _ _ _ _ => true
  | .mmag _ _ _ _ _ _ _ _ => true
  | .mmac _ _ _ _ _ _ _ => true
  | .mzero _ => true
  | .mloada _ _ => true
  | .mdrain _ _ r _ => roundOk r.val
  | .mepi _ _ _ r _ => roundOk r.val
  | .mchk _ => true
  | .mbar _ => true
  | .esetM _ => true
  | .ewaitM _ => true
  | .xcpy _ _ _ _ _ => true
  | .xcpyt _ _ _ _ _ => true
  | .xfill _ _ _ _ _ => true
  | .xgth _ _ _ _ _ => true
  | .xsct _ _ _ _ _ => true
  | .xbind _ _ _ _ => true
  | .xunb _ _ _ => true
  | .xclass _ _ _ _ _ => true
  | .xput _ _ _ _ _ => true
  | .xget _ _ _ _ _ => true
  | .xred _ _ _ _ _ => true
  | .xbcst _ _ _ _ _ => true
  | .xpub _ _ _ => true
  | .xchain _ _ _ _ => true
  | .xstat _ _ _ => true
  | .esetX _ => true
  | .ewaitX _ => true
  | .bkadd _ _ _ _ => true
  | .bkaxpy _ _ _ _ => true
  | .bkred _ _ _ _ => true
  | .bkgsum _ _ _ _ => true
  | .bkfill _ _ _ _ => true
  | .bkscal _ _ _ _ => true
  | .bkmax _ _ _ _ => true
  | .bkcas _ _ _ _ => true
  | .esetB _ => true
  | .ewaitB _ => true
  | .dld _ _ _ => true
  | .dst _ _ _ => true
  | .dfromvV _ _ _ _ _ => true
  | .dfromvW _ _ _ _ _ => true
  | .dtag _ _ _ _ => true
  | .dadd _ _ _ => true
  | .daddExact _ _ _ _ => true
  | .dsub _ _ _ => true
  | .dsubExact _ _ _ _ => true
  | .dmul _ _ _ => true
  | .dmulExact _ _ _ _ => true
  | .dmax _ _ _ => true
  | .dmaxExact _ _ _ _ => true
  | .dmin _ _ _ => true
  | .dminExact _ _ _ _ => true
  | .daff _ _ _ _ => true
  | .drelu _ _ => true
  | .dabs _ _ => true
  | .dmix _ _ _ _ _ => true
  | .dcond _ _ => true
  | .dsuml _ _ => true
  | .dmom _ _ k _ => decide (k.val ≤ 2)
  | .dqnt _ _ _ _ => true
  | .dcdf _ _ _ _ => true
  | .esetD _ => true
  | .ewaitD _ => true
  | .nop => true
  | .wfe => true
  | .yield => true
  | .eret => true
  | .halt => true
  | .uiret => true
  | .bfence => true
  | .hinvAll => true
  | .loope => true
  | .tdone => true
  | .vminv => true
  | .vmpop => true
  | .mnop => true
  | .chainBlock sl => slotOk sl
  | .bankCommandExecution _ => true
  | .splitIntoQueue sl => slotOk sl
  | .renqBlockRead sl _ => slotOk sl
  | .commandCompletion _ => true
  | .streamFill sl _ => slotOk sl
  | .streamDrain sl _ => slotOk sl
  | .blockingWaitRelease sl => slotOk sl
  | .waitTimeout sl => slotOk sl
  | .kernelTrapEntry sl => slotOk sl
  | .userInterruptDelivery sl => slotOk sl
  | .conex sl => slotOk sl
  | .taskReplay sl => slotOk sl
  | .taskFailure sl => slotOk sl
  | .admission p => partOk p
  | .readyLevelRaise p _ => partOk p
  | .probeToken sl => slotOk sl
  | .reserveEntryGrant sl => slotOk sl
  | .kilnDraw t _ => tileOk t
  | .grantEnd t _ => tileOk t
  | .revaluation t _ => tileOk t
  | .loanHop p _ => partOk p
  | .regionSpill sl => slotOk sl
  | .regionRefill sl _ => slotOk sl
  | .launchDoorbell fn ctx q _ => fnOk fn && ctxOk ctx && ctxOk q
  | .launchStart p => partOk p
  | .pageRequestResponse fn _ _ => fnOk fn
  | .kernelCompletion _ => true
  | .create fn ctx => fnOk fn && ctxOk ctx
  | .kill fn ctx => fnOk fn && ctxOk ctx
  | .killAcknowledged fn ctx => fnOk fn && ctxOk ctx
  | .preempt fn ctx => fnOk fn && ctxOk ctx
  | .sliceTimer fn ctx => fnOk fn && ctxOk ctx
  | .drainDeadline sl => slotOk sl
  | .taskSave sl => slotOk sl
  | .resume fn ctx => fnOk fn && ctxOk ctx
  | .revoke fn ctx => fnOk fn && ctxOk ctx
  | .release fn ctx => fnOk fn && ctxOk ctx
  | .frameScrub _ => true
  | .curnew fn ctx => fnOk fn && ctxOk ctx
  | .curfund fn ctx => fnOk fn && ctxOk ctx
  | .curdel fn ctx => fnOk fn && ctxOk ctx
  | .pcreate p => partOk p
  | .layoutCommitPhaseTwo => true
  | .pdelete p => partOk p
  | .pbind p => partOk p
  | .punbind p => partOk p
  | .pkeys p => partOk p
  | .pmove p => partOk p
  | .pseed p => partOk p
  | .phandler p => partOk p
  | .reclass p => partOk p
  | .phclear p => partOk p
  | .hostBiasFlip fn => fnOk fn
  | .deviceBiasFlip fn => fnOk fn
  | .biasFlipCompletion fn => fnOk fn
  | .cxlMemAccess _ => true
  | .lockInterface fn _ => fnOk fn
  | .startInterface fn _ => fnOk fn
  | .stopInterface fn => fnOk fn
  | .getVersion fn => fnOk fn
  | .getCapabilities fn => fnOk fn
  | .getDeviceInterfaceReport fn => fnOk fn
  | .getDeviceInterfaceState fn => fnOk fn
  | .measurements _ _ => true
  | .keyExchange _ => true
  | .keyWrite _ => true
  | .flitReceive port _ => portOk port
  | .nagilWrite port _ => portOk port
  | .nagilReadRequest port _ => portOk port
  | .nagilReadReply port _ => portOk port
  | .nagilReduce port _ => portOk port
  | .nagilCompletion port _ => portOk port
  | .nagilError port _ => portOk port
  | .peerTimeout _ => true
  | .sharedStructureEvent _ => true
  | .watchdogFire p => partOk p
  | .partitionReset p => partOk p
  | .periodicBuiltInTest _ => true
  | .clusterRepair c => clusterOk c
  | .mpWatchdogReset => true
  | .mpRestart => true
  | .fatalError _ _ => true
  | .dumpDone => true
  | .dumpWindowRead => true
  | .migrationPreCopy fn => fnOk fn
  | .migrationStopping fn => fnOk fn
  | .migrationResuming fn => fnOk fn
  | .migrationRunning fn => fnOk fn
  | .migrationStreamRead fn => fnOk fn
  | .migrationStreamWrite fn _ => fnOk fn
  | .errbaseWrite fn _ => fnOk fn
  | .drvfeatWrite fn _ => fnOk fn
  | .registerWrite fn _ _ => fnOk fn
  | .functionLevelReset fn => fnOk fn
  | .moduleReset => true
  | .managementProcessorBoot => true
  | .dieBoot => true
  | .hbmTraining => true
  | .clusterBuiltInTest _ => true
  | .dumpAreaReservation => true
  | .hostLinkTraining => true
  | .pwrbrk _ => true
  | .powerAverage _ => true
  | .clockRaise => true
  | .junctionThrottle _ => true
  | .thermAlert _ => true
  | .thermalTrip _ => true
  | .softError _ => true
  | .reclassCompletion p => partOk p

end Sys2Proof
end

