-- ==== Sys2Proof/Decode.lean ====
section
/-!
DEFINITION. Decoding, total on any words and bytes, rejecting by name, and the encoder (R42 to R66).
-/

namespace Sys2Proof

/-- Field of 1 bit at bit lo. -/
def f1 (w lo : Nat) : Fin 2 := ⟨w / 2 ^ lo % 2, Nat.mod_lt _ (by decide)⟩
/-- Field of 2 bits at bit lo. -/
def f2 (w lo : Nat) : Fin 4 := ⟨w / 2 ^ lo % 4, Nat.mod_lt _ (by decide)⟩
/-- Field of 3 bits at bit lo. -/
def f3 (w lo : Nat) : Fin 8 := ⟨w / 2 ^ lo % 8, Nat.mod_lt _ (by decide)⟩
/-- Field of 4 bits at bit lo. -/
def f4 (w lo : Nat) : Fin 16 := ⟨w / 2 ^ lo % 16, Nat.mod_lt _ (by decide)⟩
/-- Field of 6 bits at bit lo. -/
def f6 (w lo : Nat) : Fin 64 := ⟨w / 2 ^ lo % 64, Nat.mod_lt _ (by decide)⟩
/-- Field of 7 bits at bit lo. -/
def f7 (w lo : Nat) : Fin 128 := ⟨w / 2 ^ lo % 128, Nat.mod_lt _ (by decide)⟩
/-- Field of 10 bits at bit lo. -/
def f10 (w lo : Nat) : Fin 1024 := ⟨w / 2 ^ lo % 1024, Nat.mod_lt _ (by decide)⟩
/-- Field of 16 bits at bit lo. -/
def f16 (w lo : Nat) : Fin 65536 := ⟨w / 2 ^ lo % 65536, Nat.mod_lt _ (by decide)⟩
/-- Field of 22 bits at bit lo. -/
def f22 (w lo : Nat) : Fin 4194304 := ⟨w / 2 ^ lo % 4194304, Nat.mod_lt _ (by decide)⟩

/-- A word whose form R53 does not list accepts no prefix. -/
def plain (pre : Option Payload) (i : Instr) : Except Reject Instr :=
  match pre with
  | none => .ok i
  | some _ => .error .prefixForbidden

/-- Words of the C engine: the opcode picks the row, the fixed fields must hold (R43, R66). -/
def decodeC (op w : Nat) (pre : Option Payload) : Except Reject Instr :=
  match op with
  | 1 =>  if field w 0 4 == 0 then plain pre (.add (f6 w 16) (f6 w 10) (f6 w 4)) else .error .reserved
  | 2 =>  if field w 0 4 == 0 then plain pre (.sub (f6 w 16) (f6 w 10) (f6 w 4)) else .error .reserved
  | 3 =>  if field w 0 4 == 0 then plain pre (.and (f6 w 16) (f6 w 10) (f6 w 4)) else .error .reserved
  | 4 =>  if field w 0 4 == 0 then plain pre (.or (f6 w 16) (f6 w 10) (f6 w 4)) else .error .reserved
  | 5 =>  if field w 0 4 == 0 then plain pre (.xor (f6 w 16) (f6 w 10) (f6 w 4)) else .error .reserved
  | 6 =>  if field w 0 4 == 0 then plain pre (.sll (f6 w 16) (f6 w 10) (f6 w 4)) else .error .reserved
  | 7 =>  if field w 0 4 == 0 then plain pre (.srl (f6 w 16) (f6 w 10) (f6 w 4)) else .error .reserved
  | 8 =>  if field w 0 4 == 0 then plain pre (.sra (f6 w 16) (f6 w 10) (f6 w 4)) else .error .reserved
  | 9 =>  if field w 0 4 == 0 then plain pre (.slt (f6 w 16) (f6 w 10) (f6 w 4)) else .error .reserved
  | 10 =>  if field w 0 4 == 0 then plain pre (.sltu (f6 w 16) (f6 w 10) (f6 w 4)) else .error .reserved
  | 11 =>  if field w 0 4 == 0 then plain pre (.min (f6 w 16) (f6 w 10) (f6 w 4)) else .error .reserved
  | 12 =>  if field w 0 4 == 0 then plain pre (.max (f6 w 16) (f6 w 10) (f6 w 4)) else .error .reserved
  | 13 =>  if field w 0 4 == 0 then plain pre (.minu (f6 w 16) (f6 w 10) (f6 w 4)) else .error .reserved
  | 14 =>  if field w 0 4 == 0 then plain pre (.maxu (f6 w 16) (f6 w 10) (f6 w 4)) else .error .reserved
  | 15 =>  if field w 0 4 == 0 then plain pre (.sel (f6 w 16) (f6 w 10) (f6 w 4)) else .error .reserved
  | 16 =>  if field w 0 4 == 0 then plain pre (.mul (f6 w 16) (f6 w 10) (f6 w 4)) else .error .reserved
  | 17 =>  if field w 0 4 == 0 then plain pre (.mulh (f6 w 16) (f6 w 10) (f6 w 4)) else .error .reserved
  | 18 =>  if field w 0 4 == 0 then plain pre (.mulhu (f6 w 16) (f6 w 10) (f6 w 4)) else .error .reserved
  | 19 =>  if field w 0 4 == 0 then plain pre (.div (f6 w 16) (f6 w 10) (f6 w 4)) else .error .reserved
  | 20 =>  if field w 0 4 == 0 then plain pre (.divu (f6 w 16) (f6 w 10) (f6 w 4)) else .error .reserved
  | 21 =>  if field w 0 4 == 0 then plain pre (.rem (f6 w 16) (f6 w 10) (f6 w 4)) else .error .reserved
  | 22 =>  if field w 0 4 == 0 then plain pre (.remu (f6 w 16) (f6 w 10) (f6 w 4)) else .error .reserved
  | 24 =>  if field w 0 10 == 0 then plain pre (.clz (f6 w 16) (f6 w 10)) else .error .reserved
  | 25 =>  if field w 0 10 == 0 then plain pre (.ctz (f6 w 16) (f6 w 10)) else .error .reserved
  | 26 =>  if field w 0 10 == 0 then plain pre (.popc (f6 w 16) (f6 w 10)) else .error .reserved
  | 27 =>  if field w 4 6 == 0 then plain pre (.sext (f6 w 16) (f6 w 10) (f4 w 0)) else .error .reserved
  | 28 =>  if field w 4 6 == 0 then plain pre (.zext (f6 w 16) (f6 w 10) (f4 w 0)) else .error .reserved
  | 32 =>  .ok (.addi (f6 w 16) (f6 w 10) (f10 w 0) pre)
  | 33 =>  .ok (.andi (f6 w 16) (f6 w 10) (f10 w 0) pre)
  | 34 =>  .ok (.ori (f6 w 16) (f6 w 10) (f10 w 0) pre)
  | 35 =>  .ok (.xori (f6 w 16) (f6 w 10) (f10 w 0) pre)
  | 36 =>  .ok (.slli (f6 w 16) (f6 w 10) (f10 w 0) pre)
  | 37 =>  .ok (.srli (f6 w 16) (f6 w 10) (f10 w 0) pre)
  | 38 =>  .ok (.srai (f6 w 16) (f6 w 10) (f10 w 0) pre)
  | 39 =>  .ok (.slti (f6 w 16) (f6 w 10) (f10 w 0) pre)
  | 40 =>  .ok (.sltiu (f6 w 16) (f6 w 10) (f10 w 0) pre)
  | 41 =>  .ok (.movi (f6 w 16) (f16 w 0) pre)
  | 42 =>  plain pre (.movs (f6 w 16) (f16 w 0))
  | 48 =>  if field w 3 1 == 0 then plain pre (.fadd (f6 w 16) (f6 w 10) (f6 w 4) (f3 w 0)) else .error .reserved
  | 49 =>  if field w 3 1 == 0 then plain pre (.fsub (f6 w 16) (f6 w 10) (f6 w 4) (f3 w 0)) else .error .reserved
  | 50 =>  if field w 3 1 == 0 then plain pre (.fmul (f6 w 16) (f6 w 10) (f6 w 4) (f3 w 0)) else .error .reserved
  | 51 =>  if field w 3 1 == 0 then plain pre (.fdiv (f6 w 16) (f6 w 10) (f6 w 4) (f3 w 0)) else .error .reserved
  | 52 =>  if field w 3 7 == 0 then plain pre (.fsqrt (f6 w 16) (f6 w 10) (f3 w 0)) else .error .reserved
  | 53 =>  if field w 0 4 == 0 then plain pre (.fmin (f6 w 16) (f6 w 10) (f6 w 4)) else .error .reserved
  | 54 =>  if field w 0 4 == 0 then plain pre (.fmax (f6 w 16) (f6 w 10) (f6 w 4)) else .error .reserved
  | 55 =>  if field w 3 1 == 0 then plain pre (.fma (f6 w 16) (f6 w 10) (f6 w 4) (f3 w 0)) else .error .reserved
  | 56 =>  plain pre (.fcmp (f6 w 16) (f6 w 10) (f6 w 4) (f4 w 0))
  | 57 =>  plain pre (.fcvt (f6 w 16) (f6 w 10) (f6 w 4) (f1 w 3) (f3 w 0))
  | 58 =>  if field w 0 10 == 0 then plain pre (.fclass (f6 w 16) (f6 w 10)) else .error .reserved
  | 64 =>  .ok (.beq (f6 w 16) (f6 w 10) (f10 w 0) pre)
  | 65 =>  .ok (.bne (f6 w 16) (f6 w 10) (f10 w 0) pre)
  | 66 =>  .ok (.blt (f6 w 16) (f6 w 10) (f10 w 0) pre)
  | 67 =>  .ok (.bge (f6 w 16) (f6 w 10) (f10 w 0) pre)
  | 68 =>  .ok (.bltu (f6 w 16) (f6 w 10) (f10 w 0) pre)
  | 69 =>  .ok (.bgeu (f6 w 16) (f6 w 10) (f10 w 0) pre)
  | 70 =>  .ok (.j (f22 w 0) pre)
  | 71 =>  .ok (.jal (f22 w 0) pre)
  | 72 =>  .ok (.jalr (f6 w 16) (f6 w 10) (f10 w 0) pre)
  | 80 =>  if field w 14 2 == 0 then plain pre (.ld (f6 w 16) (f4 w 10) (f6 w 4) (f4 w 0)) else .error .reserved
  | 81 =>  if field w 14 2 == 0 then plain pre (.st (f6 w 16) (f4 w 10) (f6 w 4) (f4 w 0)) else .error .reserved
  | 82 =>  .ok (.ldl (f6 w 16) (f6 w 10) (f3 w 7) (f7 w 0) pre)
  | 83 =>  .ok (.stl (f6 w 16) (f6 w 10) (f3 w 7) (f7 w 0) pre)
  | 84 =>  if field w 0 4 == 0 && field w 14 2 == 0 then plain pre (.ldf (f6 w 16) (f4 w 10) (f6 w 4)) else .error .reserved
  | 85 =>  if field w 0 4 == 0 && field w 14 2 == 0 then plain pre (.stf (f6 w 16) (f4 w 10) (f6 w 4)) else .error .reserved
  | 88 =>  if field w 14 2 == 0 then plain pre (.aadd (f6 w 16) (f4 w 10) (f6 w 4) (f4 w 0)) else .error .reserved
  | 89 =>  if field w 14 2 == 0 then plain pre (.aand (f6 w 16) (f4 w 10) (f6 w 4) (f4 w 0)) else .error .reserved
  | 90 =>  if field w 14 2 == 0 then plain pre (.aor (f6 w 16) (f4 w 10) (f6 w 4) (f4 w 0)) else .error .reserved
  | 91 =>  if field w 14 2 == 0 then plain pre (.axor (f6 w 16) (f4 w 10) (f6 w 4) (f4 w 0)) else .error .reserved
  | 92 =>  if field w 14 2 == 0 then plain pre (.amin (f6 w 16) (f4 w 10) (f6 w 4) (f4 w 0)) else .error .reserved
  | 93 =>  if field w 14 2 == 0 then plain pre (.amax (f6 w 16) (f4 w 10) (f6 w 4) (f4 w 0)) else .error .reserved
  | 94 =>  if field w 14 2 == 0 then plain pre (.aswp (f6 w 16) (f4 w 10) (f6 w 4) (f4 w 0)) else .error .reserved
  | 95 =>  if field w 14 2 == 0 then plain pre (.acas (f6 w 16) (f4 w 10) (f6 w 4) (f4 w 0)) else .error .reserved
  | 96 =>  if field w 10 6 == 0 then .ok (.csrr (f6 w 16) (f10 w 0) pre) else .error .reserved
  | 97 =>  if field w 16 6 == 0 then .ok (.csrw (f6 w 10) (f10 w 0) pre) else .error .reserved
  | 98 =>  .ok (.csrx (f6 w 16) (f6 w 10) (f10 w 0) pre)
  | 99 =>  if field w 10 6 == 0 then .ok (.prd (f6 w 16) (f10 w 0) pre) else .error .reserved
  | 100 =>  if field w 14 2 == 0 then plain pre (.vread (f6 w 16) (f4 w 10) (f6 w 4) (f4 w 0)) else .error .reserved
  | _ => .error .unassigned

/-- Words of the S engine: the opcode picks the row, the fixed fields must hold (R43, R66). -/
def decodeS (op w : Nat) (pre : Option Payload) : Except Reject Instr :=
  match op with
  | 0 =>  if field w 0 22 == 0 then plain pre .nop else .error .reserved
  | 1 =>  if field w 0 22 == 0 then plain pre .wfe else .error .reserved
  | 2 =>  if field w 1 21 == 0 then plain pre (.sev (f1 w 0)) else .error .reserved
  | 3 =>  if field w 0 22 == 0 then plain pre .yield else .error .reserved
  | 4 =>  if field w 16 6 == 0 then .ok (.trap (f16 w 0) pre) else .error .reserved
  | 5 =>  if field w 16 6 == 0 then .ok (.sysc (f16 w 0) pre) else .error .reserved
  | 6 =>  if field w 0 22 == 0 then plain pre .eret else .error .reserved
  | 7 =>  if field w 0 22 == 0 then plain pre .halt else .error .reserved
  | 8 =>  if field w 0 22 == 0 then plain pre .uiret else .error .reserved
  | 9 =>  if field w 1 21 == 0 then .ok (.uien (f1 w 0) pre) else .error .reserved
  | 16 =>  .ok (.waitc (f6 w 16) (f6 w 10) (f6 w 4) (f4 w 0) pre)
  | 17 =>  if field w 11 5 == 0 then .ok (.waitf (f6 w 16) (f1 w 10) (f6 w 4) (f4 w 0) pre) else .error .reserved
  | 18 =>  if field w 6 4 == 0 then .ok (.waitb (f6 w 16) (f6 w 10) (f1 w 5) (f1 w 4) (f4 w 0) pre) else .error .reserved
  | 19 =>  if field w 2 14 == 0 then plain pre (.bara (f6 w 16) (f2 w 0)) else .error .reserved
  | 20 =>  if field w 6 4 == 0 then .ok (.barw (f6 w 16) (f6 w 10) (f2 w 4) (f4 w 0) pre) else .error .reserved
  | 24 =>  if field w 6 16 == 0 then .ok (.fence (f2 w 4) (f4 w 0) pre) else .error .reserved
  | 25 =>  if field w 0 10 == 1 && field w 14 8 == 0 then plain pre (.bfenceHandle (f4 w 10)) else  if field w 0 22 == 0 then plain pre .bfence else .error .reserved
  | 26 =>  if field w 0 10 == 0 && field w 16 6 == 0 then .ok (.trsync (f6 w 10) pre) else  if field w 0 22 == 1 then .ok (.trsyncAll pre) else .error .reserved
  | 27 =>  if field w 4 6 == 0 then plain pre (.pub (f6 w 16) (f6 w 10) (f4 w 0)) else .error .reserved
  | 28 =>  if field w 0 4 == 0 && field w 20 2 == 0 then plain pre (.xlate (f4 w 16) (f6 w 10) (f6 w 4)) else .error .reserved
  | 29 =>  if field w 0 16 == 0 && field w 20 2 == 0 then plain pre (.hinv (f4 w 16)) else  if field w 0 22 == 1 then plain pre .hinvAll else .error .reserved
  | 32 =>  .ok (.kset (f3 w 19) (f3 w 16) (f6 w 10) (f10 w 0) pre)
  | 33 =>  if field w 3 1 == 0 then plain pre (.xset (f3 w 19) (f3 w 16) (f6 w 10) (f6 w 4) (f1 w 2) (f2 w 0)) else .error .reserved
  | 34 =>  if field w 15 1 == 0 then .ok (.loopb (f3 w 19) (f3 w 16) (f3 w 12) (f2 w 10) (f3 w 7) (f2 w 5) (f3 w 2) (f2 w 0) pre) else .error .reserved
  | 35 =>  if field w 0 22 == 0 then plain pre .loope else .error .reserved
  | 40 =>  if field w 0 4 == 0 && field w 14 2 == 0 then plain pre (.tspawn (f6 w 16) (f4 w 10) (f6 w 4)) else .error .reserved
  | 41 =>  if field w 0 22 == 0 then plain pre .tdone else .error .reserved
  | 42 =>  if field w 3 1 == 0 && field w 14 2 == 0 then plain pre (.klaunch (f6 w 16) (f4 w 10) (f6 w 4) (f3 w 0)) else .error .reserved
  | 43 =>  if field w 3 1 == 0 then plain pre (.renq (f6 w 16) (f6 w 10) (f6 w 4) (f3 w 0)) else .error .reserved
  | 48 =>  if field w 14 8 == 0 then plain pre (.qinit (f4 w 10) (f6 w 4) (f4 w 0)) else .error .reserved
  | 49 =>  if field w 0 4 == 0 && field w 14 2 == 0 then plain pre (.qpush (f6 w 16) (f4 w 10) (f6 w 4)) else .error .reserved
  | 50 =>  if field w 0 4 == 0 && field w 14 2 == 0 then plain pre (.qpop (f6 w 16) (f4 w 10) (f6 w 4)) else .error .reserved
  | 51 =>  if field w 0 4 == 0 && field w 14 2 == 0 then plain pre (.qtryPop (f6 w 16) (f4 w 10) (f6 w 4)) else  if field w 0 4 == 1 && field w 14 2 == 0 then plain pre (.qtryPush (f6 w 16) (f4 w 10) (f6 w 4)) else .error .reserved
  | 52 =>  if field w 8 2 == 0 then .ok (.semw (f6 w 16) (f6 w 10) (f4 w 4) (f4 w 0) pre) else .error .reserved
  | 53 =>  if field w 0 4 == 0 && field w 14 8 == 0 then plain pre (.semp (f4 w 10) (f6 w 4)) else .error .reserved
  | 54 =>  if field w 0 4 == 0 && field w 14 8 == 0 then plain pre (.ffill (f4 w 10) (f6 w 4)) else .error .reserved
  | 55 =>  if field w 0 4 == 0 && field w 14 2 == 0 then plain pre (.fclr (f6 w 16) (f4 w 10) (f6 w 4)) else .error .reserved
  | 56 =>  if field w 0 10 == 0 then plain pre (.tkset (f6 w 16) (f6 w 10)) else .error .reserved
  | 57 =>  if field w 4 6 == 0 && field w 13 3 == 0 then plain pre (.tkget (f6 w 16) (f3 w 10) (f4 w 0)) else .error .reserved
  | 58 =>  if field w 2 14 == 0 then .ok (.ralloc (f6 w 16) (f2 w 0) pre) else .error .reserved
  | 59 =>  if field w 4 18 == 0 then .ok (.rfree (f4 w 0) pre) else .error .reserved
  | 60 =>  if field w 4 12 == 1 then .ok (.rpin (f6 w 16) (f4 w 0) pre) else  if field w 4 12 == 0 then .ok (.runpin (f6 w 16) (f4 w 0) pre) else .error .reserved
  | 61 =>  if field w 16 6 == 0 then .ok (.segb (f16 w 0) pre) else .error .reserved
  | 62 =>  if field w 16 6 == 0 then .ok (.sege (f16 w 0) pre) else .error .reserved
  | _ => .error .unassigned

/-- Words of the V engine: the opcode picks the row, the fixed fields must hold (R43, R66). -/
def decodeV (op w : Nat) (pre : Option Payload) : Except Reject Instr :=
  match op with
  | 0 =>  plain pre (.vadd (f6 w 16) (f6 w 10) (f6 w 4) (f3 w 1) (f1 w 0))
  | 1 =>  plain pre (.vsub (f6 w 16) (f6 w 10) (f6 w 4) (f3 w 1) (f1 w 0))
  | 2 =>  plain pre (.vmul (f6 w 16) (f6 w 10) (f6 w 4) (f3 w 1) (f1 w 0))
  | 3 =>  plain pre (.vdiv (f6 w 16) (f6 w 10) (f6 w 4) (f3 w 1) (f1 w 0))
  | 4 =>  plain pre (.vmin (f6 w 16) (f6 w 10) (f6 w 4) (f3 w 1) (f1 w 0))
  | 5 =>  plain pre (.vmax (f6 w 16) (f6 w 10) (f6 w 4) (f3 w 1) (f1 w 0))
  | 6 =>  if field w 4 6 == 0 then plain pre (.vabs (f6 w 16) (f6 w 10) (f3 w 1) (f1 w 0)) else .error .reserved
  | 7 =>  if field w 4 6 == 0 then plain pre (.vneg (f6 w 16) (f6 w 10) (f3 w 1) (f1 w 0)) else .error .reserved
  | 8 =>  plain pre (.vfma (f6 w 16) (f6 w 10) (f6 w 4) (f3 w 1) (f1 w 0))
  | 9 =>  plain pre (.vfms (f6 w 16) (f6 w 10) (f6 w 4) (f3 w 1) (f1 w 0))
  | 10 =>  if field w 4 6 == 0 then plain pre (.vrcpa (f6 w 16) (f6 w 10) (f3 w 1) (f1 w 0)) else .error .reserved
  | 11 =>  if field w 4 6 == 0 then plain pre (.vrsqa (f6 w 16) (f6 w 10) (f3 w 1) (f1 w 0)) else .error .reserved
  | 12 =>  if field w 4 6 == 0 then plain pre (.vexp2a (f6 w 16) (f6 w 10) (f3 w 1) (f1 w 0)) else .error .reserved
  | 13 =>  if field w 4 6 == 0 then plain pre (.vlog2a (f6 w 16) (f6 w 10) (f3 w 1) (f1 w 0)) else .error .reserved
  | 16 =>  plain pre (.viadd (f6 w 16) (f6 w 10) (f6 w 4) (f3 w 1) (f1 w 0))
  | 17 =>  plain pre (.visub (f6 w 16) (f6 w 10) (f6 w 4) (f3 w 1) (f1 w 0))
  | 18 =>  plain pre (.vimul (f6 w 16) (f6 w 10) (f6 w 4) (f3 w 1) (f1 w 0))
  | 19 =>  plain pre (.vimin (f6 w 16) (f6 w 10) (f6 w 4) (f3 w 1) (f1 w 0))
  | 20 =>  plain pre (.vimax (f6 w 16) (f6 w 10) (f6 w 4) (f3 w 1) (f1 w 0))
  | 21 =>  plain pre (.vnmin (f6 w 16) (f6 w 10) (f6 w 4) (f3 w 1) (f1 w 0))
  | 22 =>  plain pre (.vnmax (f6 w 16) (f6 w 10) (f6 w 4) (f3 w 1) (f1 w 0))
  | 23 =>  plain pre (.viadds (f6 w 16) (f6 w 10) (f6 w 4) (f3 w 1) (f1 w 0))
  | 24 =>  plain pre (.vnadds (f6 w 16) (f6 w 10) (f6 w 4) (f3 w 1) (f1 w 0))
  | 32 =>  plain pre (.vand (f6 w 16) (f6 w 10) (f6 w 4) (f3 w 1) (f1 w 0))
  | 33 =>  plain pre (.vor (f6 w 16) (f6 w 10) (f6 w 4) (f3 w 1) (f1 w 0))
  | 34 =>  plain pre (.vxor (f6 w 16) (f6 w 10) (f6 w 4) (f3 w 1) (f1 w 0))
  | 35 =>  if field w 4 6 == 0 then plain pre (.vnot (f6 w 16) (f6 w 10) (f3 w 1) (f1 w 0)) else .error .reserved
  | 36 =>  plain pre (.vsll (f6 w 16) (f6 w 10) (f6 w 4) (f3 w 1) (f1 w 0))
  | 37 =>  plain pre (.vsrl (f6 w 16) (f6 w 10) (f6 w 4) (f3 w 1) (f1 w 0))
  | 38 =>  plain pre (.vsra (f6 w 16) (f6 w 10) (f6 w 4) (f3 w 1) (f1 w 0))
  | 40 =>  plain pre (.vpack (f6 w 16) (f6 w 10) (f6 w 4) (f3 w 1) (f1 w 0))
  | 41 =>  if field w 6 4 == 0 then plain pre (.vunpk (f6 w 16) (f6 w 10) (f1 w 5) (f1 w 4) (f3 w 1) (f1 w 0)) else .error .reserved
  | 48 =>  if field w 4 2 == 0 then plain pre (.vcvtF16F32 (f6 w 16) (f6 w 10) (f3 w 7) (f1 w 6) (f3 w 1) (f1 w 0)) else .error .reserved
  | 49 =>  if field w 4 2 == 0 then plain pre (.vcvtBf16F32 (f6 w 16) (f6 w 10) (f3 w 7) (f1 w 6) (f3 w 1) (f1 w 0)) else .error .reserved
  | 50 =>  if field w 4 2 == 0 then plain pre (.vcvtE4m3F32 (f6 w 16) (f6 w 10) (f3 w 7) (f1 w 6) (f3 w 1) (f1 w 0)) else .error .reserved
  | 51 =>  if field w 4 2 == 0 then plain pre (.vcvtE5m2F32 (f6 w 16) (f6 w 10) (f3 w 7) (f1 w 6) (f3 w 1) (f1 w 0)) else .error .reserved
  | 52 =>  if field w 4 6 == 0 then plain pre (.vcvtF32F16 (f6 w 16) (f6 w 10) (f3 w 1) (f1 w 0)) else .error .reserved
  | 53 =>  if field w 4 6 == 0 then plain pre (.vcvtF32Bf16 (f6 w 16) (f6 w 10) (f3 w 1) (f1 w 0)) else .error .reserved
  | 54 =>  if field w 4 6 == 0 then plain pre (.vcvtF32E4m3 (f6 w 16) (f6 w 10) (f3 w 1) (f1 w 0)) else .error .reserved
  | 55 =>  if field w 4 6 == 0 then plain pre (.vcvtF32E5m2 (f6 w 16) (f6 w 10) (f3 w 1) (f1 w 0)) else .error .reserved
  | 56 =>  if field w 4 3 == 0 then plain pre (.vcvtI32F32 (f6 w 16) (f6 w 10) (f3 w 7) (f3 w 1) (f1 w 0)) else .error .reserved
  | 57 =>  if field w 4 3 == 0 then plain pre (.vcvtN32F32 (f6 w 16) (f6 w 10) (f3 w 7) (f3 w 1) (f1 w 0)) else .error .reserved
  | 58 =>  if field w 4 3 == 0 then plain pre (.vcvtF32I32 (f6 w 16) (f6 w 10) (f3 w 7) (f3 w 1) (f1 w 0)) else .error .reserved
  | 59 =>  if field w 4 3 == 0 then plain pre (.vcvtF32N32 (f6 w 16) (f6 w 10) (f3 w 7) (f3 w 1) (f1 w 0)) else .error .reserved
  | 64 =>  plain pre (.vcmpEqF32 (f7 w 15) (f6 w 9) (f6 w 3) (f3 w 0))
  | 65 =>  plain pre (.vcmpNeF32 (f7 w 15) (f6 w 9) (f6 w 3) (f3 w 0))
  | 66 =>  plain pre (.vcmpLtF32 (f7 w 15) (f6 w 9) (f6 w 3) (f3 w 0))
  | 67 =>  plain pre (.vcmpLeF32 (f7 w 15) (f6 w 9) (f6 w 3) (f3 w 0))
  | 68 =>  plain pre (.vcmpEqI32 (f7 w 15) (f6 w 9) (f6 w 3) (f3 w 0))
  | 69 =>  plain pre (.vcmpLtI32 (f7 w 15) (f6 w 9) (f6 w 3) (f3 w 0))
  | 70 =>  plain pre (.vcmpLeI32 (f7 w 15) (f6 w 9) (f6 w 3) (f3 w 0))
  | 71 =>  plain pre (.vcmpLtN32 (f7 w 15) (f6 w 9) (f6 w 3) (f3 w 0))
  | 72 =>  plain pre (.vcmpLeN32 (f7 w 15) (f6 w 9) (f6 w 3) (f3 w 0))
  | 80 =>  plain pre (.vpand (f7 w 15) (f7 w 8) (f7 w 1) (f1 w 0))
  | 81 =>  plain pre (.vpor (f7 w 15) (f7 w 8) (f7 w 1) (f1 w 0))
  | 82 =>  plain pre (.vpxor (f7 w 15) (f7 w 8) (f7 w 1) (f1 w 0))
  | 83 =>  plain pre (.vpandn (f7 w 15) (f7 w 8) (f7 w 1) (f1 w 0))
  | 84 =>  if field w 0 8 == 0 && field w 15 7 == 0 then plain pre (.vpsel (f7 w 8)) else .error .reserved
  | 85 =>  if field w 1 7 == 0 && field w 15 7 == 0 then plain pre (.vmpush (f7 w 8) (f1 w 0)) else .error .reserved
  | 86 =>  if field w 0 22 == 0 then plain pre .vminv else .error .reserved
  | 87 =>  if field w 0 22 == 0 then plain pre .vmpop else .error .reserved
  | 88 =>  if field w 16 6 == 0 then .ok (.vskipz (f16 w 0) pre) else .error .reserved
  | 96 =>  if field w 4 6 == 0 then plain pre (.vredAddF32 (f6 w 16) (f6 w 10) (f3 w 1) (f1 w 0)) else .error .reserved
  | 97 =>  if field w 4 6 == 0 then plain pre (.vredMaxF32 (f6 w 16) (f6 w 10) (f3 w 1) (f1 w 0)) else .error .reserved
  | 98 =>  if field w 4 6 == 0 then plain pre (.vredMinF32 (f6 w 16) (f6 w 10) (f3 w 1) (f1 w 0)) else .error .reserved
  | 99 =>  if field w 4 6 == 0 then plain pre (.vredAddI32 (f6 w 16) (f6 w 10) (f3 w 1) (f1 w 0)) else .error .reserved
  | 100 =>  if field w 4 6 == 0 then plain pre (.vscanAddF32 (f6 w 16) (f6 w 10) (f3 w 1) (f1 w 0)) else .error .reserved
  | 101 =>  if field w 4 6 == 0 then plain pre (.vscanAddI32 (f6 w 16) (f6 w 10) (f3 w 1) (f1 w 0)) else .error .reserved
  | 102 =>  plain pre (.vperm (f6 w 16) (f6 w 10) (f6 w 4) (f3 w 1) (f1 w 0))
  | 103 =>  if field w 0 1 == 0 && field w 4 6 == 0 then plain pre (.vbcst (f6 w 16) (f6 w 10) (f3 w 1)) else .error .reserved
  | 104 =>  if field w 4 6 == 0 then plain pre (.vmov (f6 w 16) (f6 w 10) (f3 w 1) (f1 w 0)) else .error .reserved
  | 105 =>  if field w 1 9 == 0 && field w 14 2 == 0 && field w 20 2 == 0 then plain pre (.vtrn (f4 w 16) (f4 w 10) (f1 w 0)) else .error .reserved
  | 106 =>  if field w 0 1 == 0 && field w 4 12 == 0 then plain pre (.vidx (f6 w 16) (f3 w 1)) else .error .reserved
  | 107 =>  if field w 0 16 == 0 && field w 20 2 == 0 then plain pre (.vfree (f4 w 16)) else .error .reserved
  | 112 =>  if field w 0 1 == 0 then plain pre (.vld (f6 w 16) (f6 w 10) (f6 w 4) (f3 w 1)) else .error .reserved
  | 113 =>  plain pre (.vst (f6 w 16) (f6 w 10) (f6 w 4) (f3 w 1) (f1 w 0))
  | 114 =>  if field w 0 1 == 0 then plain pre (.vgth (f6 w 16) (f6 w 10) (f6 w 4) (f3 w 1)) else .error .reserved
  | 115 =>  plain pre (.vsct (f6 w 16) (f6 w 10) (f6 w 4) (f3 w 1) (f1 w 0))
  | 116 =>  if field w 3 19 == 0 then .ok (.vbrk (f1 w 2) (f2 w 0) pre) else .error .reserved
  | 126 =>  if field w 4 18 == 0 then plain pre (.esetV (f4 w 0)) else .error .reserved
  | 127 =>  if field w 4 18 == 0 then plain pre (.ewaitV (f4 w 0)) else .error .reserved
  | _ => .error .unassigned

/-- Words of the M engine: the opcode picks the row, the fixed fields must hold (R43, R66). -/
def decodeM (op w : Nat) (pre : Option Payload) : Except Reject Instr :=
  match op with
  | 0 =>  if field w 0 22 == 0 then plain pre .mnop else .error .reserved
  | 1 =>  if field w 4 1 == 0 then plain pre (.mma (f2 w 20) (f6 w 14) (f6 w 8) (f3 w 5) (f1 w 3) (f1 w 2) (f1 w 1) (f1 w 0)) else .error .reserved
  | 2 =>  if field w 4 1 == 0 then plain pre (.mmag (f2 w 20) (f6 w 14) (f6 w 8) (f3 w 5) (f1 w 3) (f1 w 2) (f1 w 1) (f1 w 0)) else .error .reserved
  | 3 =>  if field w 2 1 == 1 && field w 4 1 == 0 then plain pre (.mmac (f2 w 20) (f6 w 14) (f6 w 8) (f3 w 5) (f1 w 3) (f1 w 1) (f1 w 0)) else .error .reserved
  | 4 =>  if field w 0 20 == 0 then plain pre (.mzero (f2 w 20)) else .error .reserved
  | 5 =>  if field w 0 14 == 0 then plain pre (.mloada (f2 w 20) (f6 w 14)) else .error .reserved
  | 6 =>  if field w 0 4 == 0 && field w 8 6 == 0 then plain pre (.mdrain (f2 w 20) (f6 w 14) (f3 w 5) (f1 w 4)) else .error .reserved
  | 7 =>  if field w 0 4 == 0 then plain pre (.mepi (f2 w 20) (f6 w 14) (f6 w 8) (f3 w 5) (f1 w 4)) else .error .reserved
  | 8 =>  if field w 0 20 == 0 then plain pre (.mchk (f2 w 20)) else .error .reserved
  | 9 =>  if field w 0 14 == 0 && field w 20 2 == 0 then plain pre (.mbar (f6 w 14)) else .error .reserved
  | 126 =>  if field w 4 18 == 0 then plain pre (.esetM (f4 w 0)) else .error .reserved
  | 127 =>  if field w 4 18 == 0 then plain pre (.ewaitM (f4 w 0)) else .error .reserved
  | _ => .error .unassigned

/-- Words of the X engine: the opcode picks the row, the fixed fields must hold (R43, R66). -/
def decodeX (op w : Nat) (pre : Option Payload) : Except Reject Instr :=
  match op with
  | 0 =>  if field w 2 2 == 0 then plain pre (.xcpy (f6 w 16) (f6 w 10) (f6 w 4) (f1 w 1) (f1 w 0)) else .error .reserved
  | 1 =>  if field w 2 2 == 0 then plain pre (.xcpyt (f6 w 16) (f6 w 10) (f6 w 4) (f1 w 1) (f1 w 0)) else .error .reserved
  | 2 =>  if field w 2 2 == 0 then plain pre (.xfill (f6 w 16) (f6 w 10) (f6 w 4) (f1 w 1) (f1 w 0)) else .error .reserved
  | 3 =>  if field w 2 2 == 0 then plain pre (.xgth (f6 w 16) (f6 w 10) (f6 w 4) (f1 w 1) (f1 w 0)) else .error .reserved
  | 4 =>  if field w 2 2 == 0 then plain pre (.xsct (f6 w 16) (f6 w 10) (f6 w 4) (f1 w 1) (f1 w 0)) else .error .reserved
  | 5 =>  if field w 1 3 == 0 then plain pre (.xbind (f6 w 16) (f6 w 10) (f6 w 4) (f1 w 0)) else .error .reserved
  | 6 =>  if field w 1 9 == 0 then plain pre (.xunb (f6 w 16) (f6 w 10) (f1 w 0)) else .error .reserved
  | 7 =>  if field w 2 2 == 0 then plain pre (.xclass (f6 w 16) (f6 w 10) (f6 w 4) (f1 w 1) (f1 w 0)) else .error .reserved
  | 8 =>  if field w 2 2 == 0 then plain pre (.xput (f6 w 16) (f6 w 10) (f6 w 4) (f1 w 1) (f1 w 0)) else .error .reserved
  | 9 =>  if field w 2 2 == 0 then plain pre (.xget (f6 w 16) (f6 w 10) (f6 w 4) (f1 w 1) (f1 w 0)) else .error .reserved
  | 10 =>  if field w 2 2 == 0 then plain pre (.xred (f6 w 16) (f6 w 10) (f6 w 4) (f1 w 1) (f1 w 0)) else .error .reserved
  | 11 =>  if field w 2 2 == 0 then plain pre (.xbcst (f6 w 16) (f6 w 10) (f6 w 4) (f1 w 1) (f1 w 0)) else .error .reserved
  | 12 =>  if field w 1 9 == 0 then plain pre (.xpub (f6 w 16) (f6 w 10) (f1 w 0)) else .error .reserved
  | 13 =>  if field w 1 3 == 0 then plain pre (.xchain (f6 w 16) (f6 w 10) (f6 w 4) (f1 w 0)) else .error .reserved
  | 14 =>  if field w 1 9 == 0 then plain pre (.xstat (f6 w 16) (f6 w 10) (f1 w 0)) else .error .reserved
  | 126 =>  if field w 4 18 == 0 then plain pre (.esetX (f4 w 0)) else .error .reserved
  | 127 =>  if field w 4 18 == 0 then plain pre (.ewaitX (f4 w 0)) else .error .reserved
  | _ => .error .unassigned

/-- Words of the D engine: the opcode picks the row, the fixed fields must hold (R43, R66). -/
noncomputable def decodeD (op w : Nat) (pre : Option Payload) : Except Reject Instr :=
  match op with
  | 0 =>  if field w 0 1 == 0 && field w 10 8 == 0 then plain pre (.dld (f4 w 18) (f6 w 4) (f3 w 1)) else .error .reserved
  | 1 =>  if field w 0 1 == 0 && field w 10 4 == 0 && field w 18 4 == 0 then plain pre (.dst (f4 w 14) (f6 w 4) (f3 w 1)) else .error .reserved
  | 2 =>  if field w 0 1 == 0 && field w 10 1 == 0 && field w 12 2 == 0 && field w 17 1 == 0 then plain pre (.dfromvV (f4 w 18) (f3 w 14) (f1 w 11) (f6 w 4) (f3 w 1)) else  if field w 0 1 == 0 && field w 10 1 == 1 && field w 12 2 == 0 && field w 17 1 == 0 then plain pre (.dfromvW (f4 w 18) (f3 w 14) (f1 w 11) (f6 w 4) (f3 w 1)) else .error .reserved
  | 3 =>  if field w 0 1 == 1 && field w 10 4 == 0 then plain pre (.dtag (f4 w 18) (f4 w 14) (f6 w 4) (f3 w 1)) else .error .reserved
  | 8 =>  if field w 0 10 == 0 then plain pre (.dadd (f4 w 18) (f4 w 14) (f4 w 10)) else  if field w 0 1 == 1 && field w 10 4 == 0 then plain pre (.daddExact (f4 w 18) (f4 w 14) (f6 w 4) (f3 w 1)) else .error .reserved
  | 9 =>  if field w 0 10 == 0 then plain pre (.dsub (f4 w 18) (f4 w 14) (f4 w 10)) else  if field w 0 1 == 1 && field w 10 4 == 0 then plain pre (.dsubExact (f4 w 18) (f4 w 14) (f6 w 4) (f3 w 1)) else .error .reserved
  | 10 =>  if field w 0 10 == 0 then plain pre (.dmul (f4 w 18) (f4 w 14) (f4 w 10)) else  if field w 0 1 == 1 && field w 10 4 == 0 then plain pre (.dmulExact (f4 w 18) (f4 w 14) (f6 w 4) (f3 w 1)) else .error .reserved
  | 11 =>  if field w 0 10 == 0 then plain pre (.dmax (f4 w 18) (f4 w 14) (f4 w 10)) else  if field w 0 1 == 1 && field w 10 4 == 0 then plain pre (.dmaxExact (f4 w 18) (f4 w 14) (f6 w 4) (f3 w 1)) else .error .reserved
  | 12 =>  if field w 0 10 == 0 then plain pre (.dmin (f4 w 18) (f4 w 14) (f4 w 10)) else  if field w 0 1 == 1 && field w 10 4 == 0 then plain pre (.dminExact (f4 w 18) (f4 w 14) (f6 w 4) (f3 w 1)) else .error .reserved
  | 13 =>  if field w 0 1 == 1 && field w 10 4 == 0 then plain pre (.daff (f4 w 18) (f4 w 14) (f6 w 4) (f3 w 1)) else .error .reserved
  | 14 =>  if field w 0 14 == 0 then plain pre (.drelu (f4 w 18) (f4 w 14)) else .error .reserved
  | 15 =>  if field w 0 14 == 0 then plain pre (.dabs (f4 w 18) (f4 w 14)) else .error .reserved
  | 16 =>  if field w 0 1 == 0 then plain pre (.dmix (f4 w 18) (f4 w 14) (f4 w 10) (f6 w 4) (f3 w 1)) else .error .reserved
  | 17 =>  if field w 0 14 == 0 then plain pre (.dcond (f4 w 18) (f4 w 14)) else .error .reserved
  | 18 =>  if field w 0 14 == 0 then plain pre (.dsuml (f4 w 18) (f4 w 14)) else .error .reserved
  | 24 =>  if field w 0 1 == 0 && field w 4 6 == 0 && field w 12 2 == 0 then plain pre (.dmom (f4 w 18) (f4 w 14) (f2 w 10) (f3 w 1)) else .error .reserved
  | 25 =>  if field w 0 1 == 1 && field w 10 4 == 0 then plain pre (.dqnt (f4 w 18) (f4 w 14) (f6 w 4) (f3 w 1)) else .error .reserved
  | 26 =>  if field w 0 1 == 1 && field w 10 4 == 0 then plain pre (.dcdf (f4 w 18) (f4 w 14) (f6 w 4) (f3 w 1)) else .error .reserved
  | 126 =>  if field w 4 18 == 0 then plain pre (.esetD (f4 w 0)) else .error .reserved
  | 127 =>  if field w 4 18 == 0 then plain pre (.ewaitD (f4 w 0)) else .error .reserved
  | _ => .error .unassigned

/-- Words of the B engine: the opcode picks the row, the fixed fields must hold (R43, R66). -/
def decodeB (op w : Nat) (pre : Option Payload) : Except Reject Instr :=
  match op with
  | 0 =>  if field w 1 3 == 0 then plain pre (.bkadd (f6 w 16) (f6 w 10) (f6 w 4) (f1 w 0)) else .error .reserved
  | 1 =>  if field w 1 3 == 0 then plain pre (.bkaxpy (f6 w 16) (f6 w 10) (f6 w 4) (f1 w 0)) else .error .reserved
  | 2 =>  if field w 1 3 == 0 then plain pre (.bkred (f6 w 16) (f6 w 10) (f6 w 4) (f1 w 0)) else .error .reserved
  | 3 =>  if field w 1 3 == 0 then plain pre (.bkgsum (f6 w 16) (f6 w 10) (f6 w 4) (f1 w 0)) else .error .reserved
  | 4 =>  if field w 1 3 == 0 then plain pre (.bkfill (f6 w 16) (f6 w 10) (f6 w 4) (f1 w 0)) else .error .reserved
  | 5 =>  if field w 1 3 == 0 then plain pre (.bkscal (f6 w 16) (f6 w 10) (f6 w 4) (f1 w 0)) else .error .reserved
  | 6 =>  if field w 1 3 == 0 then plain pre (.bkmax (f6 w 16) (f6 w 10) (f6 w 4) (f1 w 0)) else .error .reserved
  | 7 =>  if field w 1 3 == 0 then plain pre (.bkcas (f6 w 16) (f6 w 10) (f6 w 4) (f1 w 0)) else .error .reserved
  | 126 =>  if field w 4 18 == 0 then plain pre (.esetB (f4 w 0)) else .error .reserved
  | 127 =>  if field w 4 18 == 0 then plain pre (.ewaitB (f4 w 0)) else .error .reserved
  | _ => .error .unassigned

/-- One word, with the payload of the prefix before it, if any: engine field, opcode, fixed fields, prefix rule, stated
limits (tests 1, 3 and 4 of R66). -/
noncomputable def decodeWord (w : Nat) (pre : Option Payload) : Except Reject Instr :=
  let op := w / 4194304 % 128
  let r := match w / 536870912 % 8 with
    | 0 => decodeC op w pre
    | 1 => decodeV op w pre
    | 2 => decodeM op w pre
    | 3 => decodeX op w pre
    | 4 => decodeD op w pre
    | 5 => decodeB op w pre
    | 6 => decodeS op w pre
    | _ => .error .prefixOfPrefix
  match r with
  | .ok i => if wellFormed i then .ok i else .error .limit
  | .error e => .error e

/-- The words of one instruction: a prefix and the word after it, or one word (R53, R54). Answers the instruction and
its length in words. -/
noncomputable def decodeWords : List Nat → Except Reject (Instr × Nat)
  | [] => .error .truncated
  | w :: rest =>
    if w / 536870912 % 8 = 7 then
      match rest with
      | [] => .error .truncated
      | w2 :: _ => (decodeWord w2 (some ⟨w % 536870912, Nat.mod_lt _ (by decide)⟩)).map (·, 2)
    else (decodeWord w none).map (·, 1)

/-- The 32-bit little-endian words of a byte string (R7). -/
def wordsOf : List Byte → List Nat
  | a :: b :: c :: d :: rest => ofBytes [a, b, c, d] :: wordsOf rest
  | _ => []

/-- An instruction from its bytes (R7, R42). -/
noncomputable def decode (bs : List Byte) : Except Reject (Instr × Nat) := decodeWords (wordsOf bs)

/-- The 32-bit word of an instruction, from the encodings of the opcode table; events have none. -/
def encodeWord : Instr → Nat
  | .add d a b => 0x00400000 + d.val * 65536 + a.val * 1024 + b.val * 16
  | .sub d a b => 0x00800000 + d.val * 65536 + a.val * 1024 + b.val * 16
  | .and d a b => 0x00C00000 + d.val * 65536 + a.val * 1024 + b.val * 16
  | .or d a b => 0x01000000 + d.val * 65536 + a.val * 1024 + b.val * 16
  | .xor d a b => 0x01400000 + d.val * 65536 + a.val * 1024 + b.val * 16
  | .sll d a b => 0x01800000 + d.val * 65536 + a.val * 1024 + b.val * 16
  | .srl d a b => 0x01C00000 + d.val * 65536 + a.val * 1024 + b.val * 16
  | .sra d a b => 0x02000000 + d.val * 65536 + a.val * 1024 + b.val * 16
  | .slt d a b => 0x02400000 + d.val * 65536 + a.val * 1024 + b.val * 16
  | .sltu d a b => 0x02800000 + d.val * 65536 + a.val * 1024 + b.val * 16
  | .min d a b => 0x02C00000 + d.val * 65536 + a.val * 1024 + b.val * 16
  | .max d a b => 0x03000000 + d.val * 65536 + a.val * 1024 + b.val * 16
  | .minu d a b => 0x03400000 + d.val * 65536 + a.val * 1024 + b.val * 16
  | .maxu d a b => 0x03800000 + d.val * 65536 + a.val * 1024 + b.val * 16
  | .sel d a b => 0x03C00000 + d.val * 65536 + a.val * 1024 + b.val * 16
  | .mul d a b => 0x04000000 + d.val * 65536 + a.val * 1024 + b.val * 16
  | .mulh d a b => 0x04400000 + d.val * 65536 + a.val * 1024 + b.val * 16
  | .mulhu d a b => 0x04800000 + d.val * 65536 + a.val * 1024 + b.val * 16
  | .div d a b => 0x04C00000 + d.val * 65536 + a.val * 1024 + b.val * 16
  | .divu d a b => 0x05000000 + d.val * 65536 + a.val * 1024 + b.val * 16
  | .rem d a b => 0x05400000 + d.val * 65536 + a.val * 1024 + b.val * 16
  | .remu d a b => 0x05800000 + d.val * 65536 + a.val * 1024 + b.val * 16
  | .clz d a => 0x06000000 + d.val * 65536 + a.val * 1024
  | .ctz d a => 0x06400000 + d.val * 65536 + a.val * 1024
  | .popc d a => 0x06800000 + d.val * 65536 + a.val * 1024
  | .sext d a w => 0x06C00000 + d.val * 65536 + a.val * 1024 + w.val
  | .zext d a w => 0x07000000 + d.val * 65536 + a.val * 1024 + w.val
  | .addi d a i _ => 0x08000000 + d.val * 65536 + a.val * 1024 + i.val
  | .andi d a i _ => 0x08400000 + d.val * 65536 + a.val * 1024 + i.val
  | .ori d a i _ => 0x08800000 + d.val * 65536 + a.val * 1024 + i.val
  | .xori d a i _ => 0x08C00000 + d.val * 65536 + a.val * 1024 + i.val
  | .slli d a i _ => 0x09000000 + d.val * 65536 + a.val * 1024 + i.val
  | .srli d a i _ => 0x09400000 + d.val * 65536 + a.val * 1024 + i.val
  | .srai d a i _ => 0x09800000 + d.val * 65536 + a.val * 1024 + i.val
  | .slti d a i _ => 0x09C00000 + d.val * 65536 + a.val * 1024 + i.val
  | .sltiu d a i _ => 0x0A000000 + d.val * 65536 + a.val * 1024 + i.val
  | .movi d i _ => 0x0A400000 + d.val * 65536 + i.val
  | .movs d i => 0x0A800000 + d.val * 65536 + i.val
  | .fadd d a b m => 0x0C000000 + d.val * 65536 + a.val * 1024 + b.val * 16 + m.val
  | .fsub d a b m => 0x0C400000 + d.val * 65536 + a.val * 1024 + b.val * 16 + m.val
  | .fmul d a b m => 0x0C800000 + d.val * 65536 + a.val * 1024 + b.val * 16 + m.val
  | .fdiv d a b m => 0x0CC00000 + d.val * 65536 + a.val * 1024 + b.val * 16 + m.val
  | .fsqrt d a m => 0x0D000000 + d.val * 65536 + a.val * 1024 + m.val
  | .fmin d a b => 0x0D400000 + d.val * 65536 + a.val * 1024 + b.val * 16
  | .fmax d a b => 0x0D800000 + d.val * 65536 + a.val * 1024 + b.val * 16
  | .fma d a b m => 0x0DC00000 + d.val * 65536 + a.val * 1024 + b.val * 16 + m.val
  | .fcmp d a b c => 0x0E000000 + d.val * 65536 + a.val * 1024 + b.val * 16 + c.val
  | .fcvt d a k e m => 0x0E400000 + d.val * 65536 + a.val * 1024 + k.val * 16 + e.val * 8 + m.val
  | .fclass d a => 0x0E800000 + d.val * 65536 + a.val * 1024
  | .beq a b o _ => 0x10000000 + a.val * 65536 + b.val * 1024 + o.val
  | .bne a b o _ => 0x10400000 + a.val * 65536 + b.val * 1024 + o.val
  | .blt a b o _ => 0x10800000 + a.val * 65536 + b.val * 1024 + o.val
  | .bge a b o _ => 0x10C00000 + a.val * 65536 + b.val * 1024 + o.val
  | .bltu a b o _ => 0x11000000 + a.val * 65536 + b.val * 1024 + o.val
  | .bgeu a b o _ => 0x11400000 + a.val * 65536 + b.val * 1024 + o.val
  | .j o _ => 0x11800000 + o.val
  | .jal o _ => 0x11C00000 + o.val
  | .jalr d a i _ => 0x12000000 + d.val * 65536 + a.val * 1024 + i.val
  | .ld d h b t => 0x14000000 + d.val * 65536 + h.val * 1024 + b.val * 16 + t.val
  | .st d h b t => 0x14400000 + d.val * 65536 + h.val * 1024 + b.val * 16 + t.val
  | .ldl d a t i _ => 0x14800000 + d.val * 65536 + a.val * 1024 + t.val * 128 + i.val
  | .stl d a t i _ => 0x14C00000 + d.val * 65536 + a.val * 1024 + t.val * 128 + i.val
  | .ldf d h b => 0x15000000 + d.val * 65536 + h.val * 1024 + b.val * 16
  | .stf d h b => 0x15400000 + d.val * 65536 + h.val * 1024 + b.val * 16
  | .aadd d h b s => 0x16000000 + d.val * 65536 + h.val * 1024 + b.val * 16 + s.val
  | .aand d h b s => 0x16400000 + d.val * 65536 + h.val * 1024 + b.val * 16 + s.val
  | .aor d h b s => 0x16800000 + d.val * 65536 + h.val * 1024 + b.val * 16 + s.val
  | .axor d h b s => 0x16C00000 + d.val * 65536 + h.val * 1024 + b.val * 16 + s.val
  | .amin d h b s => 0x17000000 + d.val * 65536 + h.val * 1024 + b.val * 16 + s.val
  | .amax d h b s => 0x17400000 + d.val * 65536 + h.val * 1024 + b.val * 16 + s.val
  | .aswp d h b s => 0x17800000 + d.val * 65536 + h.val * 1024 + b.val * 16 + s.val
  | .acas d h b s => 0x17C00000 + d.val * 65536 + h.val * 1024 + b.val * 16 + s.val
  | .csrr d c _ => 0x18000000 + d.val * 65536 + c.val
  | .csrw a c _ => 0x18400000 + a.val * 1024 + c.val
  | .csrx d a c _ => 0x18800000 + d.val * 65536 + a.val * 1024 + c.val
  | .prd d p _ => 0x18C00000 + d.val * 65536 + p.val
  | .vread d m b e => 0x19000000 + d.val * 65536 + m.val * 1024 + b.val * 16 + e.val
  | .sev g => 0xC0800000 + g.val
  | .trap i _ => 0xC1000000 + i.val
  | .sysc i _ => 0xC1400000 + i.val
  | .uien e _ => 0xC2400000 + e.val
  | .waitc d s c t _ => 0xC4000000 + d.val * 65536 + s.val * 1024 + c.val * 16 + t.val
  | .waitf d c f t _ => 0xC4400000 + d.val * 65536 + c.val * 1024 + f.val * 16 + t.val
  | .waitb d s c p t _ => 0xC4800000 + d.val * 65536 + s.val * 1024 + c.val * 32 + p.val * 16 + t.val
  | .bara d n => 0xC4C00000 + d.val * 65536 + n.val
  | .barw d s n t _ => 0xC5000000 + d.val * 65536 + s.val * 1024 + n.val * 16 + t.val
  | .fence k s _ => 0xC6000000 + k.val * 16 + s.val
  | .bfenceHandle h => 0xC6400001 + h.val * 1024
  | .trsync a _ => 0xC6800000 + a.val * 1024
  | .trsyncAll _ => 0xC6800001
  | .pub d a s => 0xC6C00000 + d.val * 65536 + a.val * 1024 + s.val
  | .xlate h a b => 0xC7000000 + h.val * 65536 + a.val * 1024 + b.val * 16
  | .hinv h => 0xC7400000 + h.val * 65536
  | .kset e n a i _ => 0xC8000000 + e.val * 524288 + n.val * 65536 + a.val * 1024 + i.val
  | .xset e n a b g l => 0xC8400000 + e.val * 524288 + n.val * 65536 + a.val * 1024 + b.val * 16 + g.val * 4 + l.val
  | .loopb e k f g h i j l _ => 0xC8800000 + e.val * 524288 + k.val * 65536 + f.val * 4096 + g.val * 1024 + h.val * 128 + i.val * 32 + j.val * 4 + l.val
  | .tspawn d h b => 0xCA000000 + d.val * 65536 + h.val * 1024 + b.val * 16
  | .klaunch d h b q => 0xCA800000 + d.val * 65536 + h.val * 1024 + b.val * 16 + q.val
  | .renq d a b e => 0xCAC00000 + d.val * 65536 + a.val * 1024 + b.val * 16 + e.val
  | .qinit h b c => 0xCC000000 + h.val * 1024 + b.val * 16 + c.val
  | .qpush d h b => 0xCC400000 + d.val * 65536 + h.val * 1024 + b.val * 16
  | .qpop d h b => 0xCC800000 + d.val * 65536 + h.val * 1024 + b.val * 16
  | .qtryPop d h b => 0xCCC00000 + d.val * 65536 + h.val * 1024 + b.val * 16
  | .qtryPush d h b => 0xCCC00001 + d.val * 65536 + h.val * 1024 + b.val * 16
  | .semw d s h t _ => 0xCD000000 + d.val * 65536 + s.val * 1024 + h.val * 16 + t.val
  | .semp h b => 0xCD400000 + h.val * 1024 + b.val * 16
  | .ffill h b => 0xCD800000 + h.val * 1024 + b.val * 16
  | .fclr d h b => 0xCDC00000 + d.val * 65536 + h.val * 1024 + b.val * 16
  | .tkset d a => 0xCE000000 + d.val * 65536 + a.val * 1024
  | .tkget d e k => 0xCE400000 + d.val * 65536 + e.val * 1024 + k.val
  | .ralloc d c _ => 0xCE800000 + d.val * 65536 + c.val
  | .rfree k _ => 0xCEC00000 + k.val
  | .rpin d k _ => 0xCF000010 + d.val * 65536 + k.val
  | .runpin d k _ => 0xCF000000 + d.val * 65536 + k.val
  | .segb i _ => 0xCF400000 + i.val
  | .sege i _ => 0xCF800000 + i.val
  | .vadd d a b x l => 0x20000000 + d.val * 65536 + a.val * 1024 + b.val * 16 + x.val * 2 + l.val
  | .vsub d a b x l => 0x20400000 + d.val * 65536 + a.val * 1024 + b.val * 16 + x.val * 2 + l.val
  | .vmul d a b x l => 0x20800000 + d.val * 65536 + a.val * 1024 + b.val * 16 + x.val * 2 + l.val
  | .vdiv d a b x l => 0x20C00000 + d.val * 65536 + a.val * 1024 + b.val * 16 + x.val * 2 + l.val
  | .vmin d a b x l => 0x21000000 + d.val * 65536 + a.val * 1024 + b.val * 16 + x.val * 2 + l.val
  | .vmax d a b x l => 0x21400000 + d.val * 65536 + a.val * 1024 + b.val * 16 + x.val * 2 + l.val
  | .vabs d a x l => 0x21800000 + d.val * 65536 + a.val * 1024 + x.val * 2 + l.val
  | .vneg d a x l => 0x21C00000 + d.val * 65536 + a.val * 1024 + x.val * 2 + l.val
  | .vfma d a b x l => 0x22000000 + d.val * 65536 + a.val * 1024 + b.val * 16 + x.val * 2 + l.val
  | .vfms d a b x l => 0x22400000 + d.val * 65536 + a.val * 1024 + b.val * 16 + x.val * 2 + l.val
  | .vrcpa d a x l => 0x22800000 + d.val * 65536 + a.val * 1024 + x.val * 2 + l.val
  | .vrsqa d a x l => 0x22C00000 + d.val * 65536 + a.val * 1024 + x.val * 2 + l.val
  | .vexp2a d a x l => 0x23000000 + d.val * 65536 + a.val * 1024 + x.val * 2 + l.val
  | .vlog2a d a x l => 0x23400000 + d.val * 65536 + a.val * 1024 + x.val * 2 + l.val
  | .viadd d a b x l => 0x24000000 + d.val * 65536 + a.val * 1024 + b.val * 16 + x.val * 2 + l.val
  | .visub d a b x l => 0x24400000 + d.val * 65536 + a.val * 1024 + b.val * 16 + x.val * 2 + l.val
  | .vimul d a b x l => 0x24800000 + d.val * 65536 + a.val * 1024 + b.val * 16 + x.val * 2 + l.val
  | .vimin d a b x l => 0x24C00000 + d.val * 65536 + a.val * 1024 + b.val * 16 + x.val * 2 + l.val
  | .vimax d a b x l => 0x25000000 + d.val * 65536 + a.val * 1024 + b.val * 16 + x.val * 2 + l.val
  | .vnmin d a b x l => 0x25400000 + d.val * 65536 + a.val * 1024 + b.val * 16 + x.val * 2 + l.val
  | .vnmax d a b x l => 0x25800000 + d.val * 65536 + a.val * 1024 + b.val * 16 + x.val * 2 + l.val
  | .viadds d a b x l => 0x25C00000 + d.val * 65536 + a.val * 1024 + b.val * 16 + x.val * 2 + l.val
  | .vnadds d a b x l => 0x26000000 + d.val * 65536 + a.val * 1024 + b.val * 16 + x.val * 2 + l.val
  | .vand d a b x l => 0x28000000 + d.val * 65536 + a.val * 1024 + b.val * 16 + x.val * 2 + l.val
  | .vor d a b x l => 0x28400000 + d.val * 65536 + a.val * 1024 + b.val * 16 + x.val * 2 + l.val
  | .vxor d a b x l => 0x28800000 + d.val * 65536 + a.val * 1024 + b.val * 16 + x.val * 2 + l.val
  | .vnot d a x l => 0x28C00000 + d.val * 65536 + a.val * 1024 + x.val * 2 + l.val
  | .vsll d a b x l => 0x29000000 + d.val * 65536 + a.val * 1024 + b.val * 16 + x.val * 2 + l.val
  | .vsrl d a b x l => 0x29400000 + d.val * 65536 + a.val * 1024 + b.val * 16 + x.val * 2 + l.val
  | .vsra d a b x l => 0x29800000 + d.val * 65536 + a.val * 1024 + b.val * 16 + x.val * 2 + l.val
  | .vpack d a b x l => 0x2A000000 + d.val * 65536 + a.val * 1024 + b.val * 16 + x.val * 2 + l.val
  | .vunpk d a s h x l => 0x2A400000 + d.val * 65536 + a.val * 1024 + s.val * 32 + h.val * 16 + x.val * 2 + l.val
  | .vcvtF16F32 d a r i x l => 0x2C000000 + d.val * 65536 + a.val * 1024 + r.val * 128 + i.val * 64 + x.val * 2 + l.val
  | .vcvtBf16F32 d a r i x l => 0x2C400000 + d.val * 65536 + a.val * 1024 + r.val * 128 + i.val * 64 + x.val * 2 + l.val
  | .vcvtE4m3F32 d a r i x l => 0x2C800000 + d.val * 65536 + a.val * 1024 + r.val * 128 + i.val * 64 + x.val * 2 + l.val
  | .vcvtE5m2F32 d a r i x l => 0x2CC00000 + d.val * 65536 + a.val * 1024 + r.val * 128 + i.val * 64 + x.val * 2 + l.val
  | .vcvtF32F16 d a x l => 0x2D000000 + d.val * 65536 + a.val * 1024 + x.val * 2 + l.val
  | .vcvtF32Bf16 d a x l => 0x2D400000 + d.val * 65536 + a.val * 1024 + x.val * 2 + l.val
  | .vcvtF32E4m3 d a x l => 0x2D800000 + d.val * 65536 + a.val * 1024 + x.val * 2 + l.val
  | .vcvtF32E5m2 d a x l => 0x2DC00000 + d.val * 65536 + a.val * 1024 + x.val * 2 + l.val
  | .vcvtI32F32 d a r x l => 0x2E000000 + d.val * 65536 + a.val * 1024 + r.val * 128 + x.val * 2 + l.val
  | .vcvtN32F32 d a r x l => 0x2E400000 + d.val * 65536 + a.val * 1024 + r.val * 128 + x.val * 2 + l.val
  | .vcvtF32I32 d a r x l => 0x2E800000 + d.val * 65536 + a.val * 1024 + r.val * 128 + x.val * 2 + l.val
  | .vcvtF32N32 d a r x l => 0x2EC00000 + d.val * 65536 + a.val * 1024 + r.val * 128 + x.val * 2 + l.val
  | .vcmpEqF32 d a b x => 0x30000000 + d.val * 32768 + a.val * 512 + b.val * 8 + x.val
  | .vcmpNeF32 d a b x => 0x30400000 + d.val * 32768 + a.val * 512 + b.val * 8 + x.val
  | .vcmpLtF32 d a b x => 0x30800000 + d.val * 32768 + a.val * 512 + b.val * 8 + x.val
  | .vcmpLeF32 d a b x => 0x30C00000 + d.val * 32768 + a.val * 512 + b.val * 8 + x.val
  | .vcmpEqI32 d a b x => 0x31000000 + d.val * 32768 + a.val * 512 + b.val * 8 + x.val
  | .vcmpLtI32 d a b x => 0x31400000 + d.val * 32768 + a.val * 512 + b.val * 8 + x.val
  | .vcmpLeI32 d a b x => 0x31800000 + d.val * 32768 + a.val * 512 + b.val * 8 + x.val
  | .vcmpLtN32 d a b x => 0x31C00000 + d.val * 32768 + a.val * 512 + b.val * 8 + x.val
  | .vcmpLeN32 d a b x => 0x32000000 + d.val * 32768 + a.val * 512 + b.val * 8 + x.val
  | .vpand d a b z => 0x34000000 + d.val * 32768 + a.val * 256 + b.val * 2 + z.val
  | .vpor d a b z => 0x34400000 + d.val * 32768 + a.val * 256 + b.val * 2 + z.val
  | .vpxor d a b z => 0x34800000 + d.val * 32768 + a.val * 256 + b.val * 2 + z.val
  | .vpandn d a b z => 0x34C00000 + d.val * 32768 + a.val * 256 + b.val * 2 + z.val
  | .vpsel a => 0x35000000 + a.val * 256
  | .vmpush a z => 0x35400000 + a.val * 256 + z.val
  | .vskipz n _ => 0x36000000 + n.val
  | .vredAddF32 d a x l => 0x38000000 + d.val * 65536 + a.val * 1024 + x.val * 2 + l.val
  | .vredMaxF32 d a x l => 0x38400000 + d.val * 65536 + a.val * 1024 + x.val * 2 + l.val
  | .vredMinF32 d a x l => 0x38800000 + d.val * 65536 + a.val * 1024 + x.val * 2 + l.val
  | .vredAddI32 d a x l => 0x38C00000 + d.val * 65536 + a.val * 1024 + x.val * 2 + l.val
  | .vscanAddF32 d a x l => 0x39000000 + d.val * 65536 + a.val * 1024 + x.val * 2 + l.val
  | .vscanAddI32 d a x l => 0x39400000 + d.val * 65536 + a.val * 1024 + x.val * 2 + l.val
  | .vperm d a b x l => 0x39800000 + d.val * 65536 + a.val * 1024 + b.val * 16 + x.val * 2 + l.val
  | .vbcst d a x => 0x39C00000 + d.val * 65536 + a.val * 1024 + x.val * 2
  | .vmov d a x l => 0x3A000000 + d.val * 65536 + a.val * 1024 + x.val * 2 + l.val
  | .vtrn d a l => 0x3A400000 + d.val * 65536 + a.val * 1024 + l.val
  | .vidx d x => 0x3A800000 + d.val * 65536 + x.val * 2
  | .vfree d => 0x3AC00000 + d.val * 65536
  | .vld d a o x => 0x3C000000 + d.val * 65536 + a.val * 1024 + o.val * 16 + x.val * 2
  | .vst d a o x l => 0x3C400000 + d.val * 65536 + a.val * 1024 + o.val * 16 + x.val * 2 + l.val
  | .vgth d a b x => 0x3C800000 + d.val * 65536 + a.val * 1024 + b.val * 16 + x.val * 2
  | .vsct d a b x l => 0x3CC00000 + d.val * 65536 + a.val * 1024 + b.val * 16 + x.val * 2 + l.val
  | .vbrk a n _ => 0x3D000000 + a.val * 4 + n.val
  | .esetV f => 0x3F800000 + f.val
  | .ewaitV f => 0x3FC00000 + f.val
  | .mma c a b k z q t s => 0x40400000 + c.val * 1048576 + a.val * 16384 + b.val * 256 + k.val * 32 + z.val * 8 + q.val * 4 + t.val * 2 + s.val
  | .mmag c a b k z q t s => 0x40800000 + c.val * 1048576 + a.val * 16384 + b.val * 256 + k.val * 32 + z.val * 8 + q.val * 4 + t.val * 2 + s.val
  | .mmac c a b k z t s => 0x40C00004 + c.val * 1048576 + a.val * 16384 + b.val * 256 + k.val * 32 + z.val * 8 + t.val * 2 + s.val
  | .mzero c => 0x41000000 + c.val * 1048576
  | .mloada c a => 0x41400000 + c.val * 1048576 + a.val * 16384
  | .mdrain c a r v => 0x41800000 + c.val * 1048576 + a.val * 16384 + r.val * 32 + v.val * 16
  | .mepi c a b r v => 0x41C00000 + c.val * 1048576 + a.val * 16384 + b.val * 256 + r.val * 32 + v.val * 16
  | .mchk c => 0x42000000 + c.val * 1048576
  | .mbar a => 0x42400000 + a.val * 16384
  | .esetM f => 0x5F800000 + f.val
  | .ewaitM f => 0x5FC00000 + f.val
  | .xcpy d a b p u => 0x60000000 + d.val * 65536 + a.val * 1024 + b.val * 16 + p.val * 2 + u.val
  | .xcpyt d a b p u => 0x60400000 + d.val * 65536 + a.val * 1024 + b.val * 16 + p.val * 2 + u.val
  | .xfill d a b p u => 0x60800000 + d.val * 65536 + a.val * 1024 + b.val * 16 + p.val * 2 + u.val
  | .xgth d a b p u => 0x60C00000 + d.val * 65536 + a.val * 1024 + b.val * 16 + p.val * 2 + u.val
  | .xsct d a b p u => 0x61000000 + d.val * 65536 + a.val * 1024 + b.val * 16 + p.val * 2 + u.val
  | .xbind d a b u => 0x61400000 + d.val * 65536 + a.val * 1024 + b.val * 16 + u.val
  | .xunb d a u => 0x61800000 + d.val * 65536 + a.val * 1024 + u.val
  | .xclass d a b p u => 0x61C00000 + d.val * 65536 + a.val * 1024 + b.val * 16 + p.val * 2 + u.val
  | .xput d a b p u => 0x62000000 + d.val * 65536 + a.val * 1024 + b.val * 16 + p.val * 2 + u.val
  | .xget d a b p u => 0x62400000 + d.val * 65536 + a.val * 1024 + b.val * 16 + p.val * 2 + u.val
  | .xred d a b p u => 0x62800000 + d.val * 65536 + a.val * 1024 + b.val * 16 + p.val * 2 + u.val
  | .xbcst d a b p u => 0x62C00000 + d.val * 65536 + a.val * 1024 + b.val * 16 + p.val * 2 + u.val
  | .xpub d a u => 0x63000000 + d.val * 65536 + a.val * 1024 + u.val
  | .xchain d a b u => 0x63400000 + d.val * 65536 + a.val * 1024 + b.val * 16 + u.val
  | .xstat d a u => 0x63800000 + d.val * 65536 + a.val * 1024 + u.val
  | .esetX f => 0x7F800000 + f.val
  | .ewaitX f => 0x7FC00000 + f.val
  | .bkadd d a b u => 0xA0000000 + d.val * 65536 + a.val * 1024 + b.val * 16 + u.val
  | .bkaxpy d a b u => 0xA0400000 + d.val * 65536 + a.val * 1024 + b.val * 16 + u.val
  | .bkred d a b u => 0xA0800000 + d.val * 65536 + a.val * 1024 + b.val * 16 + u.val
  | .bkgsum d a b u => 0xA0C00000 + d.val * 65536 + a.val * 1024 + b.val * 16 + u.val
  | .bkfill d a b u => 0xA1000000 + d.val * 65536 + a.val * 1024 + b.val * 16 + u.val
  | .bkscal d a b u => 0xA1400000 + d.val * 65536 + a.val * 1024 + b.val * 16 + u.val
  | .bkmax d a b u => 0xA1800000 + d.val * 65536 + a.val * 1024 + b.val * 16 + u.val
  | .bkcas d a b u => 0xA1C00000 + d.val * 65536 + a.val * 1024 + b.val * 16 + u.val
  | .esetB f => 0xBF800000 + f.val
  | .ewaitB f => 0xBFC00000 + f.val
  | .dld d m x => 0x80000000 + d.val * 262144 + m.val * 16 + x.val * 2
  | .dst a m x => 0x80400000 + a.val * 16384 + m.val * 16 + x.val * 2
  | .dfromvV d j c m x => 0x80800000 + d.val * 262144 + j.val * 16384 + c.val * 2048 + m.val * 16 + x.val * 2
  | .dfromvW d j c m x => 0x80800400 + d.val * 262144 + j.val * 16384 + c.val * 2048 + m.val * 16 + x.val * 2
  | .dtag d a m x => 0x80C00001 + d.val * 262144 + a.val * 16384 + m.val * 16 + x.val * 2
  | .dadd d a b => 0x82000000 + d.val * 262144 + a.val * 16384 + b.val * 1024
  | .daddExact d a m x => 0x82000001 + d.val * 262144 + a.val * 16384 + m.val * 16 + x.val * 2
  | .dsub d a b => 0x82400000 + d.val * 262144 + a.val * 16384 + b.val * 1024
  | .dsubExact d a m x => 0x82400001 + d.val * 262144 + a.val * 16384 + m.val * 16 + x.val * 2
  | .dmul d a b => 0x82800000 + d.val * 262144 + a.val * 16384 + b.val * 1024
  | .dmulExact d a m x => 0x82800001 + d.val * 262144 + a.val * 16384 + m.val * 16 + x.val * 2
  | .dmax d a b => 0x82C00000 + d.val * 262144 + a.val * 16384 + b.val * 1024
  | .dmaxExact d a m x => 0x82C00001 + d.val * 262144 + a.val * 16384 + m.val * 16 + x.val * 2
  | .dmin d a b => 0x83000000 + d.val * 262144 + a.val * 16384 + b.val * 1024
  | .dminExact d a m x => 0x83000001 + d.val * 262144 + a.val * 16384 + m.val * 16 + x.val * 2
  | .daff d a m x => 0x83400001 + d.val * 262144 + a.val * 16384 + m.val * 16 + x.val * 2
  | .drelu d a => 0x83800000 + d.val * 262144 + a.val * 16384
  | .dabs d a => 0x83C00000 + d.val * 262144 + a.val * 16384
  | .dmix d a b m x => 0x84000000 + d.val * 262144 + a.val * 16384 + b.val * 1024 + m.val * 16 + x.val * 2
  | .dcond d a => 0x84400000 + d.val * 262144 + a.val * 16384
  | .dsuml d a => 0x84800000 + d.val * 262144 + a.val * 16384
  | .dmom d a k x => 0x86000000 + d.val * 262144 + a.val * 16384 + k.val * 1024 + x.val * 2
  | .dqnt d a m x => 0x86400001 + d.val * 262144 + a.val * 16384 + m.val * 16 + x.val * 2
  | .dcdf d a m x => 0x86800001 + d.val * 262144 + a.val * 16384 + m.val * 16 + x.val * 2
  | .esetD f => 0x9F800000 + f.val
  | .ewaitD f => 0x9FC00000 + f.val
  | .nop => 0xC0000000
  | .wfe => 0xC0400000
  | .yield => 0xC0C00000
  | .eret => 0xC1800000
  | .halt => 0xC1C00000
  | .uiret => 0xC2000000
  | .bfence => 0xC6400000
  | .hinvAll => 0xC7400001
  | .loope => 0xC8C00000
  | .tdone => 0xCA400000
  | .vminv => 0x35800000
  | .vmpop => 0x35C00000
  | .mnop => 0x40000000
  | .chainBlock _ => 0
  | .bankCommandExecution _ => 0
  | .splitIntoQueue _ => 0
  | .renqBlockRead _ _ => 0
  | .commandCompletion _ => 0
  | .streamFill _ _ => 0
  | .streamDrain _ _ => 0
  | .blockingWaitRelease _ => 0
  | .waitTimeout _ => 0
  | .kernelTrapEntry _ => 0
  | .userInterruptDelivery _ => 0
  | .conex _ => 0
  | .taskReplay _ => 0
  | .taskFailure _ => 0
  | .admission _ => 0
  | .readyLevelRaise _ _ => 0
  | .probeToken _ => 0
  | .reserveEntryGrant _ => 0
  | .kilnDraw _ _ => 0
  | .grantEnd _ _ => 0
  | .revaluation _ _ => 0
  | .loanHop _ _ => 0
  | .regionSpill _ => 0
  | .regionRefill _ _ => 0
  | .launchDoorbell _ _ _ _ => 0
  | .launchStart _ => 0
  | .pageRequestResponse _ _ _ => 0
  | .kernelCompletion _ => 0
  | .create _ _ => 0
  | .kill _ _ => 0
  | .killAcknowledged _ _ => 0
  | .preempt _ _ => 0
  | .sliceTimer _ _ => 0
  | .drainDeadline _ => 0
  | .taskSave _ => 0
  | .resume _ _ => 0
  | .revoke _ _ => 0
  | .release _ _ => 0
  | .frameScrub _ => 0
  | .curnew _ _ => 0
  | .curfund _ _ => 0
  | .curdel _ _ => 0
  | .pcreate _ => 0
  | .layoutCommitPhaseTwo => 0
  | .pdelete _ => 0
  | .pbind _ => 0
  | .punbind _ => 0
  | .pkeys _ => 0
  | .pmove _ => 0
  | .pseed _ => 0
  | .phandler _ => 0
  | .reclass _ => 0
  | .phclear _ => 0
  | .hostBiasFlip _ => 0
  | .deviceBiasFlip _ => 0
  | .biasFlipCompletion _ => 0
  | .cxlMemAccess _ => 0
  | .lockInterface _ _ => 0
  | .startInterface _ _ => 0
  | .stopInterface _ => 0
  | .getVersion _ => 0
  | .getCapabilities _ => 0
  | .getDeviceInterfaceReport _ => 0
  | .getDeviceInterfaceState _ => 0
  | .measurements _ _ => 0
  | .keyExchange _ => 0
  | .keyWrite _ => 0
  | .flitReceive _ _ => 0
  | .nagilWrite _ _ => 0
  | .nagilReadRequest _ _ => 0
  | .nagilReadReply _ _ => 0
  | .nagilReduce _ _ => 0
  | .nagilCompletion _ _ => 0
  | .nagilError _ _ => 0
  | .peerTimeout _ => 0
  | .sharedStructureEvent _ => 0
  | .watchdogFire _ => 0
  | .partitionReset _ => 0
  | .periodicBuiltInTest _ => 0
  | .clusterRepair _ => 0
  | .mpWatchdogReset => 0
  | .mpRestart => 0
  | .fatalError _ _ => 0
  | .dumpDone => 0
  | .dumpWindowRead => 0
  | .migrationPreCopy _ => 0
  | .migrationStopping _ => 0
  | .migrationResuming _ => 0
  | .migrationRunning _ => 0
  | .migrationStreamRead _ => 0
  | .migrationStreamWrite _ _ => 0
  | .errbaseWrite _ _ => 0
  | .drvfeatWrite _ _ => 0
  | .registerWrite _ _ _ => 0
  | .functionLevelReset _ => 0
  | .moduleReset => 0
  | .managementProcessorBoot => 0
  | .dieBoot => 0
  | .hbmTraining => 0
  | .clusterBuiltInTest _ => 0
  | .dumpAreaReservation => 0
  | .hostLinkTraining => 0
  | .pwrbrk _ => 0
  | .powerAverage _ => 0
  | .clockRaise => 0
  | .junctionThrottle _ => 0
  | .thermAlert _ => 0
  | .thermalTrip _ => 0
  | .softError _ => 0
  | .reclassCompletion _ => 0

/-- The prefix payload that an instruction carries (R53). -/
def prefixOf : Instr → Option Payload
  | .add _ _ _ => none
  | .sub _ _ _ => none
  | .and _ _ _ => none
  | .or _ _ _ => none
  | .xor _ _ _ => none
  | .sll _ _ _ => none
  | .srl _ _ _ => none
  | .sra _ _ _ => none
  | .slt _ _ _ => none
  | .sltu _ _ _ => none
  | .min _ _ _ => none
  | .max _ _ _ => none
  | .minu _ _ _ => none
  | .maxu _ _ _ => none
  | .sel _ _ _ => none
  | .mul _ _ _ => none
  | .mulh _ _ _ => none
  | .mulhu _ _ _ => none
  | .div _ _ _ => none
  | .divu _ _ _ => none
  | .rem _ _ _ => none
  | .remu _ _ _ => none
  | .clz _ _ => none
  | .ctz _ _ => none
  | .popc _ _ => none
  | .sext _ _ _ => none
  | .zext _ _ _ => none
  | .addi _ _ _ p => p
  | .andi _ _ _ p => p
  | .ori _ _ _ p => p
  | .xori _ _ _ p => p
  | .slli _ _ _ p => p
  | .srli _ _ _ p => p
  | .srai _ _ _ p => p
  | .slti _ _ _ p => p
  | .sltiu _ _ _ p => p
  | .movi _ _ p => p
  | .movs _ _ => none
  | .fadd _ _ _ _ => none
  | .fsub _ _ _ _ => none
  | .fmul _ _ _ _ => none
  | .fdiv _ _ _ _ => none
  | .fsqrt _ _ _ => none
  | .fmin _ _ _ => none
  | .fmax _ _ _ => none
  | .fma _ _ _ _ => none
  | .fcmp _ _ _ _ => none
  | .fcvt _ _ _ _ _ => none
  | .fclass _ _ => none
  | .beq _ _ _ p => p
  | .bne _ _ _ p => p
  | .blt _ _ _ p => p
  | .bge _ _ _ p => p
  | .bltu _ _ _ p => p
  | .bgeu _ _ _ p => p
  | .j _ p => p
  | .jal _ p => p
  | .jalr _ _ _ p => p
  | .ld _ _ _ _ => none
  | .st _ _ _ _ => none
  | .ldl _ _ _ _ p => p
  | .stl _ _ _ _ p => p
  | .ldf _ _ _ => none
  | .stf _ _ _ => none
  | .aadd _ _ _ _ => none
  | .aand _ _ _ _ => none
  | .aor _ _ _ _ => none
  | .axor _ _ _ _ => none
  | .amin _ _ _ _ => none
  | .amax _ _ _ _ => none
  | .aswp _ _ _ _ => none
  | .acas _ _ _ _ => none
  | .csrr _ _ p => p
  | .csrw _ _ p => p
  | .csrx _ _ _ p => p
  | .prd _ _ p => p
  | .vread _ _ _ _ => none
  | .sev _ => none
  | .trap _ p => p
  | .sysc _ p => p
  | .uien _ p => p
  | .waitc _ _ _ _ p => p
  | .waitf _ _ _ _ p => p
  | .waitb _ _ _ _ _ p => p
  | .bara _ _ => none
  | .barw _ _ _ _ p => p
  | .fence _ _ p => p
  | .bfenceHandle _ => none
  | .trsync _ p => p
  | .trsyncAll p => p
  | .pub _ _ _ => none
  | .xlate _ _ _ => none
  | .hinv _ => none
  | .kset _ _ _ _ p => p
  | .xset _ _ _ _ _ _ => none
  | .loopb _ _ _ _ _ _ _ _ p => p
  | .tspawn _ _ _ => none
  | .klaunch _ _ _ _ => none
  | .renq _ _ _ _ => none
  | .qinit _ _ _ => none
  | .qpush _ _ _ => none
  | .qpop _ _ _ => none
  | .qtryPop _ _ _ => none
  | .qtryPush _ _ _ => none
  | .semw _ _ _ _ p => p
  | .semp _ _ => none
  | .ffill _ _ => none
  | .fclr _ _ _ => none
  | .tkset _ _ => none
  | .tkget _ _ _ => none
  | .ralloc _ _ p => p
  | .rfree _ p => p
  | .rpin _ _ p => p
  | .runpin _ _ p => p
  | .segb _ p => p
  | .sege _ p => p
  | .vadd _ _ _ _ _ => none
  | .vsub _ _ _ _ _ => none
  | .vmul _ _ _ _ _ => none
  | .vdiv _ _ _ _ _ => none
  | .vmin _ _ _ _ _ => none
  | .vmax _ _ _ _ _ => none
  | .vabs _ _ _ _ => none
  | .vneg _ _ _ _ => none
  | .vfma _ _ _ _ _ => none
  | .vfms _ _ _ _ _ => none
  | .vrcpa _ _ _ _ => none
  | .vrsqa _ _ _ _ => none
  | .vexp2a _ _ _ _ => none
  | .vlog2a _ _ _ _ => none
  | .viadd _ _ _ _ _ => none
  | .visub _ _ _ _ _ => none
  | .vimul _ _ _ _ _ => none
  | .vimin _ _ _ _ _ => none
  | .vimax _ _ _ _ _ => none
  | .vnmin _ _ _ _ _ => none
  | .vnmax _ _ _ _ _ => none
  | .viadds _ _ _ _ _ => none
  | .vnadds _ _ _ _ _ => none
  | .vand _ _ _ _ _ => none
  | .vor _ _ _ _ _ => none
  | .vxor _ _ _ _ _ => none
  | .vnot _ _ _ _ => none
  | .vsll _ _ _ _ _ => none
  | .vsrl _ _ _ _ _ => none
  | .vsra _ _ _ _ _ => none
  | .vpack _ _ _ _ _ => none
  | .vunpk _ _ _ _ _ _ => none
  | .vcvtF16F32 _ _ _ _ _ _ => none
  | .vcvtBf16F32 _ _ _ _ _ _ => none
  | .vcvtE4m3F32 _ _ _ _ _ _ => none
  | .vcvtE5m2F32 _ _ _ _ _ _ => none
  | .vcvtF32F16 _ _ _ _ => none
  | .vcvtF32Bf16 _ _ _ _ => none
  | .vcvtF32E4m3 _ _ _ _ => none
  | .vcvtF32E5m2 _ _ _ _ => none
  | .vcvtI32F32 _ _ _ _ _ => none
  | .vcvtN32F32 _ _ _ _ _ => none
  | .vcvtF32I32 _ _ _ _ _ => none
  | .vcvtF32N32 _ _ _ _ _ => none
  | .vcmpEqF32 _ _ _ _ => none
  | .vcmpNeF32 _ _ _ _ => none
  | .vcmpLtF32 _ _ _ _ => none
  | .vcmpLeF32 _ _ _ _ => none
  | .vcmpEqI32 _ _ _ _ => none
  | .vcmpLtI32 _ _ _ _ => none
  | .vcmpLeI32 _ _ _ _ => none
  | .vcmpLtN32 _ _ _ _ => none
  | .vcmpLeN32 _ _ _ _ => none
  | .vpand _ _ _ _ => none
  | .vpor _ _ _ _ => none
  | .vpxor _ _ _ _ => none
  | .vpandn _ _ _ _ => none
  | .vpsel _ => none
  | .vmpush _ _ => none
  | .vskipz _ p => p
  | .vredAddF32 _ _ _ _ => none
  | .vredMaxF32 _ _ _ _ => none
  | .vredMinF32 _ _ _ _ => none
  | .vredAddI32 _ _ _ _ => none
  | .vscanAddF32 _ _ _ _ => none
  | .vscanAddI32 _ _ _ _ => none
  | .vperm _ _ _ _ _ => none
  | .vbcst _ _ _ => none
  | .vmov _ _ _ _ => none
  | .vtrn _ _ _ => none
  | .vidx _ _ => none
  | .vfree _ => none
  | .vld _ _ _ _ => none
  | .vst _ _ _ _ _ => none
  | .vgth _ _ _ _ => none
  | .vsct _ _ _ _ _ => none
  | .vbrk _ _ p => p
  | .esetV _ => none
  | .ewaitV _ => none
  | .mma _ _ _ _ _ _ _ _ => none
  | .mmag _ _ _ _ _ _ _ _ => none
  | .mmac _ _ _ _ _ _ _ => none
  | .mzero _ => none
  | .mloada _ _ => none
  | .mdrain _ _ _ _ => none
  | .mepi _ _ _ _ _ => none
  | .mchk _ => none
  | .mbar _ => none
  | .esetM _ => none
  | .ewaitM _ => none
  | .xcpy _ _ _ _ _ => none
  | .xcpyt _ _ _ _ _ => none
  | .xfill _ _ _ _ _ => none
  | .xgth _ _ _ _ _ => none
  | .xsct _ _ _ _ _ => none
  | .xbind _ _ _ _ => none
  | .xunb _ _ _ => none
  | .xclass _ _ _ _ _ => none
  | .xput _ _ _ _ _ => none
  | .xget _ _ _ _ _ => none
  | .xred _ _ _ _ _ => none
  | .xbcst _ _ _ _ _ => none
  | .xpub _ _ _ => none
  | .xchain _ _ _ _ => none
  | .xstat _ _ _ => none
  | .esetX _ => none
  | .ewaitX _ => none
  | .bkadd _ _ _ _ => none
  | .bkaxpy _ _ _ _ => none
  | .bkred _ _ _ _ => none
  | .bkgsum _ _ _ _ => none
  | .bkfill _ _ _ _ => none
  | .bkscal _ _ _ _ => none
  | .bkmax _ _ _ _ => none
  | .bkcas _ _ _ _ => none
  | .esetB _ => none
  | .ewaitB _ => none
  | .dld _ _ _ => none
  | .dst _ _ _ => none
  | .dfromvV _ _ _ _ _ => none
  | .dfromvW _ _ _ _ _ => none
  | .dtag _ _ _ _ => none
  | .dadd _ _ _ => none
  | .daddExact _ _ _ _ => none
  | .dsub _ _ _ => none
  | .dsubExact _ _ _ _ => none
  | .dmul _ _ _ => none
  | .dmulExact _ _ _ _ => none
  | .dmax _ _ _ => none
  | .dmaxExact _ _ _ _ => none
  | .dmin _ _ _ => none
  | .dminExact _ _ _ _ => none
  | .daff _ _ _ _ => none
  | .drelu _ _ => none
  | .dabs _ _ => none
  | .dmix _ _ _ _ _ => none
  | .dcond _ _ => none
  | .dsuml _ _ => none
  | .dmom _ _ _ _ => none
  | .dqnt _ _ _ _ => none
  | .dcdf _ _ _ _ => none
  | .esetD _ => none
  | .ewaitD _ => none
  | .nop => none
  | .wfe => none
  | .yield => none
  | .eret => none
  | .halt => none
  | .uiret => none
  | .bfence => none
  | .hinvAll => none
  | .loope => none
  | .tdone => none
  | .vminv => none
  | .vmpop => none
  | .mnop => none
  | .chainBlock _ => none
  | .bankCommandExecution _ => none
  | .splitIntoQueue _ => none
  | .renqBlockRead _ _ => none
  | .commandCompletion _ => none
  | .streamFill _ _ => none
  | .streamDrain _ _ => none
  | .blockingWaitRelease _ => none
  | .waitTimeout _ => none
  | .kernelTrapEntry _ => none
  | .userInterruptDelivery _ => none
  | .conex _ => none
  | .taskReplay _ => none
  | .taskFailure _ => none
  | .admission _ => none
  | .readyLevelRaise _ _ => none
  | .probeToken _ => none
  | .reserveEntryGrant _ => none
  | .kilnDraw _ _ => none
  | .grantEnd _ _ => none
  | .revaluation _ _ => none
  | .loanHop _ _ => none
  | .regionSpill _ => none
  | .regionRefill _ _ => none
  | .launchDoorbell _ _ _ _ => none
  | .launchStart _ => none
  | .pageRequestResponse _ _ _ => none
  | .kernelCompletion _ => none
  | .create _ _ => none
  | .kill _ _ => none
  | .killAcknowledged _ _ => none
  | .preempt _ _ => none
  | .sliceTimer _ _ => none
  | .drainDeadline _ => none
  | .taskSave _ => none
  | .resume _ _ => none
  | .revoke _ _ => none
  | .release _ _ => none
  | .frameScrub _ => none
  | .curnew _ _ => none
  | .curfund _ _ => none
  | .curdel _ _ => none
  | .pcreate _ => none
  | .layoutCommitPhaseTwo => none
  | .pdelete _ => none
  | .pbind _ => none
  | .punbind _ => none
  | .pkeys _ => none
  | .pmove _ => none
  | .pseed _ => none
  | .phandler _ => none
  | .reclass _ => none
  | .phclear _ => none
  | .hostBiasFlip _ => none
  | .deviceBiasFlip _ => none
  | .biasFlipCompletion _ => none
  | .cxlMemAccess _ => none
  | .lockInterface _ _ => none
  | .startInterface _ _ => none
  | .stopInterface _ => none
  | .getVersion _ => none
  | .getCapabilities _ => none
  | .getDeviceInterfaceReport _ => none
  | .getDeviceInterfaceState _ => none
  | .measurements _ _ => none
  | .keyExchange _ => none
  | .keyWrite _ => none
  | .flitReceive _ _ => none
  | .nagilWrite _ _ => none
  | .nagilReadRequest _ _ => none
  | .nagilReadReply _ _ => none
  | .nagilReduce _ _ => none
  | .nagilCompletion _ _ => none
  | .nagilError _ _ => none
  | .peerTimeout _ => none
  | .sharedStructureEvent _ => none
  | .watchdogFire _ => none
  | .partitionReset _ => none
  | .periodicBuiltInTest _ => none
  | .clusterRepair _ => none
  | .mpWatchdogReset => none
  | .mpRestart => none
  | .fatalError _ _ => none
  | .dumpDone => none
  | .dumpWindowRead => none
  | .migrationPreCopy _ => none
  | .migrationStopping _ => none
  | .migrationResuming _ => none
  | .migrationRunning _ => none
  | .migrationStreamRead _ => none
  | .migrationStreamWrite _ _ => none
  | .errbaseWrite _ _ => none
  | .drvfeatWrite _ _ => none
  | .registerWrite _ _ _ => none
  | .functionLevelReset _ => none
  | .moduleReset => none
  | .managementProcessorBoot => none
  | .dieBoot => none
  | .hbmTraining => none
  | .clusterBuiltInTest _ => none
  | .dumpAreaReservation => none
  | .hostLinkTraining => none
  | .pwrbrk _ => none
  | .powerAverage _ => none
  | .clockRaise => none
  | .junctionThrottle _ => none
  | .thermAlert _ => none
  | .thermalTrip _ => none
  | .softError _ => none
  | .reclassCompletion _ => none

/-- Whether a row is an instruction word (the others are operations and events). -/
def isWord : Instr → Bool
  | .add _ _ _ => true
  | .sub _ _ _ => true
  | .and _ _ _ => true
  | .or _ _ _ => true
  | .xor _ _ _ => true
  | .sll _ _ _ => true
  | .srl _ _ _ => true
  | .sra _ _ _ => true
  | .slt _ _ _ => true
  | .sltu _ _ _ => true
  | .min _ _ _ => true
  | .max _ _ _ => true
  | .minu _ _ _ => true
  | .maxu _ _ _ => true
  | .sel _ _ _ => true
  | .mul _ _ _ => true
  | .mulh _ _ _ => true
  | .mulhu _ _ _ => true
  | .div _ _ _ => true
  | .divu _ _ _ => true
  | .rem _ _ _ => true
  | .remu _ _ _ => true
  | .clz _ _ => true
  | .ctz _ _ => true
  | .popc _ _ => true
  | .sext _ _ _ => true
  | .zext _ _ _ => true
  | .addi _ _ _ _ => true
  | .andi _ _ _ _ => true
  | .ori _ _ _ _ => true
  | .xori _ _ _ _ => true
  | .slli _ _ _ _ => true
  | .srli _ _ _ _ => true
  | .srai _ _ _ _ => true
  | .slti _ _ _ _ => true
  | .sltiu _ _ _ _ => true
  | .movi _ _ _ => true
  | .movs _ _ => true
  | .fadd _ _ _ _ => true
  | .fsub _ _ _ _ => true
  | .fmul _ _ _ _ => true
  | .fdiv _ _ _ _ => true
  | .fsqrt _ _ _ => true
  | .fmin _ _ _ => true
  | .fmax _ _ _ => true
  | .fma _ _ _ _ => true
  | .fcmp _ _ _ _ => true
  | .fcvt _ _ _ _ _ => true
  | .fclass _ _ => true
  | .beq _ _ _ _ => true
  | .bne _ _ _ _ => true
  | .blt _ _ _ _ => true
  | .bge _ _ _ _ => true
  | .bltu _ _ _ _ => true
  | .bgeu _ _ _ _ => true
  | .j _ _ => true
  | .jal _ _ => true
  | .jalr _ _ _ _ => true
  | .ld _ _ _ _ => true
  | .st _ _ _ _ => true
  | .ldl _ _ _ _ _ => true
  | .stl _ _ _ _ _ => true
  | .ldf _ _ _ => true
  | .stf _ _ _ => true
  | .aadd _ _ _ _ => true
  | .aand _ _ _ _ => true
  | .aor _ _ _ _ => true
  | .axor _ _ _ _ => true
  | .amin _ _ _ _ => true
  | .amax _ _ _ _ => true
  | .aswp _ _ _ _ => true
  | .acas _ _ _ _ => true
  | .csrr _ _ _ => true
  | .csrw _ _ _ => true
  | .csrx _ _ _ _ => true
  | .prd _ _ _ => true
  | .vread _ _ _ _ => true
  | .sev _ => true
  | .trap _ _ => true
  | .sysc _ _ => true
  | .uien _ _ => true
  | .waitc _ _ _ _ _ => true
  | .waitf _ _ _ _ _ => true
  | .waitb _ _ _ _ _ _ => true
  | .bara _ _ => true
  | .barw _ _ _ _ _ => true
  | .fence _ _ _ => true
  | .bfenceHandle _ => true
  | .trsync _ _ => true
  | .trsyncAll _ => true
  | .pub _ _ _ => true
  | .xlate _ _ _ => true
  | .hinv _ => true
  | .kset _ _ _ _ _ => true
  | .xset _ _ _ _ _ _ => true
  | .loopb _ _ _ _ _ _ _ _ _ => true
  | .tspawn _ _ _ => true
  | .klaunch _ _ _ _ => true
  | .renq _ _ _ _ => true
  | .qinit _ _ _ => true
  | .qpush _ _ _ => true
  | .qpop _ _ _ => true
  | .qtryPop _ _ _ => true
  | .qtryPush _ _ _ => true
  | .semw _ _ _ _ _ => true
  | .semp _ _ => true
  | .ffill _ _ => true
  | .fclr _ _ _ => true
  | .tkset _ _ => true
  | .tkget _ _ _ => true
  | .ralloc _ _ _ => true
  | .rfree _ _ => true
  | .rpin _ _ _ => true
  | .runpin _ _ _ => true
  | .segb _ _ => true
  | .sege _ _ => true
  | .vadd _ _ _ _ _ => true
  | .vsub _ _ _ _ _ => true
  | .vmul _ _ _ _ _ => true
  | .vdiv _ _ _ _ _ => true
  | .vmin _ _ _ _ _ => true
  | .vmax _ _ _ _ _ => true
  | .vabs _ _ _ _ => true
  | .vneg _ _ _ _ => true
  | .vfma _ _ _ _ _ => true
  | .vfms _ _ _ _ _ => true
  | .vrcpa _ _ _ _ => true
  | .vrsqa _ _ _ _ => true
  | .vexp2a _ _ _ _ => true
  | .vlog2a _ _ _ _ => true
  | .viadd _ _ _ _ _ => true
  | .visub _ _ _ _ _ => true
  | .vimul _ _ _ _ _ => true
  | .vimin _ _ _ _ _ => true
  | .vimax _ _ _ _ _ => true
  | .vnmin _ _ _ _ _ => true
  | .vnmax _ _ _ _ _ => true
  | .viadds _ _ _ _ _ => true
  | .vnadds _ _ _ _ _ => true
  | .vand _ _ _ _ _ => true
  | .vor _ _ _ _ _ => true
  | .vxor _ _ _ _ _ => true
  | .vnot _ _ _ _ => true
  | .vsll _ _ _ _ _ => true
  | .vsrl _ _ _ _ _ => true
  | .vsra _ _ _ _ _ => true
  | .vpack _ _ _ _ _ => true
  | .vunpk _ _ _ _ _ _ => true
  | .vcvtF16F32 _ _ _ _ _ _ => true
  | .vcvtBf16F32 _ _ _ _ _ _ => true
  | .vcvtE4m3F32 _ _ _ _ _ _ => true
  | .vcvtE5m2F32 _ _ _ _ _ _ => true
  | .vcvtF32F16 _ _ _ _ => true
  | .vcvtF32Bf16 _ _ _ _ => true
  | .vcvtF32E4m3 _ _ _ _ => true
  | .vcvtF32E5m2 _ _ _ _ => true
  | .vcvtI32F32 _ _ _ _ _ => true
  | .vcvtN32F32 _ _ _ _ _ => true
  | .vcvtF32I32 _ _ _ _ _ => true
  | .vcvtF32N32 _ _ _ _ _ => true
  | .vcmpEqF32 _ _ _ _ => true
  | .vcmpNeF32 _ _ _ _ => true
  | .vcmpLtF32 _ _ _ _ => true
  | .vcmpLeF32 _ _ _ _ => true
  | .vcmpEqI32 _ _ _ _ => true
  | .vcmpLtI32 _ _ _ _ => true
  | .vcmpLeI32 _ _ _ _ => true
  | .vcmpLtN32 _ _ _ _ => true
  | .vcmpLeN32 _ _ _ _ => true
  | .vpand _ _ _ _ => true
  | .vpor _ _ _ _ => true
  | .vpxor _ _ _ _ => true
  | .vpandn _ _ _ _ => true
  | .vpsel _ => true
  | .vmpush _ _ => true
  | .vskipz _ _ => true
  | .vredAddF32 _ _ _ _ => true
  | .vredMaxF32 _ _ _ _ => true
  | .vredMinF32 _ _ _ _ => true
  | .vredAddI32 _ _ _ _ => true
  | .vscanAddF32 _ _ _ _ => true
  | .vscanAddI32 _ _ _ _ => true
  | .vperm _ _ _ _ _ => true
  | .vbcst _ _ _ => true
  | .vmov _ _ _ _ => true
  | .vtrn _ _ _ => true
  | .vidx _ _ => true
  | .vfree _ => true
  | .vld _ _ _ _ => true
  | .vst _ _ _ _ _ => true
  | .vgth _ _ _ _ => true
  | .vsct _ _ _ _ _ => true
  | .vbrk _ _ _ => true
  | .esetV _ => true
  | .ewaitV _ => true
  | .mma _ _ _ _ _ _ _ _ => true
  | .mmag _ _ _ _ _ _ _ _ => true
  | .mmac _ _ _ _ _ _ _ => true
  | .mzero _ => true
  | .mloada _ _ => true
  | .mdrain _ _ _ _ => true
  | .mepi _ _ _ _ _ => true
  | .mchk _ => true
  | .mbar _ => true
  | .esetM _ => true
  | .ewaitM _ => true
  | .xcpy _ _ _ _ _ => true
  | .xcpyt _ _ _ _ _ => true
  | .xfill _ _ _ _ _ => true
  | .xgth _ _ _ _ _ => true
  | .xsct _ _ _ _ _ => true
  | .xbind _ _ _ _ => true
  | .xunb _ _ _ => true
  | .xclass _ _ _ _ _ => true
  | .xput _ _ _ _ _ => true
  | .xget _ _ _ _ _ => true
  | .xred _ _ _ _ _ => true
  | .xbcst _ _ _ _ _ => true
  | .xpub _ _ _ => true
  | .xchain _ _ _ _ => true
  | .xstat _ _ _ => true
  | .esetX _ => true
  | .ewaitX _ => true
  | .bkadd _ _ _ _ => true
  | .bkaxpy _ _ _ _ => true
  | .bkred _ _ _ _ => true
  | .bkgsum _ _ _ _ => true
  | .bkfill _ _ _ _ => true
  | .bkscal _ _ _ _ => true
  | .bkmax _ _ _ _ => true
  | .bkcas _ _ _ _ => true
  | .esetB _ => true
  | .ewaitB _ => true
  | .dld _ _ _ => true
  | .dst _ _ _ => true
  | .dfromvV _ _ _ _ _ => true
  | .dfromvW _ _ _ _ _ => true
  | .dtag _ _ _ _ => true
  | .dadd _ _ _ => true
  | .daddExact _ _ _ _ => true
  | .dsub _ _ _ => true
  | .dsubExact _ _ _ _ => true
  | .dmul _ _ _ => true
  | .dmulExact _ _ _ _ => true
  | .dmax _ _ _ => true
  | .dmaxExact _ _ _ _ => true
  | .dmin _ _ _ => true
  | .dminExact _ _ _ _ => true
  | .daff _ _ _ _ => true
  | .drelu _ _ => true
  | .dabs _ _ => true
  | .dmix _ _ _ _ _ => true
  | .dcond _ _ => true
  | .dsuml _ _ => true
  | .dmom _ _ _ _ => true
  | .dqnt _ _ _ _ => true
  | .dcdf _ _ _ _ => true
  | .esetD _ => true
  | .ewaitD _ => true
  | .nop => true
  | .wfe => true
  | .yield => true
  | .eret => true
  | .halt => true
  | .uiret => true
  | .bfence => true
  | .hinvAll => true
  | .loope => true
  | .tdone => true
  | .vminv => true
  | .vmpop => true
  | .mnop => true
  | .chainBlock _ => false
  | .bankCommandExecution _ => false
  | .splitIntoQueue _ => false
  | .renqBlockRead _ _ => false
  | .commandCompletion _ => false
  | .streamFill _ _ => false
  | .streamDrain _ _ => false
  | .blockingWaitRelease _ => false
  | .waitTimeout _ => false
  | .kernelTrapEntry _ => false
  | .userInterruptDelivery _ => false
  | .conex _ => false
  | .taskReplay _ => false
  | .taskFailure _ => false
  | .admission _ => false
  | .readyLevelRaise _ _ => false
  | .probeToken _ => false
  | .reserveEntryGrant _ => false
  | .kilnDraw _ _ => false
  | .grantEnd _ _ => false
  | .revaluation _ _ => false
  | .loanHop _ _ => false
  | .regionSpill _ => false
  | .regionRefill _ _ => false
  | .launchDoorbell _ _ _ _ => false
  | .launchStart _ => false
  | .pageRequestResponse _ _ _ => false
  | .kernelCompletion _ => false
  | .create _ _ => false
  | .kill _ _ => false
  | .killAcknowledged _ _ => false
  | .preempt _ _ => false
  | .sliceTimer _ _ => false
  | .drainDeadline _ => false
  | .taskSave _ => false
  | .resume _ _ => false
  | .revoke _ _ => false
  | .release _ _ => false
  | .frameScrub _ => false
  | .curnew _ _ => false
  | .curfund _ _ => false
  | .curdel _ _ => false
  | .pcreate _ => false
  | .layoutCommitPhaseTwo => false
  | .pdelete _ => false
  | .pbind _ => false
  | .punbind _ => false
  | .pkeys _ => false
  | .pmove _ => false
  | .pseed _ => false
  | .phandler _ => false
  | .reclass _ => false
  | .phclear _ => false
  | .hostBiasFlip _ => false
  | .deviceBiasFlip _ => false
  | .biasFlipCompletion _ => false
  | .cxlMemAccess _ => false
  | .lockInterface _ _ => false
  | .startInterface _ _ => false
  | .stopInterface _ => false
  | .getVersion _ => false
  | .getCapabilities _ => false
  | .getDeviceInterfaceReport _ => false
  | .getDeviceInterfaceState _ => false
  | .measurements _ _ => false
  | .keyExchange _ => false
  | .keyWrite _ => false
  | .flitReceive _ _ => false
  | .nagilWrite _ _ => false
  | .nagilReadRequest _ _ => false
  | .nagilReadReply _ _ => false
  | .nagilReduce _ _ => false
  | .nagilCompletion _ _ => false
  | .nagilError _ _ => false
  | .peerTimeout _ => false
  | .sharedStructureEvent _ => false
  | .watchdogFire _ => false
  | .partitionReset _ => false
  | .periodicBuiltInTest _ => false
  | .clusterRepair _ => false
  | .mpWatchdogReset => false
  | .mpRestart => false
  | .fatalError _ _ => false
  | .dumpDone => false
  | .dumpWindowRead => false
  | .migrationPreCopy _ => false
  | .migrationStopping _ => false
  | .migrationResuming _ => false
  | .migrationRunning _ => false
  | .migrationStreamRead _ => false
  | .migrationStreamWrite _ _ => false
  | .errbaseWrite _ _ => false
  | .drvfeatWrite _ _ => false
  | .registerWrite _ _ _ => false
  | .functionLevelReset _ => false
  | .moduleReset => false
  | .managementProcessorBoot => false
  | .dieBoot => false
  | .hbmTraining => false
  | .clusterBuiltInTest _ => false
  | .dumpAreaReservation => false
  | .hostLinkTraining => false
  | .pwrbrk _ => false
  | .powerAverage _ => false
  | .clockRaise => false
  | .junctionThrottle _ => false
  | .thermAlert _ => false
  | .thermalTrip _ => false
  | .softError _ => false
  | .reclassCompletion _ => false

/-- The words of an instruction: prefix first where it has one (R43, R53). -/
def encode (i : Instr) : List Nat :=
  match prefixOf i with
  | some p => [3758096384 + p.val, encodeWord i]
  | none => [encodeWord i]

/-- Length in bytes of an instruction (R54). -/
def Instr.len (i : Instr) : Nat := 4 * (encode i).length

/-- The decoder on a word numbered as the opcode table numbers it: its bytes, little-endian, lowest first. -/
noncomputable def decodeTableWord (nbits w : Nat) : Option Instr :=
  match decode (toBytes (max 8 ((nbits + 7) / 8)) (w % 2 ^ nbits)) with
  | .ok (i, _) => some i
  | .error _ => none

end Sys2Proof
end

