-- ==== Sys2Proof/Machine/Naming.lean ====
section
/-!
DEFINITION. Which lane operands a V word names (R46, R62), and so which streams (R200, R244) and matrix registers
(R106).
-/

namespace Sys2Proof.Machine

/-- The lane operands of a V word: sources and destination. -/
def laneOperands : Instr → List Nat
  | .vadd d a b _ _ => [d.val, a.val, b.val]
  | .vsub d a b _ _ => [d.val, a.val, b.val]
  | .vmul d a b _ _ => [d.val, a.val, b.val]
  | .vdiv d a b _ _ => [d.val, a.val, b.val]
  | .vmin d a b _ _ => [d.val, a.val, b.val]
  | .vmax d a b _ _ => [d.val, a.val, b.val]
  | .vabs d a _ _ => [d.val, a.val]
  | .vneg d a _ _ => [d.val, a.val]
  | .vfma d a b _ _ => [d.val, a.val, b.val]
  | .vfms d a b _ _ => [d.val, a.val, b.val]
  | .vrcpa d a _ _ => [d.val, a.val]
  | .vrsqa d a _ _ => [d.val, a.val]
  | .vexp2a d a _ _ => [d.val, a.val]
  | .vlog2a d a _ _ => [d.val, a.val]
  | .viadd d a b _ _ => [d.val, a.val, b.val]
  | .visub d a b _ _ => [d.val, a.val, b.val]
  | .vimul d a b _ _ => [d.val, a.val, b.val]
  | .vimin d a b _ _ => [d.val, a.val, b.val]
  | .vimax d a b _ _ => [d.val, a.val, b.val]
  | .vnmin d a b _ _ => [d.val, a.val, b.val]
  | .vnmax d a b _ _ => [d.val, a.val, b.val]
  | .viadds d a b _ _ => [d.val, a.val, b.val]
  | .vnadds d a b _ _ => [d.val, a.val, b.val]
  | .vand d a b _ _ => [d.val, a.val, b.val]
  | .vor d a b _ _ => [d.val, a.val, b.val]
  | .vxor d a b _ _ => [d.val, a.val, b.val]
  | .vnot d a _ _ => [d.val, a.val]
  | .vsll d a b _ _ => [d.val, a.val, b.val]
  | .vsrl d a b _ _ => [d.val, a.val, b.val]
  | .vsra d a b _ _ => [d.val, a.val, b.val]
  | .vpack d a b _ _ => [d.val, a.val, b.val]
  | .vunpk d a _ _ _ _ => [d.val, a.val]
  | .vcvtF16F32 d a _ _ _ _ => [d.val, a.val]
  | .vcvtBf16F32 d a _ _ _ _ => [d.val, a.val]
  | .vcvtE4m3F32 d a _ _ _ _ => [d.val, a.val]
  | .vcvtE5m2F32 d a _ _ _ _ => [d.val, a.val]
  | .vcvtF32F16 d a _ _ => [d.val, a.val]
  | .vcvtF32Bf16 d a _ _ => [d.val, a.val]
  | .vcvtF32E4m3 d a _ _ => [d.val, a.val]
  | .vcvtF32E5m2 d a _ _ => [d.val, a.val]
  | .vcvtI32F32 d a _ _ _ => [d.val, a.val]
  | .vcvtN32F32 d a _ _ _ => [d.val, a.val]
  | .vcvtF32I32 d a _ _ _ => [d.val, a.val]
  | .vcvtF32N32 d a _ _ _ => [d.val, a.val]
  | .vcmpEqF32 _ a b _ => [a.val, b.val]
  | .vcmpNeF32 _ a b _ => [a.val, b.val]
  | .vcmpLtF32 _ a b _ => [a.val, b.val]
  | .vcmpLeF32 _ a b _ => [a.val, b.val]
  | .vcmpEqI32 _ a b _ => [a.val, b.val]
  | .vcmpLtI32 _ a b _ => [a.val, b.val]
  | .vcmpLeI32 _ a b _ => [a.val, b.val]
  | .vcmpLtN32 _ a b _ => [a.val, b.val]
  | .vcmpLeN32 _ a b _ => [a.val, b.val]
  | .vredAddF32 d a _ _ => [d.val, a.val]
  | .vredMaxF32 d a _ _ => [d.val, a.val]
  | .vredMinF32 d a _ _ => [d.val, a.val]
  | .vredAddI32 d a _ _ => [d.val, a.val]
  | .vscanAddF32 d a _ _ => [d.val, a.val]
  | .vscanAddI32 d a _ _ => [d.val, a.val]
  | .vperm d a b _ _ => [d.val, a.val, b.val]
  | .vbcst d _ _ => [d.val]
  | .vmov d a _ _ => [d.val, a.val]
  | .vidx d _ => [d.val]
  | .vld d _ _ _ => [d.val]
  | .vst _ a _ _ _ => [a.val]
  | .vgth d _ b _ => [d.val, b.val]
  | .vsct _ a b _ _ => [a.val, b.val]
  | .vtrn d a _ => [d.val, a.val]
  | .vfree d => [d.val]
  | _ => []

/-- The predicate that a V word writes (R152, R153). -/
def predicateDest : Instr → Option Nat
  | .vcmpEqF32 d _ _ _ => some d.val
  | .vcmpNeF32 d _ _ _ => some d.val
  | .vcmpLtF32 d _ _ _ => some d.val
  | .vcmpLeF32 d _ _ _ => some d.val
  | .vcmpEqI32 d _ _ _ => some d.val
  | .vcmpLtI32 d _ _ _ => some d.val
  | .vcmpLeI32 d _ _ _ => some d.val
  | .vcmpLtN32 d _ _ _ => some d.val
  | .vcmpLeN32 d _ _ _ => some d.val
  | .vpand d _ _ _ => some d.val
  | .vpor d _ _ _ => some d.val
  | .vpxor d _ _ _ => some d.val
  | .vpandn d _ _ _ => some d.val
  | _ => none

/-- The V instruction of a queued word. -/
def vectorInstr (w : Nat) : Option Instr :=
  match decodeV (field w 22 7) w none with
  | .ok i => some i
  | .error _ => none

/-- Whether a V word names a stream. -/
def namesStream (w q : Nat) : Bool :=
  match vectorInstr w with
  | some i => (laneOperands i).any (fun o => isStream o && opReg o == q)
  | none => false

/-- Whether a V word writes a predicate. -/
def writesPredicate (w p : Nat) : Bool :=
  match vectorInstr w with
  | some i => predicateDest i == some p
  | none => false

/-- Whether a V word that was split before a stamp and names a stream is queued or in progress (R200). -/
def Slot.streamBusy (v : Slot) (q stamp : Nat) : Bool :=
  let x := v.seq .v
  x.q.zipIdx.any (fun e => x.live e.2 && (match e.1.kind with | .word => true | _ => false)
    && namesStream e.1.word q && decide (0 < e.1.stamp) && decide (e.1.stamp < stamp))

end Sys2Proof.Machine
end

