-- ==== Sys2Proof/Machine/Copy.lean ====
section
/-!
DEFINITION. The X words (spec/07, R187 to R207): windows, shapes, tensor copies with their conversions, fills, gathers
and scatters, streams, transfers into gang windows (spec/10 R259, R260) and to peers (spec/22 R421 to R423), publishes,
chains and status.
-/

namespace Sys2Proof.Machine

/-! ## Windows -/

/-- A source window (R188). -/
structure SrcWindow where
  tid : Nat
  rm : Nat
  ieee : Bool
  op : Nat
  tr : Bool
  idx : Nat
  org : Nat
  rsv : Nat
  deriving DecidableEq, Repr

/-- Reads a source window (R188). -/
def SrcWindow.of (v : Nat) : SrcWindow :=
  { tid := field v 0 12
    rm := field v 12 3
    ieee := bitOf v 15
    op := field v 16 3
    tr := bitOf v 19
    idx := field v 20 22
    org := field v 42 16
    rsv := field v 58 6 }

/-- A destination window (R189). -/
structure DstWindow where
  tid : Nat
  flag : Nat
  fle : Bool
  barv : Bool
  baddr : Nat
  org : Nat
  rsv : Nat
  deriving DecidableEq, Repr

/-- Reads a destination window (R189). -/
def DstWindow.of (v : Nat) : DstWindow :=
  { tid := field v 0 12
    flag := field v 12 6
    fle := bitOf v 18
    barv := bitOf v 19
    baddr := field v 20 22
    org := field v 42 16
    rsv := field v 58 6 }

/-- The commands that copy between two windows. -/
inductive CopyKind where
  | cpy | cpyt | cls | gth | sct | put | get | red | bcst
  deriving DecidableEq, Repr

/-- Whether the command's destination may be remote (R202). -/
def CopyKind.toRemote : CopyKind → Bool
  | .put => true | .red => true | .bcst => true | _ => false

/-- Whether the command moves whole rows by an index row (R199). -/
def CopyKind.indexed : CopyKind → Bool
  | .gth => true | .sct => true | _ => false

/-! ## Elements of a record -/

/-- A part of an element: the address of its first byte, the first bit in that byte, its bits, and where they stand in
the element. An element of whole bytes is one part; a narrower one has a part in each byte that it touches. -/
structure Part_ where
  va : Nat
  bit : Nat
  width : Nat
  shift : Nat
  deriving DecidableEq, Repr

/-- Index of an element. -/
structure Ix where
  i0 : Nat
  i1 : Nat
  i2 : Nat
  i3 : Nat
  deriving DecidableEq, Repr

/-- The parts of an element (R20, R271). -/
def Record.parts (r : Record) (i : Ix) : List Part_ :=
  let e := r.elem i.i0 i.i1 i.i2 i.i3
  let n := r.fmt.size
  if 8 ≤ n then [⟨e.1, 0, n, 0⟩]
  else if e.2 + n ≤ 8 then [⟨e.1, e.2, n, 0⟩]
  else [⟨e.1, e.2, 8 - e.2, 0⟩, ⟨e.1 + 1, 0, e.2 + n - 8, 8 - e.2⟩]

/-- The scale byte of an element of an MX record (R271). -/
def Record.scaleParts (r : Record) (i : Ix) : List Part_ := [⟨r.scale i.i0 i.i1 i.i2 i.i3, 0, 8, 0⟩]

/-- What the layout of a tile window names (R258): a local address; an element of an accumulator tile; a bit of a matrix
register of a slot. -/
inductive WindowPlace where
  | scratch (off : Nat)
  | accum (n e : Nat)
  | matrix (slot m bit : Nat)
  | reserved
  deriving DecidableEq, Repr

/-- Where a byte of a transfer lies: memory, with its class, its page if it has one, and its region's holder if it is
scratchpad; an accumulator or matrix-register element of a member; a peer; a place that no holding reaches (R260); or
what it is refused with. -/
inductive Spot where
  | mem (a : Nat) (cls : Option Nat) (page : Option (Page × Nat)) (region : Option (SlotId × Nat))
  | acc (sl : SlotId) (n e : Nat)
  | reg (sl : SlotId) (m bit : Nat)
  | peer (a : Nat)
  | lost
  | outlease (va : Nat)
  | badClass
  | bad (sub : Nat)
  deriving DecidableEq, Repr

/-- The image mode of a format: 1 float, 2 int (R16). -/
def imageMode : Format → Nat
  | .fa40 => 1
  | .int40 => 2
  | _ => 0

/-- What lies at an offset of a tile window (R258). -/
def windowPlace (off : Nat) : WindowPlace :=
  if off < 0x400000 then .scratch off
  else if off < 0x500000 then .accum ((off - 0x400000) / 0x20000) (off % 0x20000 / 8)
  else if off < 0x580000 then .matrix ((off - 0x500000) / 0x10000) (off % 0x10000 / 0x1000) (8 * (off % 0x1000))
  else .reserved

/-- A byte of a member part, laid out as a tile window with the member's own accumulator names and registers (R259,
R260). -/
def State.memberSpot (s : State) (tgt : Option SlotId) (f : Format) (off : Nat) : Spot :=
  match windowPlace off, tgt with
  | .accum n el, some m =>
    let t := s.acc m n
    if 4 ≤ n then .lost
    else if imageMode f == 0 then .bad 2
    else if (((s.slot m).task).map (·.reqa)).getD 0 ≤ n then .lost
    else if t.mode != 0 && t.mode != imageMode f then .lost
    else .acc m n el
  | .accum n _, none => if n < 4 ∧ imageMode f = 0 then .bad 2 else .lost
  | .scratch a, some m =>
    if s.localHeld m a then
      .mem (s.localPhys m a) (some (mget (s.tile m.tileId).regions (a / 0x40000) {}).cls) none (some (m, a))
    else .lost
  | .matrix 0 r bit, some m => .reg m r bit
  | _, _ => .lost

/-- The member part of a gang-window address (R259). -/
def memberOf (va : Nat) : Nat := (va - 0x1FFFFFFC0000000) / 0x1000000

/-- The slot that a gang member holds, none once it has retired. -/
def State.memberSlot (s : State) (sl : SlotId) (m : Nat) : Option SlotId :=
  (s.gangOf sl).bind (fun g => mfind g.members m)

/-- A byte of a transfer through a record (R202, R259, R260, R272, R423). to is the member written, for a record in the
gang window. -/
def State.spot (s : State) (sl : SlotId) (r : Record) (remote write : Bool) (tgt : Option SlotId) (va : Nat) : Spot :=
  if inGangWindow r.base then
    if !inGangWindow va || memberOf va != memberOf r.base then .bad 9
    else s.memberSpot tgt r.fmt (va % 0x1000000)
  else
    match s.touchVa sl (.eng sl .x) r.cls va write with
    | .ok a p =>
      if isPeer p.frame then (if remote then .peer a else .outlease va)
      else if remote then .bad 9
      else .mem a (some p.cls) (some (p, va - p.va)) none
    | .outlease x => .outlease x
    | .badClass => .badClass
    | .local_ => .outlease va

/-- Whether a remote record's base maps to a gang window or a peer aperture (R202). -/
def State.remoteBase (s : State) (sl : SlotId) (r : Record) : Bool :=
  inGangWindow r.base || (match s.pageOf sl r.base with | some p => isPeer p.frame | none => false)

/-! ## Shapes -/

/-- Positions of a shape in destination order (R191): dimension 0 fastest. -/
def positions (n0 n1 n2 n3 : Nat) : List Ix :=
  (List.range (n0 * n1 * n2 * n3)).map (fun k => ⟨k % n0, k / n0 % n1, k / n0 / n1 % n2, k / n0 / n1 / n2⟩)

/-- Whether a shape or an extent is refused (R191, R196, R199). -/
def shapeBad (k : CopyKind) (S : SrcWindow) (T : DstWindow) (r d : Record) : Bool :=
  decide (r.e1 ≤ S.org) || decide (d.e1 ≤ T.org) ||
  (if k.indexed then
    r.e2 != 1 || r.e3 != 1 || d.e2 != 1 || d.e3 != 1 || r.e0 != d.e0 ||
      (match k with | .gth => S.org != 0 | _ => T.org != 0)
  else
    let n0 := if S.tr then r.e1 - S.org else r.e0
    let n1 := if S.tr then r.e0 else r.e1 - S.org
    d.e0 != n0 || d.e2 != r.e2 || d.e3 != r.e3 || decide (d.e1 < T.org + n1)
      || (k == .cpyt && d.fmt.isMx && n0 % 32 != 0))

/-- Rows that an index row names (R199). -/
def indexCount (k : CopyKind) (S : SrcWindow) (T : DstWindow) (r d : Record) : Nat :=
  match k with
  | .gth => d.e1 - T.org
  | .sct => r.e1 - S.org
  | _ => 0

/-- The pairs of elements that a command moves, source and destination, in destination order (R191, R196, R199). -/
def copyPairs (k : CopyKind) (S : SrcWindow) (T : DstWindow) (r d : Record) (idx : List Nat) : List (Ix × Ix) :=
  match k with
  | .gth => (positions r.e0 idx.length 1 1).map (fun p => (⟨p.i0, idx.getD p.i1 0, 0, 0⟩, ⟨p.i0, T.org + p.i1, 0, 0⟩))
  | .sct => (positions r.e0 idx.length 1 1).map (fun p => (⟨p.i0, S.org + p.i1, 0, 0⟩, ⟨p.i0, idx.getD p.i1 0, 0, 0⟩))
  | _ =>
    if S.tr then
      (positions (r.e1 - S.org) r.e0 r.e2 r.e3).map (fun p =>
        (⟨p.i1, S.org + p.i0, p.i2, p.i3⟩, ⟨p.i0, T.org + p.i1, p.i2, p.i3⟩))
    else
      (positions r.e0 (r.e1 - S.org) r.e2 r.e3).map (fun p =>
        (⟨p.i0, S.org + p.i1, p.i2, p.i3⟩, ⟨p.i0, T.org + p.i1, p.i2, p.i3⟩))

/-! ## Formats -/

/-- The five floating formats that copies convert between (R196). -/
def isFloat : Format → Bool
  | .flt _ => true
  | _ => false

/-- Whether every value of a floating format is one of another (R196). -/
def widens (F G : Fmt) : Bool :=
  F == G || G == FP32 || ((F == E4M3 || F == E5M2) && (G == FP16 || G == BF16))

/-- Whether XCPYT converts a pair of formats with a rounding mode and an IEEE bit (R196). -/
def convertible (f g : Format) (rm : Nat) (ieee : Bool) : Bool :=
  let small := match g with | .flt G => G != FP32 | _ => false
  match f, g with
  | .flt F, .flt G => (!widens F G || rm == 0) && (!ieee || small)
  | .flt F, .mxf _ => (F == FP32 || F == BF16) && !ieee
  | .flt F, .mxi _ _ => (F == FP32 || F == BF16) && !ieee
  | .mxf _, .flt G => (G == FP32 || G == BF16) && (!ieee || small)
  | .mxi _ _, .flt G => (G == FP32 || G == BF16) && (!ieee || small)
  | .flt F, .int n _ => F == FP32 && n != 64 && !ieee
  | .int n _, .flt G => n == 32 && G == FP32 && !ieee
  | .int _ _, .int _ _ => rm == 0 && !ieee
  | _, _ => false

/-- Formats of XRED (R203). -/
def reducible : Format → Bool
  | .flt F => F == FP32 || F == FP16 || F == BF16
  | .int n _ => n == 32 || n == 64
  | _ => false

/-- Window fields of a destination that its enable bits switch off and that must be zero then (R212). -/
def DstWindow.unused (T : DstWindow) : Bool := (!T.fle && T.flag != 0) || (!T.barv && T.baddr != 0)

/-- Whether a command's formats or window fields are refused with sub-code 2 (R188, R189, R196, R199, R202, R203,
R212). -/
def formatBad (k : CopyKind) (S : SrcWindow) (T : DstWindow) (r d : Record) : Bool :=
  S.rsv != 0 || T.rsv != 0 || T.unused || decide (4 < S.rm)
    || (S.rm != 0 && k != .cpyt && k != .red) || ((S.ieee || S.tr) && k != .cpyt)
    || (S.op != 0 && k != .red) || (S.idx != 0 && !k.indexed)
    || (match k with
        | .cpyt => !convertible r.fmt d.fmt S.rm S.ieee
        | .red => r.code != d.code || !reducible r.fmt
        | _ => r.code != d.code)

/-- Convert (R196): the pattern and the flags of one element that is no part of an MX destination. sc is the scale byte
of an MX source, dr the draw. -/
def convertElement (f g : Format) (rm : Nat) (ieee : Bool) (dr v sc : Nat) : Nat × Nat :=
  match f, g with
  | .int n sg, .int m tg => satInt m tg (if sg then toSigned n v else (v : Int))
  | .int n sg, .flt G => roundTo G rm true dr (.ofInt (if sg then toSigned n v else (v : Int))) 1
  | .flt F, .int n sg =>
    let x := decodeFl F v
    let r := floatToInt x n sg rm dr
    (r.1, r.2 ||| sigFlag [x])
  | .flt F, .flt G =>
    let x := decodeFl F v
    (Ex.of x (sigFlag [x])).round G rm ieee dr
  | f, .flt G => (mulFl (scaleFl sc) (elementFl f v)).round G rm ieee dr
  | _, _ => (v, 0)

/-- The value of a source element that enters an MX block. -/
def blockValue (f : Format) (v : Nat) : Fl :=
  match f with
  | .flt F => decodeFl F v
  | _ => .zero

/-! ## Reading and writing -/

/-- What is read: a pattern and whether it carries poison. -/
abbrev Got := Nat × Bool

/-- One part as the copy engine reads it (R294): old or new where nothing orders it, one pick for an element. DEDUCED: the image
formats are copied from memory to memory bit by bit, as R196 and R198 say of a copy and a fill, bits [63:40] with the others
(log entry 34). -/
def State.readPart (s : State) (sl : SlotId) (f : Format) (pick : Nat) (p : Part_) (x : Spot) : Got :=
  let w := (p.bit + p.width + 7) / 8
  match x with
  | .mem a _ _ _ =>
    (s.viewNum (.eng sl .x) s.cur.entry.view s.cur.entry.own pick a w / 2 ^ p.bit % 2 ^ p.width, s.poisonedIn a w)
  | .acc m n e =>
    let t := s.acc m n
    let v := (mget t.el e 0).toNat
    (if t.mode == 0 then 0 else match f with
       | .int40 => wrapTo 64 (toSigned 40 v)
       | _ => v, t.elBad e)
  | .reg m r b =>
    let g := (s.slot m).regs
    (g.bits r (b + p.bit) p.width, g.elBad r (b / 32) || g.elBad r ((b + p.width - 1) / 32))
  | _ => (0, false)

/-- An element: its parts put together. -/
def State.readCell (s : State) (sl : SlotId) (f : Format) (ps : List (Part_ × Spot)) : Got :=
  let key := (ps.map (fun p => p.1.va * 8 + p.1.bit)).headD 0
  ps.foldl (fun g p =>
    let x := s.readPart sl f (Config.pick s.fresh key) p.1 p.2
    (g.1 + x.1 * 2 ^ p.1.shift, g.2 || x.2)) (0, false)

/-- What an element write does: the pattern, its poison, and for XRED operation, rounding mode and draw. -/
structure Put where
  val : Nat
  poison : Bool
  op : Option Nat := none
  rm : Nat := 0
  draw : Nat := 0
  deriving Repr

/-- The memory write of one part, if it lies in memory. -/
def partMove (d : Record) (w : Put) (p : Part_) (x : Spot) : Option Move :=
  let n := (p.bit + p.width + 7) / 8
  let narrow := decide (p.width < 8)
  let bytes := toBytes n (w.val / 2 ^ p.shift % 2 ^ p.width)
  match x with
  | .mem a _ page region =>
    let base : Move := match page with
      | some (pg, off) => shadowMove pg off d.shadow bytes
      | none => { addr := a, bytes := bytes }
    some { base with
      member := region
      poison := w.poison
      bit := p.bit
      width := if narrow then p.width else 0
      op := w.op
      fmt := d.code
      rm := if w.op.isNone then p.shift else w.rm
      draw := w.draw }
  | _ => none

/-- The register write of one part, if it lies in an accumulator or matrix register (R260). -/
def partRegMove (d : Record) (w : Put) (p : Part_) (x : Spot) : Option RegMove :=
  let v := w.val / 2 ^ p.shift % 2 ^ p.width
  match x with
  | .acc m n e => some
      { slot := m, acc := true, reg := n, el := e, val := v, mode := imageMode d.fmt, width := p.width, poison := w.poison }
  | .reg m r b => some
      { slot := m, acc := false, reg := r, el := b + p.bit, val := v, mode := 0, width := p.width, poison := w.poison,
        op := w.op, fmt := d.code, rm := w.rm, draw := w.draw }
  | _ => none

/-- The memory writes of an element: one, also where it lies in two bytes (R292). -/
def elementMoves (d : Record) (w : Put) (ps : List (Part_ × Spot)) : List Move :=
  let ms := ps.filterMap (fun q => partMove d w q.1 q.2)
  match ms with
  | [a, b] => [{ a with
      bytes := toBytes 2 (w.val % 2 ^ (a.width + b.width))
      width := a.width + b.width
      rest := some b.dest }]
  | _ => ms

/-- The register writes of an element: one, also where it lies in two bytes of one register (R260, R292). -/
def elementRegMoves (d : Record) (w : Put) (ps : List (Part_ × Spot)) : List RegMove :=
  let ms := ps.filterMap (fun q => partRegMove d w q.1 q.2)
  match ms with
  | [a, b] => if a.reg == b.reg then [{ a with val := w.val % 2 ^ (a.width + b.width), width := a.width + b.width }] else ms
  | _ => ms

/-- Bytes of a part as a span for the overlap rule (R192): a register element has a place of its own beyond memory. -/
def Spot.span (x : Spot) (p : Part_) : List (Nat × Nat) :=
  let n := (p.bit + p.width + 7) / 8
  match x with
  | .mem a _ _ _ => [(a, n)]
  | .acc m k e => [(2 ^ 60 + (m.part * 2 ^ 16 + identity m) * 2 ^ 24 + 0x400000 + k * 0x20000 + 8 * e, n)]
  | .reg m r b => [(2 ^ 60 + (m.part * 2 ^ 16 + identity m) * 2 ^ 24 + 0x500000 + r * 0x1000 + b / 8, n)]
  | .peer a => [(a, n)]
  | _ => []

/-- Whether two lists of spans share a byte. -/
def spansMeet (a b : List (Nat × Nat)) : Bool :=
  a.any (fun x => b.any (fun y => decide (x.1 < y.1 + y.2) && decide (y.1 < x.1 + x.2)))

/-- The class of the storage of a byte (R195). -/
def Spot.cls : Spot → Option Nat
  | .mem _ c _ _ => c
  | _ => none

/-! ## Faults -/

/-- Whether the region of a command's barrier object is spilled (R320): the command waits for it before it is checked. -/
def State.barrierAway (s : State) (sl : SlotId) (T : DstWindow) : Bool :=
  T.barv && T.baddr % 16 == 0 && s.spanHeld sl T.baddr 16 && !s.resident sl T.baddr 16

/-- A fault of the copy engine (R195, R212): a command with a barrier object updates it once. -/
def copyFault (s : State) (T : Option DstWindow) (bits : Nat) (t : Trap) : Out :=
  let sl := s.cur.slot
  let s1 := match T with
    | some w => if w.barv && w.baddr % 16 == 0 && s.spanHeld sl w.baddr 16 then s.barrierUpdate sl w.baddr bits [] else s
    | none => s
  .next (s1.engineTrap sl .x t)

/-- An FMTERR of the copy engine (R212). -/
def copyFmt (s : State) (T : Option DstWindow) (sub tid : Nat) : Out :=
  copyFault s T stFMT { cause := 0x0B, val := 3 + tid * 2 ^ 16 + sub * 2 ^ 32, sub := sub, tid := tid }

/-- An OUTLEASE of the copy engine (R272). -/
def copyLease (s : State) (va tid : Nat) : Out :=
  .next (s.engineTrap s.cur.slot .x { cause := 0x04, val := va, addr := va, tid := tid })

/-- Whether the slot or the tile has as many commands in flight as R192 allows. -/
def State.copyFull (s : State) (sl : SlotId) : Bool :=
  let xs := s.cmds.filter (fun c => c.engine == .x)
  decide (64 ≤ (xs.filter (fun c => decide (c.slot = sl))).length)
    || decide (128 ≤ (xs.filter (fun c => decide (c.slot.tileId = sl.tileId))).length)

/-- Whether spans overlap the destination of an earlier command of the slot in flight (R192). -/
def State.copyOverlap (s : State) (sl : SlotId) (xs : List (Nat × Nat)) : Bool :=
  s.cmds.any (fun c => c.engine == .x && decide (c.slot = sl) && spansMeet xs c.dst)

/-- Issues an X command and completes its entry. -/
def issueCopy (s : State) (c : Cmd) : Out :=
  let sl := s.cur.slot
  doneOut (({ s with fresh := s.fresh + 1 }.noteEngine sl .x c.src).issue { c with
    slot := sl
    engine := .x
    word := s.cur.entry.word
    cap1 := s.cur.entry.cap1
    cap2 := s.cur.entry.cap2
    rd := s.cur.entry.rd
    chained := (s.slot sl).chain.isSome
    stamp := s.cur.entry.stamp, born := s.cur.entry.born })

/-- The ready flag that a window names, set in a slot (R113, R193). -/
def DstWindow.flags (T : DstWindow) (at_ : List SlotId) : List (SlotId × Nat) :=
  if T.fle then at_.map (fun x => (x, T.flag)) else []

/-- The barrier object of a window. -/
def DstWindow.bar (T : DstWindow) : Option Nat := if T.barv then some T.baddr else none

/-! ## Peers -/

/-- The port that a packet to an address of a device takes (R420): a route entry holds a count of one to four in [2:0] and
its ports in bytes above, and packets are spread over them by address modulo 4 KiB. The device has 24 ports. -/
def State.portTo (s : State) (dev addr : Nat) : Option Nat :=
  let e := mget s.routes dev 0
  let n := min (field e 0 3) 4
  let port := field e (8 + 8 * (Config.spread (addr % 4096) % n)) 8
  if n == 0 || 24 ≤ port then none else some port

/-- The entry and key of a partition in a port's table (R422): an entry holds KEY in [15:0] and the partition above. -/
def State.portKey (s : State) (port part : Nat) : Option (Nat × Nat) :=
  ((mget s.ports port {}).keys.find? (fun k => k.2 % 65536 != 0 && k.2 / 65536 == part)).map (fun k => (k.1, k.2 % 65536))

/-- The device of a peer address (R411). -/
def peerDev (a : Nat) : Nat := (a - 0x8000000000000) / 0x8000000000

/-- What is asked of a peer: an address, the bytes to go there or as many as are to come, and for a read the place of its
bits (see PeerRequest). -/
structure PeerPart where
  addr : Nat
  bytes : List Byte
  piece : Nat × Nat × Nat × Nat × Nat
  deriving Repr

/-- Parts that follow each other in the memory of one peer, as one packet takes them. -/
structure PeerRun where
  addr : Nat
  bytes : List Byte
  pieces : List (Nat × Nat × Nat × Nat × Nat)
  deriving Repr

/-- A part as a run of its own. -/
def PeerPart.run (p : PeerPart) : PeerRun :=
  ⟨p.addr, p.bytes, [(p.piece.1, p.piece.2.1, p.piece.2.2.1, p.piece.2.2.2.1, 0)]⟩

/-- Whether a part goes on where a run ends, within the longest payload: behind its last byte, or within that byte where an
element narrower than a byte ended there. -/
def PeerRun.goesOn (r : PeerRun) (lim : Nat) (p : PeerPart) : Bool :=
  peerDev r.addr == peerDev p.addr && decide (p.addr + p.bytes.length ≤ r.addr + lim)
    && (p.addr == r.addr + r.bytes.length || (p.piece.2.1 != 0 && p.addr + 1 == r.addr + r.bytes.length))

/-- A run with a part behind it. -/
def PeerRun.append (r : PeerRun) (p : PeerPart) : PeerRun :=
  let o := p.addr - r.addr
  { r with
    bytes := r.bytes.take o ++ toBytes p.bytes.length (ofBytes (r.bytes.drop o) ||| ofBytes p.bytes)
    pieces := r.pieces ++ [(p.piece.1, p.piece.2.1, p.piece.2.2.1, p.piece.2.2.2.1, o)] }

/-- Parts cut into runs of at most lim bytes (R421), in the order of the parts. -/
def peerRuns (lim : Nat) (xs : List PeerPart) : List PeerRun :=
  (xs.foldl (fun (rs : List PeerRun) p => match rs with
    | r :: rest => if r.goesOn lim p then r.append p :: rest else p.run :: rs
    | [] => [p.run]) []).reverse

/-- Longest payload of a packet of elements of a format (R421): no element is cut by the end of a packet. -/
def Format.payload (f : Format) : Nat := if f.size % 8 == 6 then 4032 else 4096

/-- A packet to a peer: its device, port, entry of the port's table, key, and what it asks. -/
structure PeerPacket where
  dev : Nat
  port : Nat
  entry : Nat
  key : Nat
  run : PeerRun
  deriving Repr

/-- The packets of a command to peers (R420, R421, R422). None where a port is down or has no key of the issuer's partition
(R422, R423). -/
def State.peerPackets (s : State) (sl : SlotId) (lim : Nat) (xs : List PeerPart) : Option (List PeerPacket) :=
  (peerRuns lim xs).mapM (fun r =>
    let dev := peerDev r.addr
    (s.portTo dev (r.addr % 0x8000000000)).bind (fun port =>
      if (mget s.ports port {}).up then (s.portKey port sl.part).map (fun k => ⟨dev, port, k.1, k.2, r⟩) else none))

/-- A packet's bytes (R421): header, payload filled with zeros to a multiple of 32, tag. LEN counts the bytes before the
filling (log entry 46). -/
def packetBytes (gcm dst src key op arg addr len counter tag stat cls : Nat) (payload : List Byte) : List Byte :=
  let b := toBytes 2 dst ++ toBytes 2 src ++ toBytes 2 key ++ toBytes 1 op ++ toBytes 1 arg ++ toBytes 8 addr
    ++ toBytes 4 len ++ toBytes 12 (src + counter * 4096) ++ toBytes 8 tag ++ toBytes 4 stat ++ toBytes 1 cls ++ toBytes 19 0
    ++ payload ++ List.replicate ((32 - payload.length % 32) % 32) 0
  b ++ toBytes 16 (Config.gcmTag gcm (src + counter * 4096) b).toNat

/-- The tag of a command's packet. -/
def peerTag (id n : Nat) : Nat := id % 2 ^ 32 * 2 ^ 32 + n

/-- Sends one packet of a request to a peer (R421, R422): a read asks for LEN bytes with no payload. -/
def State.sendPeer (s : State) (p : PeerPacket) (op arg tag cls : Nat) : State :=
  let q := mget s.ports p.port {}
  let n := mget q.counters 0 0
  let bs := packetBytes (mget q.gcm p.entry 0) p.dev s.devNumber p.key op arg (p.run.addr % 0x8000000000) p.run.bytes.length n
    tag 0 cls (if op == 2 then [] else p.run.bytes)
  { s with
    ports := mset s.ports p.port { q with counters := mset q.counters 0 (n + 1) }
    out := s.out ++ [{ kind := 40, fields := [p.port], bytes := bs }] }

/-- Issues a command to peers (R202, R422, R423): op 1 writes, 4 reduces, 2 reads with its writes still to come; a payload is
of lim bytes at most. With no key or no port it completes with PEER and FAIL. -/
def issuePeer (s : State) (c : Cmd) (op arg cls lim : Nat) (xs : List PeerPart) : Out :=
  match s.peerPackets s.cur.slot lim xs with
  | none => issueCopy s { c with moves := [], regMoves := [], stat := c.stat ||| stPEER ||| stFAIL }
  | some gs =>
    let id := s.nextCmd
    let s1 := gs.zipIdx.foldl (fun s g => s.sendPeer g.1 op arg (peerTag id g.2) cls) s
    issueCopy s1 { c with remote := gs.zipIdx.map (fun g =>
      { index := g.2, port := g.1.port, pieces := g.1.run.pieces }) }

/-! ## The copying commands -/

/-- Everything that a copying command has found out before it moves an element. -/
structure CopyPlan where
  kind : CopyKind
  S : SrcWindow
  T : DstWindow
  r : Record
  d : Record
  pairs : List (Ix × Ix)
  src : List (List (Part_ × Spot))
  srcScale : List (List (Part_ × Spot))
  dst : List (List (List (Part_ × Spot)))
  dstScale : List (List (List (Part_ × Spot)))
  targets : List (Option SlotId)
  ui : Bool

/-- Positions of the first elements of MX blocks among pairs. -/
def blockStarts (f : Format) (xs : List (Ix × Ix)) : List (Ix × Ix) :=
  if f.isMx then xs.filter (fun p => p.1.i0 % 32 == 0) else []

/-- The members that a command's destination reaches: the owner of the part, or for XBCST every other member. -/
def State.copyTargets (s : State) (sl : SlotId) (k : CopyKind) (d : Record) : List (Option SlotId) :=
  match k with
  | .bcst =>
    let me := (((s.slot sl).task).map (·.member)).getD 0
    let n := ((s.gangOf sl).map (·.size)).getD 0
    ((List.range n).filter (· != me)).map (fun m => s.memberSlot sl m)
  | _ => [if inGangWindow d.base then s.memberSlot sl (memberOf d.base) else none]

/-- Builds the plan (R191, R199, R202, R259). -/
def State.copyPlan (s : State) (sl : SlotId) (k : CopyKind) (S : SrcWindow) (T : DstWindow) (r d : Record)
    (idx : List Nat) (ui : Bool) : CopyPlan :=
  let pairs := copyPairs k S T r d idx
  let from_ := if inGangWindow r.base then s.memberSlot sl (memberOf r.base) else none
  let targets := s.copyTargets sl k d
  let place (rec : Record) (remote write : Bool) (tgt : Option SlotId) (ps : List Part_) : List (Part_ × Spot) :=
    ps.map (fun p => (p, s.spot sl rec remote write tgt p.va))
  let same := k != .cpyt
  let blocks := if same then blockStarts d.fmt pairs else []
  let dscale := if same then blocks.map (·.2)
    else if d.fmt.isMx then (pairs.filter (fun p => p.2.i0 % 32 == 0)).map (·.2) else []
  let sscale := if same then blocks.map (·.1) else if r.fmt.isMx then pairs.map (·.1) else []
  { kind := k
    S := S
    T := T
    r := r
    d := d
    pairs := pairs
    src := pairs.map (fun p => place r (k == .get) false from_ (r.parts p.1))
    srcScale := sscale.map (fun i => place r (k == .get) false from_ (r.scaleParts i))
    dst := targets.map (fun t => pairs.map (fun p => place d k.toRemote true t (d.parts p.2)))
    dstScale := targets.map (fun t => dscale.map (fun i => place d k.toRemote true t (d.scaleParts i)))
    targets := targets
    ui := ui }

/-- The source spots. -/
def CopyPlan.srcSpots (c : CopyPlan) : List (Part_ × Spot) := (c.src ++ c.srcScale).flatten

/-- The destination spots. -/
def CopyPlan.dstSpots (c : CopyPlan) : List (Part_ × Spot) := (c.dst ++ c.dstScale).flatten.flatten

/-- The first OUTLEASE address among spots. -/
def firstOut (xs : List (Part_ × Spot)) : Option Nat :=
  xs.findSome? (fun x => match x.2 with | .outlease va => some va | _ => none)

/-- Whether some spot is refused with a sub-code. -/
def anyBad (sub : Nat) (xs : List (Part_ × Spot)) : Bool :=
  xs.any (fun x => match x.2 with | .bad n => n == sub | _ => false)

/-- Whether some spot disagrees with its record's class (R272). -/
def anyClass (xs : List (Part_ × Spot)) : Bool := xs.any (fun x => x.2 == .badClass)

/-- Whether some spot is beyond what its member holds (R260). -/
def anyLost (xs : List (Part_ × Spot)) : Bool := xs.any (fun x => x.2 == .lost)

/-- What a command writes from what (R195): elements from elements, scale bytes from scale bytes, an element from the scale
of an MX source that XCPYT converts, and the scale of an MX block that it makes from the block's elements. -/
def CopyPlan.sources (c : CopyPlan) (dst dstScale : List (List (Part_ × Spot))) :
    List (List (Part_ × Spot) × List (Part_ × Spot)) :=
  c.src.zip dst ++ (if c.kind != .cpyt then c.srcScale.zip dstScale
    else c.srcScale.zip dst ++ dstScale.zipIdx.map (fun b => (((c.src.drop (32 * b.2)).take 32).flatten, b.1)))

/-- The first pair of classes where the destination's is above the source's (R195). -/
def classCross (pairs : List (List (Part_ × Spot) × List (Part_ × Spot))) : Option (Nat × Nat) :=
  pairs.findSome? (fun e =>
    (e.1.flatMap (fun a => e.2.map (fun b => (a.2.cls, b.2.cls)))).findSome? (fun c => match c with
      | (some a, some b) => if b < a then some (a, b) else none
      | _ => none))

/-- Regions that a transfer needs and that are spilled (R320): their holders want them back. -/
def State.wantSpots (s : State) (xs : List (Part_ × Spot)) : Option State :=
  let miss := xs.filterMap (fun x => match x.2 with
    | .mem _ _ _ (some (m, off)) => if s.resident m off 1 then none else some (m, off)
    | _ => none)
  if miss.isEmpty then none else some (miss.foldl (fun s m => s.wantSpan m.1 m.2 1) s)

/-- Finds the soft errors in what a command reads, with injections armed in the slot's own state there (R323, R335). -/
def State.settleSpots (s : State) (sl : SlotId) (xs : List (Part_ × Spot)) : State :=
  xs.foldl (fun s x =>
    let n := (x.1.bit + x.1.width + 7) / 8
    match x.2 with
    | .mem a _ _ r =>
      (match r with
       | some (m, off) => if decide (m = sl) then s.injectLocal sl off n else s
       | none => s).settle sl 3 a n
    | .acc m k e => if decide (m = sl) then s.injectAcc sl k (· == e) else s
    | .reg m r b => if decide (m = sl) then s.injectM sl r [(b + x.1.bit) / 32, (b + x.1.bit + x.1.width - 1) / 32] else s
    | _ => s) s

/-- The patterns that a command writes, with their scale bytes and flags (R22, R196, R197, R203). -/
def CopyPlan.values (c : CopyPlan) (draws : List Nat) (els scales : List Got) : List Put × List Put × Nat :=
  if c.kind == .cpyt then
    if c.d.fmt.isMx then
      let n := els.length / 32
      let bs := (List.range n).map (fun b =>
        let xs := (els.drop (32 * b)).take 32
        let bad := xs.any (·.2)
        let e := mxEncode c.d.fmt c.S.rm ((draws.drop (32 * b)).take 32) (xs.map (fun x => blockValue c.r.fmt x.1))
        (e, bad))
      (bs.flatMap (fun b => b.1.2.1.map (fun v => { val := v, poison := b.2 })),
       bs.map (fun b => { val := b.1.1, poison := b.2 }),
       bs.foldl (fun f b => f ||| b.1.2.2) 0)
    else
      let ys := (List.range els.length).map (fun i =>
        let x := els.getD i (0, false)
        let sc := scales.getD i (0, false)
        let y := convertElement c.r.fmt c.d.fmt c.S.rm c.S.ieee (draws.getD i 0) x.1 sc.1
        (y, x.2 || sc.2))
      (ys.map (fun y => { val := y.1.1, poison := y.2 }), [], ys.foldl (fun f y => f ||| y.1.2) 0)
  else
    (els.zipIdx.map (fun e =>
       { val := e.1.1
         poison := e.1.2
         op := if c.kind == .red then some c.S.op else none
         rm := c.S.rm
         draw := if c.kind == .get then e.2 else draws.getD e.2 0 }),
     scales.zipIdx.map (fun g => { val := g.1.1, poison := g.1.2, draw := els.length + g.2 }), 0)

/-- Issues a copying command whose checks have passed. -/
def runCopy (c : CopyPlan) (s0 : State) : Out :=
  let sl := s0.cur.slot
  let idx : List (Nat × Nat) :=
    if c.kind.indexed then [(s0.localPhys sl c.S.idx, 4 * indexCount c.kind c.S c.T c.r c.d)] else []
  let s1 := s0.settleSpots sl c.srcSpots
  let ds := s1.draws sl 3 c.S.rm c.pairs.length
  let s := ds.2
  let srcLost := anyLost c.srcSpots
  let dsts := (c.dst.zip c.dstScale).map (fun x => (x.1, x.2))
  let live := dsts.filter (fun x => !anyLost (x.1 ++ x.2).flatten)
  let lost := srcLost || decide (live.length < dsts.length)
  let base : Cmd :=
    { slot := sl
      engine := .x
      ui := c.ui
      bar := c.T.bar
      flags := c.T.flags (if c.kind.toRemote && inGangWindow c.d.base then c.targets.filterMap id else [sl]) }
  let els := c.src.map (s.readCell sl c.r.fmt)
  let scales := c.srcScale.map (s.readCell sl c.r.fmt)
  let v := c.values ds.1 els scales
  let bad := (els ++ scales).any (·.2)
  let stat := (if bad then stPOIS ||| stFAIL else 0) ||| (if lost then stFAIL else 0)
  let peerSrc := c.srcSpots.any (fun x => match x.2 with | .peer _ => true | _ => false)
  let peerDst := c.dstSpots.any (fun x => match x.2 with | .peer _ => true | _ => false)
  let writes (x : List (List (Part_ × Spot)) × List (List (Part_ × Spot))) : List (Put × List (Part_ × Spot)) :=
    v.1.zip x.1 ++ v.2.1.zip x.2
  if srcLost then issueCopy s { base with stat := stat }
  else
    let all := live.flatMap writes
    let cmd := { base with
      moves := all.flatMap (fun e => elementMoves c.d e.1 e.2)
      regMoves := all.flatMap (fun e => elementRegMoves c.d e.1 e.2)
      ordered := c.kind == .sct
      stat := stat
      src := idx ++ c.srcSpots.flatMap (fun x => x.2.span x.1)
      dst := c.dstSpots.flatMap (fun x => x.2.span x.1)
      fl := v.2.2 }
    if peerDst then
      issuePeer s cmd (if c.kind == .red then 4 else 1)
        (if c.kind == .red then c.S.op + 8 * (c.d.code - 1) else 0) c.r.cls c.d.fmt.payload
        (all.flatMap (fun e => e.2.filterMap (fun q => match q.2 with
          | .peer a =>
            let n := (q.1.bit + q.1.width + 7) / 8
            some { addr := a, bytes := toBytes n (e.1.val / 2 ^ q.1.shift % 2 ^ q.1.width * 2 ^ q.1.bit)
                   piece := (0, q.1.bit, q.1.width, 0, 0) }
          | _ => none)))
    else if peerSrc then
      let spots := (c.src ++ c.srcScale).zipIdx.flatMap (fun e => e.1.map (fun x => (e.2, x)))
      issuePeer s { cmd with stat := 0 } 2 0 0 c.r.fmt.payload (spots.filterMap (fun e => match e.2.2 with
        | .peer a =>
          let x := e.2.1
          let n := (x.bit + x.width + 7) / 8
          some { addr := a, bytes := toBytes n 0, piece := (e.1, x.bit, x.width, x.shift, 0) }
        | _ => none))
    else issueCopy s cmd

/-- The checks of a copying command once its records are known, in the order of the sub-codes, then OUTLEASE, then
CLASSX (log entry 26). -/
def checkCopy (k : CopyKind) (S : SrcWindow) (T : DstWindow) (r d : Record) (ui : Bool) (s : State) : Out :=
  let sl := s.cur.slot
  let fmtErr (sub tid : Nat) : Out := copyFmt s (some T) sub tid
  let okShape := !shapeBad k S T r d
  let n := indexCount k S T r d
  let idxOk := !k.indexed || (S.idx % 4 == 0 && s.spanHeld sl S.idx (4 * n))
  let idxSpan : List (Nat × Nat) := if k.indexed && okShape && idxOk then [(S.idx, S.idx + 4 * n)] else []
  if !s.spansResident sl idxSpan then stallOut (s.wantSpans sl idxSpan)
  else
    let s1 := s.settleSpans sl 3 idxSpan
    let idx := if idxSpan.isEmpty then [] else (List.range n).map (fun i =>
      s1.viewNum (.eng sl .x) s.cur.entry.view s.cur.entry.own (Config.pick s.fresh (S.idx + 4 * i))
        (s1.localPhys sl (S.idx + 4 * i)) 4)
    let range := if k == .gth then r.e1 else d.e1
    let plan := if okShape && idxOk && idx.all (fun i => decide (i < range)) then some (s1.copyPlan sl k S T r d idx ui)
      else none
    let srcs := ((plan.map (·.srcSpots)).getD [])
    let dsts := ((plan.map (·.dstSpots)).getD [])
    let me := (((s.slot sl).task).map (·.member)).getD 0
    if !s.shadowAgrees sl r || (inGangWindow r.base && k != .get) || anyClass srcs then fmtErr 1 S.tid
    else if !s.shadowAgrees sl d || (inGangWindow d.base && !k.toRemote) || anyClass dsts then fmtErr 1 T.tid
    else if formatBad k S T r d || anyBad 2 srcs || anyBad 2 dsts then fmtErr 2 T.tid
    else if !okShape then fmtErr 3 T.tid
    else if !idxOk || (T.barv && (T.baddr % 16 != 0 || !s.spanHeld sl T.baddr 16)) then fmtErr 4 T.tid
    else if idx.any (fun i => decide (range ≤ i)) then
      (match s1.badSpan sl idxSpan with
       | some a => s1.consumeEngine .x (poisonVal a false true 3) (fun s => copyFmt s (some T) 5 T.tid)
       | none => fmtErr 5 T.tid)
    else if k == .red && decide (3 ≤ S.op) then fmtErr 8 T.tid
    else if k == .get && (!s.remoteBase sl r || anyBad 9 srcs) then fmtErr 9 S.tid
    else if k.toRemote && (!s.remoteBase sl d || anyBad 9 dsts) then fmtErr 9 T.tid
    else if k == .bcst && (!inGangWindow d.base || memberOf d.base != me) then fmtErr 9 T.tid
    else
      match plan with
      | none => fmtErr 3 T.tid
      | some p =>
        match firstOut srcs, firstOut dsts with
        | some va, _ => copyLease s1 va S.tid
        | none, some va => copyLease s1 va T.tid
        | none, none =>
          match (if k == .cls then none else (p.dst.zip p.dstScale).findSome? (fun x => classCross (p.sources x.1 x.2))) with
          | some (a, b) => copyFault s1 (some T) stCLASS
              { cause := 0x0C, val := 3 + T.tid * 2 ^ 16 + a * 2 ^ 40 + b * 2 ^ 44, tid := T.tid }
          | none =>
            match s1.wantSpots (srcs ++ dsts) with
            | some s2 => stallOut s2
            | none =>
              if s1.copyOverlap sl (idxSpan.map (fun x => (s1.localPhys sl x.1, x.2 - x.1))
                  ++ (srcs ++ dsts).flatMap (fun x => x.2.span x.1)) then stallOut s1
              else
                match s1.badSpan sl idxSpan with
                | some a => s1.consumeEngine .x (poisonVal a false true 3) (runCopy p)
                | none => runCopy p s1

/-- A command between two windows (R188 to R203): the limits of R192, the records, then the checks. -/
def copyWord (k : CopyKind) (u : Nat) (s : State) : Out :=
  let sl := s.cur.slot
  let S := SrcWindow.of s.cur.entry.cap1.toNat
  let T := DstWindow.of s.cur.entry.cap2.toNat
  if s.copyFull sl then stallOut s
  else if s.barrierAway sl T then stallOut (s.wantSpan sl T.baddr 16)
  else
    let a := s.lookup sl (.eng sl .x) 3 S.tid
    let b := a.1.lookup sl (.eng sl .x) 3 T.tid
    match a.2, b.2 with
    | some r, some d => checkCopy k S T r d (u == 1) b.1
    | none, _ => copyFmt b.1 (some T) 1 S.tid
    | _, none => copyFmt b.1 (some T) 1 T.tid

/-- XCPY (R196). -/
def execXcpy (_d _a _b : Fin 64) (_p u : Fin 2) (s : State) : Out := copyWord .cpy u.val s

/-- XCPYT (R196). -/
def execXcpyt (_d _a _b : Fin 64) (_p u : Fin 2) (s : State) : Out := copyWord .cpyt u.val s

/-- XCLASS (R195, R196). -/
def execXclass (_d _a _b : Fin 64) (_p u : Fin 2) (s : State) : Out := copyWord .cls u.val s

/-- XGTH (R199). -/
def execXgth (_d _a _b : Fin 64) (_p u : Fin 2) (s : State) : Out := copyWord .gth u.val s

/-- XSCT (R199). -/
def execXsct (_d _a _b : Fin 64) (_p u : Fin 2) (s : State) : Out := copyWord .sct u.val s

/-- XPUT (R202). -/
def execXput (_d _a _b : Fin 64) (_p u : Fin 2) (s : State) : Out := copyWord .put u.val s

/-- XGET (R202). -/
def execXget (_d _a _b : Fin 64) (_p u : Fin 2) (s : State) : Out := copyWord .get u.val s

/-- XRED (R202, R203). -/
def execXred (_d _a _b : Fin 64) (_p u : Fin 2) (s : State) : Out := copyWord .red u.val s

/-- XBCST (R202). -/
def execXbcst (_d _a _b : Fin 64) (_p u : Fin 2) (s : State) : Out := copyWord .bcst u.val s

/-- XFILL (R198). -/
def execXfill (_d _a _b : Fin 64) (_p u : Fin 2) (s : State) : Out :=
  let sl := s.cur.slot
  let T := DstWindow.of s.cur.entry.cap2.toNat
  if s.copyFull sl then stallOut s
  else if s.barrierAway sl T then stallOut (s.wantSpan sl T.baddr 16)
  else
    let b := s.lookup sl (.eng sl .x) 3 T.tid
    match b.2 with
    | none => copyFmt b.1 (some T) 1 T.tid
    | some d =>
      let s1 := b.1
      let at_ := (positions d.e0 (d.e1 - T.org) d.e2 d.e3).map (fun p =>
        (d.parts ⟨p.i0, T.org + p.i1, p.i2, p.i3⟩).map (fun q => (q, s1.spot sl d false true none q.va)))
      let spots := at_.flatten
      if !s1.shadowAgrees sl d || inGangWindow d.base || anyClass spots then copyFmt s1 (some T) 1 T.tid
      else if T.rsv != 0 || T.unused || d.fmt.isMx then copyFmt s1 (some T) 2 T.tid
      else if d.e1 ≤ T.org then copyFmt s1 (some T) 3 T.tid
      else if T.barv && (T.baddr % 16 != 0 || !s1.spanHeld sl T.baddr 16) then copyFmt s1 (some T) 4 T.tid
      else match firstOut spots with
        | some va => copyLease s1 va T.tid
        | none =>
          let span := spots.flatMap (fun x => x.2.span x.1)
          if s1.copyOverlap sl span then stallOut s1
          else
            let w : Put := { val := s.cur.entry.cap1.toNat % 2 ^ d.fmt.size, poison := false }
            issueCopy s1
              { slot := sl
                engine := .x
                ui := u.val == 1
                bar := T.bar
                flags := T.flags [sl]
                moves := at_.flatMap (elementMoves d w)
                dst := span }

/-! ## Streams -/

/-- The pattern block of XBIND (R200): base, extents, strides; none where it is ill-formed. -/
def parsePattern (b : List Byte) : Option (Nat × List Nat × List Int) :=
  let base := blockNum b 0 4
  let ext := (List.range 4).map (fun i => blockNum b (8 + 2 * i) 2)
  if base % 4 != 0 || base / 2 ^ 22 != 0 || blockNum b 4 4 != 0 || ext.contains 0 then none
  else some (base, ext, (List.range 4).map (fun i => toSigned 32 (blockNum b (16 + 4 * i) 4)))

/-- The lowest and the highest local address of a pattern's words (R200). -/
def patternReach (base : Nat) (ext : List Nat) (str : List Int) : Int × Int :=
  let f (g : Int → Int) : Int := (ext.zip str).foldl (fun a e => a + g (((e.1 : Int) - 1) * e.2)) 0
  ((base : Int) + 4 * f (min 0), (base : Int) + 4 * f (max 0))

/-- Completes an X command that has no writes in flight (R193): its reply at once. -/
def finishCopy (s : State) (u reply : Nat) (move : State → State) : Out :=
  issueCopy (move s) { slot := s.cur.slot, engine := .x, ui := u == 1, reply := some reply }

/-- Unbinds a stream (R200): what has not been read is discarded. -/
def State.unbind (s : State) (sl : SlotId) (q : Nat) : State := s.modRegs sl (fun r => { r with streams := mdel r.streams q })

/-- Whether a stream still has written elements to drain (R200). -/
def Slot.undrained (v : Slot) (q : Nat) : Bool :=
  match mfind v.regs.streams q with
  | some t => !t.out.isEmpty
  | none => false

/-- XBIND (R200). -/
def execXbind (_d _a _b : Fin 64) (u : Fin 2) (s : State) : Out :=
  let sl := s.cur.slot
  let a := s.cur.entry.cap1.toNat
  let b := s.cur.entry.cap2.toNat
  let q := b % 16
  if s.copyFull sl || (s.slot sl).streamBusy q s.cur.entry.stamp then stallOut s
  else if b / 32 != 0 then copyFmt s none 2 0
  else if a % 8 != 0 || !s.spanHeld sl a 32 then copyFmt s none 4 0
  else if !s.resident sl a 32 then stallOut (s.wantSpan sl a 32)
  else if s.copyOverlap sl [(s.localPhys sl a, 32)] then stallOut s
  else
    let s1 := (s.injectLocal sl a 32).settle sl 3 (s.localPhys sl a) 32
    let go (s2 : State) : Out :=
      let bytes := (List.range 4).flatMap (fun i => toBytes 8
        (s2.viewNum (.eng sl .x) s.cur.entry.view s.cur.entry.own (Config.pick s.fresh (a + 8 * i))
          (s2.localPhys sl (a + 8 * i)) 8))
      match parsePattern bytes with
      | none => copyFmt s2 none 6 0
      | some (base, ext, str) =>
        let r := patternReach base ext str
        if r.1 < 0 || !s2.spanHeld sl r.1.toNat (r.2 - r.1 + 4).toNat then copyFmt s2 none 4 0
        else if (s2.slot sl).undrained q then stallOut s2
        else
          let t : Stream :=
            { write := bitOf b 4, base := base, ext := ext, str := str, next := 0, filled := [], out := []
              view := s2.cur.entry.view, own := s2.cur.entry.own, recent := [] }
          finishCopy s2 u.val 0 (fun s => s.modRegs sl (fun g => { g with streams := mset g.streams q t }))
    if s1.poisonedIn (s1.localPhys sl a) 32 then s1.consumeEngine .x (poisonVal a false true 3) go else go s1

/-- XUNB (R200). -/
def execXunb (_d _a : Fin 64) (u : Fin 2) (s : State) : Out :=
  let sl := s.cur.slot
  let a := s.cur.entry.cap1.toNat
  if s.copyFull sl || (s.slot sl).streamBusy (a % 16) s.cur.entry.stamp then stallOut s
  else if a / 16 != 0 then copyFmt s none 2 0
  else if (s.slot sl).undrained (a % 16) then stallOut s
  else finishCopy s u.val 0 (fun s => s.unbind sl (a % 16))

/-! ## Publish, chains, status -/

/-- Whether a command in flight writes a shadow buffer: a write is still to come, or went to one of its backings. -/
def Cmd.writesBuffer (c : Cmd) (ps : List Page) : Bool :=
  c.moves.any (fun m => ps.any (fun p => p.leaf + 1 == m.leaf))
    || c.wrote.any (fun w => ps.any (fun p => decide (p.frame ≤ w.1) && decide (w.1 < p.frame + 2 * p.size)))

/-- Whether the record that an identifier names now writes a shadow buffer (R121). -/
def State.targets (s : State) (sl : SlotId) (ps : List Page) (tid : Nat) : Bool :=
  match (s.lookup sl (.core sl) 0 tid).2 with
  | some r => r.shadow && (s.bufferPages sl r).any (fun p => ps.any (fun q => q.leaf == p.leaf))
  | none => false

/-- Whether a record may name a buffer to publish (R121, R259, R272). -/
def State.publishable (s : State) (sl : SlotId) (r : Record) : Bool :=
  s.shadowAgrees sl r && !inGangWindow r.base &&
    (match s.kernelOf sl with
     | some k => (match k.page? r.base with | some p => p.cls == r.cls | none => true)
     | none => false)

/-- Whether an MEPI that stands before an entry in the order of pushes and writes a buffer is queued or in flight (R121,
R204). -/
def State.epiPending (s : State) (sl : SlotId) (born : Nat) (ps : List Page) (tids : Nat → Bool) : Bool :=
  let q := (s.slot sl).seq .m
  q.q.zipIdx.any (fun e => q.live e.2 && (match e.1.kind with | .word => true | _ => false)
      && e.1.word / 0x400000 == 0x107 && decide (e.1.born < born)
      && tids (e.1.cap1.toNat % 4096))
    || (s.inflight sl).any (fun c => c.matrix && c.writesBuffer ps && decide (c.born < born))

/-- Whether the slot has no X command in flight. -/
def State.copyQuiet (s : State) (sl : SlotId) : Bool := !(s.inflight sl).any (fun c => c.engine == .x)

/-- XPUB (R204). -/
def execXpub (_d _a : Fin 64) (u : Fin 2) (s : State) : Out :=
  let sl := s.cur.slot
  let a := s.cur.entry.cap1.toNat
  let tid := field a 0 12
  let scope := field a 12 4
  if !s.copyQuiet sl || s.copyFull sl then stallOut s
  else
    let b := s.lookup sl (.eng sl .x) 3 tid
    match b.2 with
    | none => copyFmt b.1 none 1 tid
    | some r =>
      let s1 := b.1
      let ps := s1.bufferPages sl r
      if !s1.publishable sl r then copyFmt s1 none 1 tid
      else if a / 65536 != 0 || scope == 6 || decide (9 < scope) then copyFmt s1 none 8 tid
      else if s1.epiPending sl s.cur.entry.born ps (fun t => s1.targets sl ps t) then stallOut s1
      else if !r.shadow then finishCopy s1 u.val 0x100 id
      else finishCopy s1 u.val 0 (fun s => s.publish sl scope (ps.map (·.leaf)))

/-- XCHAIN (R205): the chain begins; its blocks run while the word stays at the head of its queue. -/
def execXchain (_d _a _b : Fin 64) (_u : Fin 2) (s : State) : Out :=
  let sl := s.cur.slot
  if (s.slot sl).chain.isSome then stallOut s
  else
    let n := s.cur.entry.cap2.toNat
    let c : Chain :=
      { next := s.cur.entry.cap1.toNat, left := if n == 0 then none else some n, done := 0, stat := 0, begun := false
        entries := [], paddr := 0, pinc := 0, after := 0 }
    .next { s.modSlot sl (fun v => { v with chain := some c }) with cur := { s.cur with status := .moved } }

/-- XSTAT (R206). -/
def execXstat (_d _a : Fin 64) (u : Fin 2) (s : State) : Out :=
  let sl := s.cur.slot
  let v := s.slot sl
  if s.copyFull sl then stallOut s
  else match s.cur.entry.cap1.toNat with
    | 0 => finishCopy s u.val (s.counter sl 2 - 1) id
    | 1 => finishCopy s u.val v.xdoneCount id
    | 2 => finishCopy s u.val v.xchain id
    | 3 => finishCopy s u.val v.xbytes id
    | _ => copyFmt s none 8 0

/-- ESET of the copy queue (R207). -/
def execEsetX (f : Fin 16) (s : State) : Out := esetWord f.val (s.copyQuiet s.cur.slot) s

/-- EWAIT of the copy queue (R207). -/
def execEwaitX (f : Fin 16) (s : State) : Out := ewaitWord .x f.val s

end Sys2Proof.Machine
end

