-- ==== Sys2Proof/Machine/Bank.lean ====
section
/-!
DEFINITION. The B words and the in-bank units (spec/07, R207 to R211; spec/10 R278, R279; spec/11 R296).
-/

namespace Sys2Proof.Machine

/-- The operands of a B command (R208, R209). -/
structure BankOp where
  y : Nat
  len : Nat
  xoff : Nat
  typ : Nat
  imm : Nat
  deriving DecidableEq, Repr

/-- Reads them from the captured values; n is the length in bytes where the command has no LEN (R208). -/
def BankOp.of (fn a b : Nat) : BankOp :=
  { y := field a 0 57
    len := if fn == 7 then 4 else 256 * (field a 57 7 + 1)
    xoff := field b 0 15
    typ := field b 16 2
    imm := field b 32 32 }

/-- Virtual base of the slab (R208). -/
def BankOp.slab (o : BankOp) : Nat := o.y / 0x8000 * 0x8000

/-- Whether a command uses XOFF (R209): BKADD, BKAXPY, BKGSUM. -/
def usesX (fn : Nat) : Bool := fn == 0 || fn == 1 || fn == 3

/-- Offset of BKGSUM's index list and its length (R209). -/
def BankOp.list (o : BankOp) : Nat × Nat := (field o.imm 0 15, field o.imm 16 5)

/-- Whether a field that R208 and R209 require to be zero is not. -/
def bankZeros (fn a b : Nat) : Bool :=
  let o := BankOp.of fn a b
  if fn == 7 then field a 57 7 != 0
  else bitOf b 15 || field b 18 14 != 0 || (!usesX fn && o.xoff != 0)
    || ((fn == 0 || fn == 2 || fn == 6) && o.imm != 0) || (fn == 3 && field o.imm 21 11 != 0)

/-- A trap of the bank port (R210, R212). -/
def bankTrap (s : State) (t : Trap) : Out := .next (s.engineTrap s.cur.slot .b t)

/-- An FMTERR of the bank port (R212). -/
def bankFmt (s : State) (sub : Nat) : Out := bankTrap s { cause := 0x0B, val := 5 + sub * 2 ^ 32, sub := sub }

/-- BANKX or ALIGN at a virtual address (R210). -/
def bankAddr (s : State) (cause va : Nat) : Out :=
  bankTrap s { cause := cause, val := va % 2 ^ 57 + 5 * 2 ^ 61, addr := va }

/-- The page of a byte that a bank command touches, if the task's lease has it in a range with the bank right
(R210). -/
def State.bankPage (s : State) (sl : SlotId) (va : Nat) : Option Page :=
  match s.kernelOf sl, s.pageOf sl va with
  | some k, some p => if bitOf (k.rangeRights p) 2 then some p else none
  | _, _ => none

/-- Spans of virtual bytes whose addresses a B word gives itself (R209): y, x where the command has one element of x for
each of y, and BKGSUM's index list. A row of BKGSUM is given by an index, and R210's fifth check is the one on it. -/
def bankSpans (fn : Nat) (o : BankOp) : List (Nat × Nat) :=
  [(o.y, o.len)] ++ (if fn == 0 || fn == 1 then [(o.slab + o.xoff, o.len)] else [])
    ++ (if fn == 3 then [(o.slab + o.list.1, 2 * o.list.2)] else [])

/-- The addresses at which those spans begin, and where they go on beyond the slab (R210): no page border lies elsewhere
in them, since a page is made of whole slabs. -/
def bankHeads (fn : Nat) (o : BankOp) : List Nat :=
  ((bankSpans fn o).filter (fun r => r.2 != 0)).flatMap (fun r =>
    r.1 :: (if r.1 < o.slab + 0x8000 && o.slab + 0x8000 < r.1 + r.2 then [o.slab + 0x8000] else []))

/-- The first offending address of R210's first check: no page that the lease grants with the bank right holds it. -/
def State.bankOutside (s : State) (sl : SlotId) (fn : Nat) (o : BankOp) : Option Nat :=
  (bankHeads fn o).find? (fun va => (s.bankPage sl va).isNone)

/-- The first offending address of R210's second check: its page is not a bank page. -/
def State.bankPlain (s : State) (sl : SlotId) (fn : Nat) (o : BankOp) : Option Nat :=
  (bankHeads fn o).find? (fun va => match s.bankPage sl va with | some p => !p.bk | none => true)

/-- Issues a bank command to its bank (R210, R211). -/
def issueBank (s : State) (u phys : Nat) (idx : List Nat) : Out :=
  doneOut (s.issue
    { slot := s.cur.slot
      engine := .b
      word := s.cur.entry.word
      cap1 := s.cur.entry.cap1
      cap2 := s.cur.entry.cap2
      rd := s.cur.entry.rd
      ui := u == 1
      src := idx.map (fun i => (i, 0))
      bank := some (slabBank phys)
      phys := phys
      slab := phys / 0x8000 * 0x8000
      executed := false
      view := s.cur.entry.view
      own := s.cur.entry.own
      stamp := s.cur.entry.stamp, born := s.cur.entry.born })

/-- The checks of a B word before it leaves the tile (R210), then its issue. DEDUCED: R210's first check is made on the bytes whose
addresses the operands give, and a row of BKGSUM is judged by the fifth alone (log entry 36). -/
def bankWord (fn u : Nat) (s : State) : Out :=
  let sl := s.cur.slot
  let a := s.cur.entry.cap1.toNat
  let b := s.cur.entry.cap2.toNat
  let o := BankOp.of fn a b
  let list := o.list
  match s.bankOutside sl fn o, s.bankPlain sl fn o with
  | some va, _ => bankTrap s { cause := 0x04, val := va, addr := va }
  | none, some va => bankAddr s 0x0D va
  | none, none =>
    let phys := match s.bankPage sl o.y with | some p => p.frame + (o.y - p.va) | none => 0
    if o.y % (if fn == 7 then 4 else 32) != 0 then bankAddr s 0x06 o.y
    else if usesX fn && o.xoff % 32 != 0 then bankAddr s 0x06 (o.slab + o.xoff)
    else if fn == 3 && list.1 % 2 != 0 then bankAddr s 0x06 (o.slab + list.1)
    else if o.slab + 0x8000 < o.y + o.len || ((fn == 0 || fn == 1) && decide (0x8000 < o.xoff + o.len))
        || (fn == 3 && decide (0x8000 < list.1 + 2 * list.2)) then bankAddr s 0x0D (o.slab + 0x8000)
    else if fn != 7 && o.typ == 3 then bankFmt s 1
    else if bankZeros fn a b then bankFmt s 2
    else if fn == 3 && list.2 == 0 then bankFmt s 3
    else if fn == 3 then
      let base := phys / 0x8000 * 0x8000 + list.1
      let s1 := s.settle sl 5 base (2 * list.2)
      let idx := (List.range list.2).map (fun i =>
        s1.viewNum (.eng sl .b) s.cur.entry.view s.cur.entry.own (Config.pick s.fresh i) (base + 2 * i) 2)
      let go (s2 : State) : Out :=
        if idx.any (fun i => decide (0x8000 < o.xoff + (i + 1) * o.len)) then bankFmt s2 3
        else issueBank { s2 with fresh := s2.fresh + 1 } u phys idx
      if s1.poisonedIn base (2 * list.2) then
        s1.consumeEngine .b (poisonVal (o.slab + list.1) false false 5) go
      else go s1
    else issueBank s u phys []

/-- BKADD (R209). -/
def execBkadd (_d _a _b : Fin 64) (u : Fin 2) (s : State) : Out := bankWord 0 u.val s

/-- BKAXPY (R209). -/
def execBkaxpy (_d _a _b : Fin 64) (u : Fin 2) (s : State) : Out := bankWord 1 u.val s

/-- BKRED (R209). -/
def execBkred (_d _a _b : Fin 64) (u : Fin 2) (s : State) : Out := bankWord 2 u.val s

/-- BKGSUM (R209). -/
def execBkgsum (_d _a _b : Fin 64) (u : Fin 2) (s : State) : Out := bankWord 3 u.val s

/-- BKFILL (R209). -/
def execBkfill (_d _a _b : Fin 64) (u : Fin 2) (s : State) : Out := bankWord 4 u.val s

/-- BKSCAL (R209). -/
def execBkscal (_d _a _b : Fin 64) (u : Fin 2) (s : State) : Out := bankWord 5 u.val s

/-- BKMAX (R209). -/
def execBkmax (_d _a _b : Fin 64) (u : Fin 2) (s : State) : Out := bankWord 6 u.val s

/-- BKCAS (R209). -/
def execBkcas (_d _a _b : Fin 64) (u : Fin 2) (s : State) : Out := bankWord 7 u.val s

/-- Whether every earlier bank command of the slot has executed and replied (R207). -/
def State.bankQuiet (s : State) (sl : SlotId) : Bool := !(s.inflight sl).any (fun c => c.engine == .b)

/-- ESET of the bank queue (R207). -/
def execEsetB (f : Fin 16) (s : State) : Out := esetWord f.val (s.bankQuiet s.cur.slot) s

/-- EWAIT of the bank queue (R207). -/
def execEwaitB (f : Fin 16) (s : State) : Out := ewaitWord .b f.val s

/-! ## At the bank -/

/-- Bytes of an element by TYPE (R208). -/
def bankSize (t : Nat) : Nat := if t == 0 then 2 else 4

/-- The value of an element by TYPE. -/
def bankVal (t v : Nat) : Fl :=
  if t == 0 then decodeFl FP16 v else if t == 1 then decodeFl FP32 v else .ofInt (toSigned 32 v)

/-- A result in TYPE (R28, R29, R209): rounded RNE; an integer result of a scaled sum is converted as R29 gives. -/
def bankRound (t : Nat) (x : Ex) : Nat × Nat :=
  if t == 0 then x.round FP16 0 false 0
  else if t == 1 then x.round FP32 0 false 0
  else
    let r := floatToInt x.v 32 true 0 0
    (r.1, r.2 ||| x.fl)

/-- A sum of two elements in TYPE (R29, R209). -/
def bankAdd (t a b : Nat) : Nat × Nat :=
  if t == 2 then ((a + b) % 2 ^ 32, 0) else bankRound t (addFl 0 (bankVal t a) (bankVal t b))

/-- The lanes of a unit as FP32 patterns (R209: FP16 elements are decoded exactly). -/
def bankLane (t v : Nat) : Nat := if t == 0 then (rne32 (decodeFl FP16 v)).1 else v

/-- Units of 32 bytes of a list of elements. -/
def units (k : Nat) (xs : List Nat) : List (List Nat) :=
  (List.range (xs.length / k)).map (fun i => (xs.drop (k * i)).take k)

/-- The element operations of BKADD and BKAXPY, in ascending address (R209): where x lies d elements below y, element e of x
is element e - d of y, which the command has written by then; d = 0 says that no element of x is one written before. -/
def inAscending (f : Nat → Nat → Nat × Nat) (d : Nat) (y x : List Nat) : List (Nat × Nat) :=
  (y.zip x).foldl (fun acc p =>
    acc ++ [f p.1 (if d == 0 || acc.length < d then p.2 else (acc.getD (acc.length - d) (0, 0)).1)]) []

/-- Elements by which x lies below y (R209), 0 where it does not. -/
def BankOp.back (o : BankOp) : Nat := (o.y % 0x8000 - o.xoff) / bankSize o.typ

/-- What a command does at its bank (R209): the new elements of y, if it writes them, its reply, and the flags. y, x and
the rows are the elements read, before any is written; x lies d elements below y. -/
def bankRun (fn t imm d : Nat) (y x : List Nat) (rows : List (List Nat)) : Option (List Nat) × Nat × Nat :=
  let a := decodeFl FP32 imm
  let put (ps : List (Nat × Nat)) : Option (List Nat) × Nat × Nat :=
    (some (ps.map (·.1)), 0, ps.foldl (fun f p => f ||| p.2) 0)
  let scaled (v : Nat) : Ex := let p := mulFl a (bankVal t v); { p with fl := p.fl ||| sigFlag [a] }
  match fn with
  | 0 => put (inAscending (bankAdd t) d y x)
  | 1 => put (inAscending (fun v w => bankRound t (fmaFl 0 a (bankVal t w) (bankVal t v))) d y x)
  | 2 =>
    if t == 2 then (none, wrapTo 64 ((y.map (toSigned 32)).sum), 0)
    else
      let sig := sigFlag (y.map (bankVal t))
      let r := (units (32 / bankSize t) y).foldl (fun (acc : Nat × Nat) u =>
        let p := pairwise addRne32 (if t == 0 then 4 else 3) (u.map (bankLane t))
        let q := addRne32 acc.1 p.1
        (q.1, acc.2 ||| p.2 ||| q.2)) (0, sig)
      (none, r.1, r.2)
  | 3 => put ((List.range y.length).map (fun i =>
      rows.foldl (fun (acc : Nat × Nat) row =>
        let q := bankAdd t acc.1 (row.getD i 0)
        (q.1, acc.2 ||| q.2)) (0, 0)))
  | 4 => put (y.map (fun _ => (imm % 2 ^ (8 * bankSize t), 0)))
  | 5 => put (y.map (fun v => bankRound t (scaled v)))
  | _ =>
    if t == 2 then
      let vs := y.map (toSigned 32)
      (none, wrapTo 64 (vs.foldl max (vs.headD 0)), 0)
    else
      let vs := y.map (bankLane t)
      let r := (vs.drop 1).foldl (fun (acc : Nat × Nat) v =>
        let q := (minMaxFl true (decodeFl FP32 acc.1) (decodeFl FP32 v)).rne32
        (q.1, acc.2 ||| q.2)) (vs.headD 0, sigFlag (y.map (bankVal t)))
      (none, r.1, r.2)

/-- The place from which on the unit accesses of a command stand in T (R296): after the view of its slot at split, and after
the slot's earlier commands to the bank. -/
def State.bankFloor (s : State) (c : Cmd) : Nat := max c.view (mget (s.slot c.slot).bankAt (c.bank.getD 0) 0)

/-- Elements that the in-bank unit reads, each 32-byte unit at a place of its own in T (R294, R296). -/
def State.bankElems (s : State) (c : Cmd) (a size n : Nat) : List Nat :=
  (List.range n).map (fun i =>
    s.viewBy (s.orderedBank c.slot (s.bankFloor c) c.own) (.eng c.slot .b) (s.bankFloor c)
      (Config.pick s.fresh ((a + size * i) / 32)) (a + size * i) size)

/-- The latest place in T that the unit accesses of a command have taken, for the slot's next commands to the bank. -/
def State.noteBank (s : State) (c : Cmd) (reads : List (Nat × Nat)) : State :=
  let us := reads.flatMap (fun r => (List.range ((r.1 + r.2 + 31) / 32 - r.1 / 32)).map (fun i => r.1 / 32 + i))
  let t := us.foldl (fun m u => max m (s.pickTime (s.bankFloor c) (Config.pick s.fresh u))) (s.bankFloor c)
  { s.modSlot c.slot (fun v => { v with bankAt := mset v.bankAt (c.bank.getD 0) t }) with fresh := s.fresh + 1 }

/-- The writes of new elements, one 32-byte unit at a time (R211, R296). -/
def unitMoves (a size : Nat) (xs : List Nat) : List Move :=
  (units (32 / size) xs).zipIdx.map (fun u => { addr := a + 32 * u.2, bytes := u.1.flatMap (toBytes size) })

/-- Whether a bank may begin a command (R211): it runs no other, and every earlier command of the slot to this bank has
executed. -/
def State.bankReady (s : State) (c : Cmd) : Bool :=
  !c.executed && s.cmds.all (fun x => !(x.bank == c.bank) || x.id == c.id ||
    (if x.executed then x.moves.isEmpty else !(decide (x.slot = c.slot) && decide (x.id < c.id))))

/-- Spans of bytes that a bank command reads: first byte and length. -/
def bankReads (fn : Nat) (o : BankOp) (c : Cmd) : List (Nat × Nat) :=
  match fn with
  | 0 => [(c.phys, o.len), (c.slab + o.xoff, o.len)]
  | 1 => [(c.phys, o.len), (c.slab + o.xoff, o.len)]
  | 3 => c.src.map (fun i => (c.slab + o.xoff + i.1 * o.len, o.len))
  | 4 => []
  | _ => [(c.phys, o.len)]

/-- BANK_COMMAND_EXECUTION (R209, R211): the unit checks what it reads; a mismatch on a class-D page aborts the command
before any write, with a reply of all ones, and is answered as consumed poison, unless its task ends already; otherwise the
command takes effect. -/
def execBankCommandExecution (id : Nat) (s : State) : Out :=
  match s.cmd? id with
  | none => .next s
  | some c =>
    if c.bank.isNone || !s.bankReady c then .next s
    else
      let fn := c.word / 0x400000 % 128
      let o := BankOp.of fn c.cap1.toNat c.cap2.toNat
      let reads := bankReads fn o c
      let s1 := reads.foldl (fun s r => s.settle c.slot 5 r.1 r.2) s
      let bad := if s1.classOf c.phys == 1 then reads.find? (fun r => s1.poisonedIn r.1 r.2) else none
      match bad with
      | some r =>
        let cur : Cur := { slot := c.slot, engine := some .b, entry := { word := c.word, cap1 := c.cap1, cap2 := c.cap2 } }
        let s2 := { s1.modCmd id (fun c => { c with executed := true, reply := some (2 ^ 64 - 1) }) with cur := cur }
        if (s.slot c.slot).ending.isSome then .next { s2 with cur := s.cur }
        else s2.consumeEngine .b (poisonVal (o.slab + (r.1 - c.slab)) false false 5) (fun s => .next s)
      | none =>
        if fn == 7 then
          let old := ofBytes ((List.range 4).map (fun i => Memory.read s1.mem (c.phys + i)))
          let new := c.cap2.toNat / 2 ^ 32
          let mv : List Move := if old == c.cap2.toNat % 2 ^ 32 then [{ addr := c.phys, bytes := toBytes 4 new }] else []
          let s2 := s1.modCmd id (fun c => { c with executed := true, reply := some old, moves := mv })
          match s2.cmd? id with
          | some d => .next ((s2.performAll d).noteUnit d)
          | none => .next s2
        else
          let sz := bankSize o.typ
          let n := o.len / sz
          let r := bankRun fn o.typ o.imm o.back (s1.bankElems c c.phys sz n) (s1.bankElems c (c.slab + o.xoff) sz n)
            (c.src.map (fun i => s1.bankElems c (c.slab + o.xoff + i.1 * o.len) sz n))
          .next ((s1.noteBank c reads).modCmd id (fun c => { c with
            executed := true
            reply := some r.2.1
            fl := r.2.2
            moves := match r.1 with | some xs => unitMoves c.phys sz xs | none => [] }))

end Sys2Proof.Machine
end

