-- ==== Sys2Proof/Machine/Translate.lean ====
section
/-!
DEFINITION. Page tables, frames and launch queue headers (spec/10, R265 to R268; spec/20, R371; spec/21, R390, R395).
-/

namespace Sys2Proof.Machine

/-! ## Frames -/

/-- A frame by its physical address. -/
def State.frame (s : State) (a : Nat) : Frame := mget s.frames (a / 0x10000) {}

/-- Changes a frame. -/
def State.modFrame (s : State) (a : Nat) (f : Frame → Frame) : State :=
  { s with frames := mmod s.frames (a / 0x10000) {} f }

/-- Whether an address lies in the dump area (R442). -/
def State.inDump (s : State) (a : Nat) : Bool :=
  mget s.regs 0x1600 0 != 0 && decide (mget s.regs 0x1600 0 ≤ a) && decide (a < mget s.regs 0x1600 0 + 0x10000000)

/-- The HBM channel of an address: 32 in each of eight stacks (R426). -/
def hbmChannel (a : Nat) : Nat := Config.channelOf (a / 0x10000) % 256

/-- Whether an HBM address exists. -/
def State.isHbm (s : State) (a : Nat) : Bool := decide (a < 0x8000000000) && s.physOk a && !s.inDump a

/-- Whether an address lies in a class-P frame of a function: owned by one of its contexts, or granted to its pool
(R266, R395; log entry 27). -/
def State.frameOf (s : State) (fn a : Nat) : Bool :=
  let f := s.frame a
  s.isHbm a && s.classOf a == 0 &&
    ((f.state == 1 && f.fn == fn) || ((f.state == 0 || f.state == 3) && Config.poolOf (a / 0x10000) == fn))

/-! ## The page-table walk (R266 to R268) -/

/-- Outcome of a walk: the leaf entry's address and value and the page size, a page with no entry, or an entry that is
ill-formed. -/
inductive Walk where
  | leaf (at_ entry size : Nat)
  | absent
  | bad
  deriving DecidableEq, Repr

/-- The levels of the tree: lowest bit and number of the bits indexed, whether a table entry and a leaf are permitted, size
of the next table, size of the page. -/
def walkLevels : List (Nat × Nat × Bool × Bool × Nat × Nat) :=
  [(44, 13, true, false, 0x1000, 0), (35, 9, true, false, 0x1000, 0), (26, 9, true, true, 0x100, 0x4000000),
   (21, 5, true, true, 0x100, 0x200000), (16, 5, false, true, 0, 0x10000)]

/-- Whether a leaf entry is ill-formed for its page size (R267, R268). -/
def leafBad (e size : Nat) : Bool :=
  bitOf e 7 || field e 52 8 != 0 || bitOf e 63 || field e 8 2 == 3
    || (field e 16 36 * 0x10000) % (if bitOf e 5 then 2 * size else size) != 0

/-- A walk from a table, level by level. -/
def State.walkFrom (s : State) (fn va : Nat) : List (Nat × Nat × Bool × Bool × Nat × Nat) → Nat → Walk
  | [], _ => .bad
  | (lo, n, tab, lf, next, size) :: ls, t =>
    let a := t + 8 * field va lo n
    let e := s.readNum .bank a 8
    if !bitOf e 0 then .absent
    else if bitOf e 1 then
      let nx := field e 8 44 * 256
      if !tab || field e 2 6 != 0 || field e 52 12 != 0 || nx % next != 0 || !s.frameOf fn nx then .bad
      else s.walkFrom fn va ls nx
    else if !lf || leafBad e size then .bad
    else .leaf a e size

/-- The walk of an address in the tree of a root table: entries for the handler area and the gang window above it are ignored
(R266). -/
def State.walkRoot (s : State) (fn root va : Nat) : Walk :=
  if 0x1FFFFFFB0000000 ≤ va then .absent else s.walkFrom fn va walkLevels root

/-- The walk of an address in a function's context. -/
def State.walk (s : State) (fn c va : Nat) : Walk := s.walkRoot fn (s.ctx fn c).ptroot va

/-- The bias of a page by its leaf entry (R412, R413): host memory is always of host bias, a bank page and a peer's never. -/
def leafBias (e : Nat) : Bool :=
  let f := field e 16 36 * 0x10000
  isHostAperture f || (decide (f < 0x8000000000) && !bitOf e 4 && bitOf e 60)

/-- The page that a leaf describes (R267). -/
def pageOfLeaf (va at_ e size range : Nat) : Page where
  va := va / size * size
  size := size
  frame := field e 16 36 * 0x10000
  r := bitOf e 2
  w := bitOf e 3
  bk := bitOf e 4
  sh := bitOf e 5
  cls := field e 8 2
  key := field e 10 6
  bias := leafBias e
  leaf := at_
  range := range

/-- Whether a frame backs a descriptor area of a context that a test names: the device pins it for that context's life
(R390). -/
def State.pinnedFrame (s : State) (a : Nat) (f : Nat → Nat → Bool := fun _ _ => true) : Bool :=
  s.fns.any (fun (x : Nat × Fn) => x.2.ctxs.any (fun (y : Nat × Ctx) =>
    y.2.state != 0 && f x.1 y.1 && y.2.pinned.any (fun (z : Nat × Nat) => z.2 / 0x10000 == a / 0x10000)))

/-- Whether a frame is a frame of the context's instance or free to become one (R395), in HBM or an aperture of the host
or a peer (R267), pinned for no other context (R390), and in no channel taken out (R428; log entry 104). -/
def State.frameUsable (s : State) (fn c a : Nat) : Bool :=
  let f := s.frame a
  if 0x8000000000 ≤ a then s.physOk a && !(decide (0xF000000000 ≤ a) && decide (a < 0xF100000000))
    && !(isHostAperture a && (s.fn fn).tdi == 3)
  else !s.pinnedFrame a (fun g d => !(g == fn && d == c)) && s.isHbm a && !s.channelsOut.contains (hbmChannel a) && (f.state == 0 || f.state == 3
    || (f.state == 1 && f.fn == fn && f.ctx == c && f.tag == (s.ctx fn c).tag))

/-- Where the backings of a page begin, both of a shadow page (R275). -/
def Page.backings (p : Page) : List Nat := if p.sh then [p.frame, p.frame + p.size] else [p.frame]

/-- Whether a page's entry names the class of the groups that hold its backings (R281). -/
def State.classFits (s : State) (p : Page) : Bool :=
  p.backings.all (fun a => decide (0x8000000000 ≤ a) || s.classOf a == p.cls)

/-- The page that translates an address of a context, if it is resident (R378, R395) and its class is that of its frames:
another translation is refused (R281). -/
def State.residentPage (s : State) (fn c va range : Nat) : Option Page :=
  match s.walk fn c va with
  | .leaf a e size =>
    let p := pageOfLeaf va a e size range
    let n := if p.sh then 2 * size else size
    if (List.range (n / 0x10000)).all (fun i => s.frameUsable fn c (p.frame + i * 0x10000)) && s.classFits p then some p else none
  | _ => none

/-- Physical address that the device itself reaches through a context's translation. -/
def State.ctxPhys (s : State) (fn c va : Nat) : Option Nat :=
  (s.residentPage fn c va 0).map (fun p => s.backing .bank p.frame p.size p.shadow (va - p.va))

/-- Physical address in a descriptor area, through the translation pinned at CREATE (R390). -/
def State.pinnedPhys (s : State) (fn c va : Nat) : Option Nat :=
  (mfind (s.ctx fn c).pinned (va / 0x10000)).map (fun pa => pa + va % 0x10000)

/-! ## Launch queue headers (R371) -/

/-- A launch queue header as read: its address and fields. -/
structure LaunchQueue where
  at_ : Nat
  head : Nat
  tail : Nat
  cap : Nat
  en : Bool
  feed : Bool
  ring : Nat
  cring : Nat
  lfence : Nat
  deriving DecidableEq, Repr

/-- Reads a launch queue header. -/
def State.launchQueue (s : State) (fn c q : Nat) : Option LaunchQueue :=
  (s.pinnedPhys fn c ((s.ctx fn c).lqBase + 64 * q)).map (fun a =>
    { at_ := a
      head := s.readNum .bank a 8
      tail := s.readNum .bank (a + 8) 8
      cap := s.readNum .bank (a + 16) 1 % 16
      en := bitOf (s.readNum .bank (a + 17) 1) 0
      feed := bitOf (s.readNum .bank (a + 17) 1) 1
      ring := s.readNum .bank (a + 24) 8
      cring := s.readNum .bank (a + 32) 8
      lfence := s.readNum .bank (a + 40) 8 })

/-- Address of record i in a ring of 64-byte records. -/
def LaunchQueue.record (q : LaunchQueue) (i : Nat) : Nat := q.ring + 64 * (i % 2 ^ q.cap)

/-- Address of completion entry i. -/
def LaunchQueue.entry (q : LaunchQueue) (i : Nat) : Nat := q.cring + 32 * (i % 2 ^ q.cap)

/-- Appends a record to a queue (R374): the record and TAIL in one access. -/
def State.appendLaunch (s : State) (g : Agent) (fn c : Nat) (q : LaunchQueue) (bytes : List Byte) : State :=
  let tail := [(q.at_ + 8, toBytes 8 (q.tail + 1))]
  s.storeAll g (match s.ctxPhys fn c (q.record q.tail) with
    | some a => (a, bytes) :: tail
    | none => tail)

end Sys2Proof.Machine
end

