-- ==== Sys2Proof/Machine/ErrorLog.lean ====
section
/-!
DEFINITION. The device error logs (spec/23, R424, R425), and what tells of a class mismatch (R281).
-/

namespace Sys2Proof.Machine

/-- The device's cycle count (R425, R443; log entry 10). -/
def State.deviceCycle (s : State) : Nat := (Config.cycleOrigin 65536 + s.now) % 2 ^ 64

/-- An event for the device error logs (R425): pmap is the bitmap of the partitions concerned. -/
structure DeviceEvent where
  src : Nat
  kind : Nat
  inst : Nat
  pmap : Nat
  paddr : Nat := 0
  ctx : Nat := 0
  itag : Nat := 0
  aux : Nat := 0
  deriving DecidableEq, Repr, Inhabited

/-- The 64 bytes of a record (R425). -/
def DeviceEvent.bytes (e : DeviceEvent) (seq cyc : Nat) (paddr : Nat) : List Byte :=
  toBytes 8 seq ++ toBytes 1 e.src ++ toBytes 1 e.kind ++ toBytes 2 e.inst ++ toBytes 2 e.pmap ++ toBytes 2 0
    ++ toBytes 8 paddr ++ toBytes 8 cyc ++ toBytes 4 1 ++ toBytes 2 e.ctx ++ toBytes 2 e.itag ++ toBytes 4 e.aux
    ++ toBytes 20 0

/-- Physical address of byte a of a function's log: the ring is reached through the pinned translation of context 0, or
for the physical function directly (R424). -/
def State.logPhys (s : State) (fn va : Nat) : Option Nat := if fn == 0 then some va else s.pinnedPhys fn 0 va

/-- Address of record i in a function's log. -/
def State.logSlot (s : State) (fn i : Nat) : Nat :=
  field (s.reg fn 0x1180) 6 51 * 64 + 64 * (i % 2 ^ field (s.reg fn 0x1180) 57 4)

/-- Writes a new record in a function's log, or loses and counts it (R424). -/
def State.logNew (s : State) (fn : Nat) (e : DeviceEvent) (seq paddr : Nat) : State :=
  let head := s.reg fn 0x1188
  let room := decide (head - s.reg fn 0x1190 < 2 ^ field (s.reg fn 0x1180) 57 4)
  match (if room then s.logPhys fn (s.logSlot fn head) else none) with
  | none => s.countReg fn 0x1198 0 32
  | some a =>
    let s1 := (s.poke .bank none a (e.bytes seq s.deviceCycle paddr)).setReg fn 0x1188 (head + 1)
    let l : Logged := { src := e.src, kind := e.kind, inst := e.inst, cyc := s.now, count := 1, index := head }
    let other (l : Logged) : Bool := !(l.src == e.src && l.kind == e.kind && l.inst == e.inst)
    (s1.modFn fn (fun f => { f with logged := l :: f.logged.filter other })).msix fn 3

/-- Delivers an event to a function's log: it is folded into a record of the last millisecond that is still unconsumed, or
gets a record (R425). -/
def State.logTo (s : State) (e : DeviceEvent) (seq fn : Nat) : State :=
  if field (s.reg fn 0x1180) 6 51 == 0 then s
  else
    let f := s.frame e.paddr
    let mine := fn == 0 || (f.state == 1 && f.fn == fn)
    match (s.fn fn).logged.find? (fun l => l.src == e.src && l.kind == e.kind && l.inst == e.inst
        && decide (s.now ≤ l.cyc + 2100000) && decide (s.reg fn 0x1190 ≤ l.index)) with
    | some l =>
      let s1 := s.modFn fn (fun f => { f with logged := f.logged.map (fun x => if x == l then { x with count := x.count + 1 } else x) })
      match s.logPhys fn (s.logSlot fn l.index + 32) with
      | some a => s1.poke .bank none a (toBytes 4 (l.count + 1))
      | none => s1
    | none => s.logNew fn e seq (if mine then e.paddr else 0)

/-- Whether an event is folded into a record of the device's own list (R425): of the same SRC, KIND and INST, within 1 ms of
its CYC, and not consumed by the physical function. -/
def State.foldsInto (s : State) (e : DeviceEvent) (r : List Byte) : Bool :=
  let consumed := (s.fn 0).logged.any (fun l => l.src == e.src && l.kind == e.kind && l.inst == e.inst
    && decide (l.index < s.reg 0 0x1190))
  blockNum r 8 1 == e.src && blockNum r 9 1 == e.kind && blockNum r 10 2 == e.inst && !consumed
    && decide ((s.deviceCycle + 2 ^ 64 - blockNum r 24 8) % 2 ^ 64 ≤ 2100000)

/-- A record with COUNT one higher. -/
def countOnce (r : List Byte) : List Byte := r.take 32 ++ toBytes 4 (blockNum r 32 4 + 1) ++ r.drop 36

/-- The device's own list of its last 4,096 records after an event (R425, R443). -/
def State.keepRecord (s : State) (e : DeviceEvent) (seq : Nat) : List (List Byte) :=
  match s.devRecords.reverse.find? (s.foldsInto e) with
  | some r => s.devRecords.map (fun x => if x == r then countOnce x else x)
  | none => s.devRecords.drop (s.devRecords.length - 4095) ++ [e.bytes seq s.deviceCycle e.paddr]

/-- An event is delivered to some functions and to the physical function (R425, R427). -/
def State.deviceEvent (s : State) (e : DeviceEvent) (fns : List Nat) : State :=
  let seq := s.devErrSeq + 1
  let s1 := { s with
    devErrSeq := seq
    devRecords := s.keepRecord e seq }
  (0 :: fns.filter (· != 0)).foldl (fun s fn => s.logTo e seq fn) s1

/-- The functions bound to a partition. -/
def State.fnsOf (s : State) (p : Nat) : List Nat := (s.fns.filter (fun (f : Nat × Fn) => f.2.part == some p)).map (·.1)

/-- Tells system software of a page whose entry names another class than its frames have (R281, R425). -/
def State.tellMisclass (s : State) (part fn c : Nat) (p : Page) : State :=
  s.deviceEvent
    { src := 8
      kind := 1
      inst := 0
      pmap := 2 ^ part
      paddr := (p.backings.find? (fun a => decide (a < 0x8000000000) && s.classOf a != p.cls)).getD p.frame
      ctx := c
      itag := (s.ctx fn c).tag } [fn]

/-- The page that an address of a context is refused for, its class being another than its frames' (R281). -/
def State.misclassAt (s : State) (fn root va : Nat) : Option Page :=
  match s.walkRoot fn root va with
  | .leaf a e size =>
    let p := pageOfLeaf va a e size 0
    if s.classFits p then none else some p
  | _ => none

/-- Tells of the page that the device itself could not read or write at an address, where its class was the reason. -/
def State.tellRefused (s : State) (part fn c va : Nat) : State :=
  match s.misclassAt fn (s.ctx fn c).ptroot va with
  | some p => s.tellMisclass part fn c p
  | none => s

end Sys2Proof.Machine
end

