-- ==== Sys2Proof/Machine/Distribution.lean ====
section
/-!
DEFINITION. The D words (spec/08, R215 to R233): images, tags and pairing, the arithmetic of weighted points, the
Wedger, and extraction.
-/

namespace Sys2Proof.Machine

/-! ## Lanes and registers -/

/-- A support point (R23): an FP32 pattern and a weight in units of 2^-31. -/
abbrev Point := Nat × Nat

/-- One point of a register; the reset state where nothing is listed (R215, R219). -/
def Dist.point (d : Dist) (l j : Nat) : Point :=
  ((mget d.val (8 * l + j) 0).toNat,
   (mget d.wt (8 * l + j) (if j == 0 then 0x80000000#32 else 0)).toNat)

/-- The eight points of a lane in index order. -/
def Dist.lane (d : Dist) (l : Nat) : List Point := (List.range 8).map (d.point l)

/-- The reset state of a lane (R219). -/
def resetLane : List Point := (0, 0x80000000) :: List.replicate 7 (0, 0)

/-- A register made of 32 lanes and a tag. -/
def Dist.of (lanes : List (List Point)) (tag : Nat) : Dist :=
  let ps := lanes.zipIdx.flatMap (fun l => l.1.zipIdx.map (fun p => (8 * l.2 + p.2, p.1)))
  { val := ps.map (fun p => (p.1, BitVec.ofNat 32 p.2.1))
    wt := ps.map (fun p => (p.1, BitVec.ofNat 32 p.2.2))
    tag := BitVec.ofNat 32 tag }

/-- The lineage mask of a tag (R23). -/
def tagMask (t : Nat) : Nat := field t 0 16

/-- The frame number of a tag (R23). -/
def tagFrame (t : Nat) : Nat := field t 16 16

/-- A register of a slot. -/
def State.dist (s : State) (sl : SlotId) (n : Nat) : Dist := mget (s.slot sl).regs.d n {}

/-- Sets a register. -/
def State.setDist (s : State) (sl : SlotId) (n : Nat) (d : Dist) : State :=
  s.modRegs sl (fun r => { r with d := mset r.d n d })

/-- Takes a fresh frame (R215): the counter's value, and the counter advanced past 0. -/
def State.freshFrame (s : State) (sl : SlotId) : Nat × State :=
  let c := (s.slot sl).regs.frameCounter
  let n := (c + 1) % 65536
  (c, s.modRegs sl (fun r => { r with frameCounter := if n == 0 then 1 else n }))

/-! ## The Wedger -/

/-- A pair: value pattern, weight, index, and the flags of its rounding (R221, R222). -/
structure Pair where
  val : Nat
  wt : Nat
  ix : Nat
  fl : Nat
  deriving DecidableEq, Repr

/-- Pairs of nonzero weight. -/
def alive (ps : List Pair) : List Pair := ps.filter (fun p => p.wt != 0)

/-- Sum of the weights. -/
def total (ps : List Pair) : Nat := (ps.map (·.wt)).sum

/-- A lane that is not a number (R225): the weight goes to point 0. -/
def nanLane (w : Nat) : List Point := (FP32.canonNaN, w) :: List.replicate 7 (FP32.canonNaN, 0)

/-- Inserts a pair by value ascending, after those of equal value (R229). -/
def insertPair (p : Pair) : List Pair → List Pair
  | [] => [p]
  | q :: qs => if (decodeFl FP32 p.val).lt (decodeFl FP32 q.val) then p :: q :: qs else q :: insertPair p qs

/-- Pairs sorted by value, ties by index (R229). -/
def sortPairs (ps : List Pair) : List Pair := ps.foldl (fun acc p => insertPair p acc) []

/-- The share of a pair in bin k, in eighths of a weight unit (R229): [c, c + w) meets [W(k-1)/8, Wk/8). -/
def share (W c w k : Nat) : Nat := min (8 * (c + w)) (W * k) - max (8 * c) (W * (k - 1))

/-- A value in units of 2^-149. -/
def units149 (v : Fl) : Int :=
  match v with
  | .fin neg m e => scaled neg m e (-149)
  | _ => 0

/-- Sorted pairs with the weight before each. -/
def withStart : Nat → List Pair → List (Nat × Pair)
  | _, [] => []
  | c, p :: ps => (c, p) :: withStart (c + p.wt) ps

/-- BinMean of bin k (R229): the mean, its flags, or none where the bin holds both infinities. -/
def binMean (W : Nat) (ps : List (Nat × Pair)) (k : Nat) : Option (Nat × Nat) :=
  let xs := (ps.map (fun p => (share W p.1 p.2.wt k, decodeFl FP32 p.2.val))).filter (fun x => x.1 != 0)
  let up := xs.any (fun x => x.2 == .inf false)
  let down := xs.any (fun x => x.2 == .inf true)
  if up && down then none
  else if up then some (FP32.infOrNaN false, 0)
  else if down then some (FP32.infOrNaN true, 0)
  else
    let sum := (xs.map (fun x => (x.1 : Int) * units149 x.2)).sum
    let neg := if sum == 0 then xs.all (fun x => x.2.neg?) else decide (sum < 0)
    some (rne32 (.fin neg sum.natAbs (-149)) W)

/-- Wedge (R229): eight points and the flags. -/
def wedge (ps : List Pair) : List Point × Nat :=
  let q := sortPairs (alive ps)
  let W := total q
  if W == 0 then (List.replicate 8 (0, 0), 0)
  else
    let st := withStart 0 q
    let ms := (List.range 8).map (fun k => binMean W st (k + 1))
    if ms.any (·.isNone) then
      let w := roundUQ W 1
      (nanLane w.1, w.2 ||| fNV)
    else
      let vs := ms.map (fun m => m.getD (0, 0))
      let u := roundUQ W 8
      let rest : Int := (W : Int) - 7 * (u.1 : Int)
      let last := max 0 (min rest 0xFFFFFFFF)
      let sat := if last == rest then 0 else fISAT
      (vs.zipIdx.map (fun v => (v.1.1, if v.2 == 7 then last.toNat else u.1)),
       vs.foldl (fun f v => f ||| v.2) (u.2 ||| sat))

/-- Lane (R225): not a number where some pair of nonzero weight is; condensed where the word condenses. -/
def laneOf (ps : List Pair) (condense : Bool) : List Point × Nat :=
  let q := alive ps
  if q.any (fun p => (decodeFl FP32 p.val).isNaN) then
    let w := roundUQ (total q) 1
    (nanLane w.1, w.2 ||| sigFlag (q.map (fun p => decodeFl FP32 p.val)))
  else if condense then wedge ps
  else (ps.map (fun p => (p.val, p.wt)), 0)

/-- Flags of pairs (R222): all of them, or those of nonzero weight. -/
def pairFlags (ps : List Pair) (onlyAlive : Bool) : Nat :=
  (if onlyAlive then alive ps else ps).foldl (fun f p => f ||| p.fl) 0

/-! ## Pairing -/

/-- Pairing of R221. -/
inductive Pairing where
  | joint | independent | overlapping
  deriving DecidableEq, Repr

/-- The case of two tags (R221). -/
def pairing (ta tb : Nat) : Pairing :=
  if tagMask ta == tagMask tb && tagMask ta != 0 && tagFrame ta == tagFrame tb then .joint
  else if tagMask ta &&& tagMask tb == 0 then .independent
  else .overlapping

/-- The 8 pairs of a Joint pairing. -/
def jointPairs (f : Nat → Nat → Nat × Nat) (a b : List Point) : List Pair :=
  (a.zip b).zipIdx.map (fun p =>
    let v := f p.1.1.1 p.1.2.1
    ⟨v.1, p.1.1.2, p.2, v.2⟩)

/-- The 64 pairs of an Independent pairing, with the flags of the weights. -/
def crossPairs (f : Nat → Nat → Nat × Nat) (a b : List Point) : List Pair × Nat :=
  let rs := a.zipIdx.flatMap (fun p => b.zipIdx.map (fun q =>
    let v := f p.1.1 q.1.1
    let w := roundUQ (p.1.2 * q.1.2) (2 ^ 31)
    ((⟨v.1, w.1, 8 * p.2 + q.2, v.2⟩ : Pair), w.2)))
  (rs.map (·.1), rs.foldl (fun x r => x ||| r.2) 0)

/-- Whether a lane is not a number: a point of nonzero weight is none (R225). -/
def isNanLane (a : List Point) : Bool := a.any (fun p => p.2 != 0 && (decodeFl FP32 p.1).isNaN)

/-- The 8 pairs of an Exact pairing with one element (R221). -/
def exactPairs (f : Nat → Nat → Nat × Nat) (a : List Point) (m : Nat) : List Pair :=
  a.zipIdx.map (fun p =>
    let v := f p.1.1 m
    ⟨v.1, p.1.2, p.2, v.2⟩)

/-- One lane of an Independent or Overlapping result, with its flags. -/
def crossLane (f : Nat → Nat → Nat × Nat) (a b : List Point) : List Point × Nat :=
  let c := crossPairs f a b
  let r := laneOf c.1 true
  (r.1, r.2 ||| c.2 ||| pairFlags c.1 true)

/-- Results of 32 lanes with their flags put together. -/
def lanesOf (f : Nat → List Point × Nat) : List (List Point) × Nat :=
  let rs := (List.range 32).map f
  (rs.map (·.1), rs.foldl (fun x r => x ||| r.2) 0)

/-! ## Running a D word -/

/-- Runs a D word (R215, R232): its stream decides whether it begins; the line of mx is read, and poison among it
consumed; the operation gives a state and flags, which enter FPCSR. second asks for the line after it, or the next 32
positions (R224). -/
def distWord (mx : Option Nat) (ix : Nat) (second : Bool) (op : State → Nat → List Nat → List Nat → State × Nat)
    (s : State) : Out :=
  let sl := s.cur.slot
  let srcs := match mx with
    | some m => if second && isStream m then [m, m] else [m]
    | none => []
  match (s.slot sl).gate s.cur.entry.stamp srcs none with
  | .stall => stallOut s
  | .fault sub _ => .next (s.engineTrap sl .d (fmtStream sub 0 4))
  | .ok =>
    let xv := (s.slot sl).xval .d ix
    let line2 := match mx with | some m => if second && !isStream m then [m] else [] | none => []
    let s0 := (s.injectLines sl xv srcs).injectLines sl (xv + 1) line2
    let v := s0.slot sl
    let l1 := match mx with | some m => v.readLine xv 0 m | none => []
    let l2 := match mx with
      | some m => if !second then [] else if isStream m then v.readLine xv 32 m else v.readLine (xv + 1) 0 m
      | none => []
    let go (s1 : State) : Out :=
      let s2 := (s1.takeStreams sl srcs).useRegs sl (regsOf srcs)
      let r := op s2 xv (l1.map (·.1)) (l2.map (·.1))
      r.1.finishLanes .d r.2
    match firstBad [l1, l2] with
    | some a => s0.consumeEngine .d (poisonVal a false true 4) go
    | none => go s0

/-! ## Loading, storing and building -/

/-- The image of a register (R216, R218). -/
def Dist.image (d : Dist) : List Byte :=
  ((List.range 32).flatMap (fun l => (d.lane l).flatMap (fun p => toBytes 4 p.1 ++ toBytes 4 p.2)))
    ++ toBytes 4 d.tag.toNat ++ List.replicate 60 0

/-- A register from the bytes of an image (R218). -/
def Dist.ofImage (b : List Byte) : Dist :=
  Dist.of ((List.range 32).map (fun l => (List.range 8).map (fun j =>
    (ofBytes ((b.drop (64 * l + 8 * j)).take 4), ofBytes ((b.drop (64 * l + 8 * j + 4)).take 4)))))
    (ofBytes ((b.drop 2048).take 4))

/-- Address of an image (R218). -/
def imageAddr (s : State) (x : Nat) : Nat :=
  (s.cur.entry.cap1.toNat + 2112 * (s.slot s.cur.slot).xval .d x) % 2 ^ 64

/-- The checks of an image access (R218, R233), then the access. -/
def imageWord (x : Nat) (go : Nat → State → Out) (s : State) : Out :=
  let sl := s.cur.slot
  let a := imageAddr s x
  if a % 64 != 0 then .next (s.engineTrap sl .d (fmtStream 4 0 4))
  else
    match ((List.range 33).map (fun i => a + 64 * i)).find? (fun b => !s.spanHeld sl b 64) with
    | some b => .next (s.engineTrap sl .d { cause := 0x04, val := b, addr := b })
    | none => if !s.resident sl a 2112 then stallOut (s.wantSpan sl a 2112) else go a s

/-- DLD (R218). -/
def execDld (d : Fin 16) (_m : Fin 64) (x : Fin 8) (s : State) : Out :=
  imageWord x.val (fun a s =>
    let sl := s.cur.slot
    let s0 := s.injectLocal sl a 2112
    let p := s0.localPhys sl a
    let s1 := s0.settle sl 4 p 2112
    let go (s2 : State) : Out :=
      (s2.setDist sl d.val (Dist.ofImage (s2.readBytes (.eng sl .d) p 2112))).finishLanes .d 0
    match ((List.range 33).map (fun i => a + 64 * i)).find? (fun b => s1.poisoned (s1.localPhys sl b)) with
    | some b => s1.consumeEngine .d (poisonVal b false true 4) go
    | none => go s1) s

/-- DST (R218): one write of the whole image. -/
def execDst (a : Fin 16) (_m : Fin 64) (x : Fin 8) (s : State) : Out :=
  imageWord x.val (fun at_ s =>
    let sl := s.cur.slot
    let p := s.localPhys sl at_
    ((s.store (.eng sl .d) none p (s.dist sl a.val).image).clearPoison p 2112).finishLanes .d 0) s

/-- DFROMV (R219): point j of every lane from the line; clr resets the register first. -/
def fromLine (weight : Bool) (d j c m x : Nat) (s : State) : Out :=
  distWord (some m) x false (fun s _ line _ =>
    let sl := s.cur.slot
    let old := if c == 1 then ({} : Dist) else s.dist sl d
    let set (t : Map Nat W32) : Map Nat W32 :=
      (List.range 32).foldl (fun t l => mset t (8 * l + j) (BitVec.ofNat 32 (line.getD l 0))) t
    (s.setDist sl d (if weight then { old with wt := set old.wt } else { old with val := set old.val }), 0)) s

/-- DFROMV.v (R219). -/
def execDfromvV (d : Fin 16) (j : Fin 8) (c : Fin 2) (m : Fin 64) (x : Fin 8) (s : State) : Out :=
  fromLine false d.val j.val c.val m.val x.val s

/-- DFROMV.w (R219). -/
def execDfromvW (d : Fin 16) (j : Fin 8) (c : Fin 2) (m : Fin 64) (x : Fin 8) (s : State) : Out :=
  fromLine true d.val j.val c.val m.val x.val s

/-- DTAG (R220). -/
def execDtag (d : Fin 16) (a : Fin 16) (m : Fin 64) (x : Fin 8) (s : State) : Out :=
  distWord (some m.val) x.val false (fun s _ line _ =>
    let sl := s.cur.slot
    let t := line.getD 0 0 % 2 ^ 32
    let f := if tagFrame t == 0 then s.freshFrame sl else (tagFrame t, s)
    (f.2.setDist sl d.val { s.dist sl a.val with tag := BitVec.ofNat 32 (tagMask t + f.1 * 65536) }, 0)) s

/-! ## Arithmetic -/

/-- The value of a pair (R222). -/
def pairOp (f : Fl → Fl → Ex) (a b : Nat) : Nat × Nat := (f (decodeFl FP32 a) (decodeFl FP32 b)).rne32

/-- Subtraction of exact values. -/
def subFl (a b : Fl) : Ex := let r := addFl 0 a b.negate; { r with fl := r.fl ||| sigFlag [b] }

/-- A word with two distributions (R223). -/
def distArith (f : Fl → Fl → Ex) (d a b : Nat) (s : State) : Out :=
  distWord none 0 false (fun s _ _ _ =>
    let sl := s.cur.slot
    let A := s.dist sl a
    let B := s.dist sl b
    let ta := A.tag.toNat
    let tb := B.tag.toNat
    let c := pairing ta tb
    if c == .joint then
      let r := lanesOf (fun l =>
        let ps := jointPairs (pairOp f) (A.lane l) (B.lane l)
        let q := laneOf ps false
        (q.1, q.2 ||| pairFlags ps false))
      (s.setDist sl d (Dist.of r.1 ta), r.2)
    else
      let fr := s.freshFrame sl
      let r := lanesOf (fun l => crossLane (pairOp f) (A.lane l) (B.lane l))
      (fr.2.setDist sl d (Dist.of r.1 ((tagMask ta ||| tagMask tb) + fr.1 * 65536)),
       r.2 ||| (if c == .overlapping then fDPOV else 0))) s

/-- A word with an exact operand (R221, R223). -/
def distExact (f : Fl → Fl → Ex) (d a m x : Nat) (s : State) : Out :=
  distWord (some m) x false (fun s _ line _ =>
    let sl := s.cur.slot
    let A := s.dist sl a
    let r := lanesOf (fun l =>
      let ps := exactPairs (pairOp f) (A.lane l) (line.getD l 0)
      let q := laneOf ps false
      (q.1, q.2 ||| pairFlags ps false))
    (s.setDist sl d (Dist.of r.1 A.tag.toNat), r.2)) s

/-- DADD of two distributions (R222, R223). -/
def execDadd (d : Fin 16) (a : Fin 16) (b : Fin 16) (s : State) : Out := distArith (addFl 0) d.val a.val b.val s

/-- DADD with an exact operand (R221, R223). -/
def execDaddExact (d : Fin 16) (a : Fin 16) (m : Fin 64) (x : Fin 8) (s : State) : Out :=
  distExact (addFl 0) d.val a.val m.val x.val s

/-- DSUB of two distributions (R222, R223). -/
def execDsub (d : Fin 16) (a : Fin 16) (b : Fin 16) (s : State) : Out := distArith subFl d.val a.val b.val s

/-- DSUB with an exact operand (R221, R223). -/
def execDsubExact (d : Fin 16) (a : Fin 16) (m : Fin 64) (x : Fin 8) (s : State) : Out :=
  distExact subFl d.val a.val m.val x.val s

/-- DMUL of two distributions (R222, R223). -/
def execDmul (d : Fin 16) (a : Fin 16) (b : Fin 16) (s : State) : Out := distArith mulFl d.val a.val b.val s

/-- DMUL with an exact operand (R221, R223). -/
def execDmulExact (d : Fin 16) (a : Fin 16) (m : Fin 64) (x : Fin 8) (s : State) : Out :=
  distExact mulFl d.val a.val m.val x.val s

/-- DMAX of two distributions (R222, R223). -/
def execDmax (d : Fin 16) (a : Fin 16) (b : Fin 16) (s : State) : Out := distArith (minMaxFl true) d.val a.val b.val s

/-- DMAX with an exact operand (R221, R223). -/
def execDmaxExact (d : Fin 16) (a : Fin 16) (m : Fin 64) (x : Fin 8) (s : State) : Out :=
  distExact (minMaxFl true) d.val a.val m.val x.val s

/-- DMIN of two distributions (R222, R223). -/
def execDmin (d : Fin 16) (a : Fin 16) (b : Fin 16) (s : State) : Out := distArith (minMaxFl false) d.val a.val b.val s

/-- DMIN with an exact operand (R221, R223). -/
def execDminExact (d : Fin 16) (a : Fin 16) (m : Fin 64) (x : Fin 8) (s : State) : Out :=
  distExact (minMaxFl false) d.val a.val m.val x.val s

/-! ## Affine, unary, mixture and condensation words -/

/-- Maps every point value of every lane and keeps weights, indices and tag (R224). Flags of all points are raised. -/
def mapPoints (A : Dist) (f : Nat → Nat → Nat × Nat) : Dist × Nat :=
  let r := lanesOf (fun l =>
    let vs := (A.lane l).map (fun p => (f l p.1, p.2))
    (vs.map (fun v => (v.1.1, v.2)), vs.foldl (fun x v => x ||| v.1.2) 0))
  (Dist.of r.1 A.tag.toNat, r.2)

/-- DAFF (R224). -/
def execDaff (d : Fin 16) (a : Fin 16) (m : Fin 64) (x : Fin 8) (s : State) : Out :=
  distWord (some m.val) x.val true (fun s _ al be =>
    let sl := s.cur.slot
    let r := mapPoints (s.dist sl a.val) (fun l v =>
      (fmaFl 0 (decodeFl FP32 (al.getD l 0)) (decodeFl FP32 v) (decodeFl FP32 (be.getD l 0))).rne32)
    (s.setDist sl d.val r.1, r.2)) s

/-- A unary word on bits (R225): a NaN of nonzero weight shows in the lane; any other value is mapped. DEDUCED: a signalling NaN
at a point of weight 0 raises nothing, as Lane names NV for points of nonzero weight only (log entry 107). -/
def distUnary (f : Nat → Nat) (d a : Nat) (s : State) : Out :=
  distWord none 0 false (fun s _ _ _ =>
    let sl := s.cur.slot
    let A := s.dist sl a
    let r := lanesOf (fun l => laneOf ((A.lane l).zipIdx.map (fun p =>
      ⟨if p.1.2 != 0 && (decodeFl FP32 p.1.1).isNaN then p.1.1 else f p.1.1, p.1.2, p.2, 0⟩)) false)
    (s.setDist sl d (Dist.of r.1 A.tag.toNat), r.2)) s

/-- DRELU (R225). -/
def execDrelu (d : Fin 16) (a : Fin 16) (s : State) : Out :=
  distUnary (fun v => if Fl.zero.lt (decodeFl FP32 v) then v else 0) d.val a.val s

/-- The sign cleared; a NaN is produced in its canonical form (R17, R225). -/
def absBits (v : Nat) : Nat := if (decodeFl FP32 v).isNaN then FP32.canonNaN else v % 2 ^ 31

/-- DABS (R225). -/
def execDabs (d : Fin 16) (a : Fin 16) (s : State) : Out := distUnary absBits d.val a.val s

/-- One lane of a mixture (R226). -/
def mixLane (p : Nat) (a b : List Point) : List Point × Nat :=
  let v := decodeFl FP32 p
  let P := units149 v
  if v.isNaN || v == .inf false || v == .inf true || decide (P < 0) || decide ((2 ^ 149 : Int) < P) then
    let w := roundUQ ((a.map (·.2)).sum + (b.map (·.2)).sum) 2
    (nanLane w.1, w.2 ||| fNV)
  else
    let side (k base : Nat) (xs : List Point) : List (Pair × Nat) :=
      xs.zipIdx.map (fun q => let w := roundUQ (k * q.1.2) (2 ^ 149); (⟨q.1.1, w.1, base + q.2, 0⟩, w.2))
    let rs := side P.toNat 0 a ++ side (2 ^ 149 - P.toNat) 8 b
    let r := laneOf (rs.map (·.1)) true
    (r.1, rs.foldl (fun f q => f ||| q.2) r.2)

/-- DMIX (R226). -/
def execDmix (d : Fin 16) (a : Fin 16) (b : Fin 16) (m : Fin 64) (x : Fin 8) (s : State) : Out :=
  distWord (some m.val) x.val false (fun s _ line _ =>
    let sl := s.cur.slot
    let A := s.dist sl a.val
    let B := s.dist sl b.val
    let fr := s.freshFrame sl
    let r := lanesOf (fun l => mixLane (line.getD l 0) (A.lane l) (B.lane l))
    (fr.2.setDist sl d.val
      (Dist.of r.1 ((tagMask A.tag.toNat ||| tagMask B.tag.toNat) + fr.1 * 65536)), r.2)) s

/-- The points of a lane as pairs. -/
def lanePairs (a : List Point) : List Pair := a.zipIdx.map (fun p => ⟨p.1.1, p.1.2, p.2, 0⟩)

/-- DCOND (R227). -/
def execDcond (d : Fin 16) (a : Fin 16) (s : State) : Out :=
  distWord none 0 false (fun s _ _ _ =>
    let sl := s.cur.slot
    let A := s.dist sl a.val
    let fr := s.freshFrame sl
    let r := lanesOf (fun l => laneOf (lanePairs (A.lane l)) true)
    (fr.2.setDist sl d.val (Dist.of r.1 (tagMask A.tag.toNat + fr.1 * 65536)), r.2)) s

/-- One combination of DSUML (R228): a NaN lane stays one, whatever weight it keeps. nan says which lanes are NaN. -/
def sumLanes (a b : List Point × Bool) : (List Point × Bool) × Nat :=
  if a.2 || b.2 then
    let c := crossPairs (pairOp (addFl 0)) a.1 b.1
    let w := roundUQ (total (alive c.1)) 1
    ((nanLane w.1, true), w.2 ||| c.2 ||| pairFlags c.1 true)
  else
    let c := crossLane (pairOp (addFl 0)) a.1 b.1
    ((c.1, isNanLane c.1), c.2)

/-- One level of the tree of DSUML (R35, R228): neighbours combine. -/
def sumLevel : List (List Point × Bool) → List (List Point × Bool) × Nat
  | a :: b :: r =>
    let c := sumLanes a b
    let t := sumLevel r
    (c.1 :: t.1, c.2 ||| t.2)
  | xs => (xs, 0)

/-- Levels of the tree. -/
def sumLevels : Nat → List (List Point × Bool) → List (List Point × Bool) × Nat
  | 0, xs => (xs, 0)
  | n + 1, xs =>
    let r := sumLevel xs
    let t := sumLevels n r.1
    (t.1, r.2 ||| t.2)

/-- n levels of the tree over lanes: the lanes that are left, and the flags. -/
def sumTree (n : Nat) (xs : List (List Point)) : List (List Point) × Nat :=
  let r := sumLevels n (xs.map (fun a => (a, isNanLane a)))
  (r.1.map (·.1), r.2)

/-- DSUML (R228). -/
def execDsuml (d : Fin 16) (a : Fin 16) (s : State) : Out :=
  distWord none 0 false (fun s _ _ _ =>
    let sl := s.cur.slot
    let A := s.dist sl a.val
    let fr := s.freshFrame sl
    let r := sumTree 5 ((List.range 32).map A.lane)
    (fr.2.setDist sl d.val
      (Dist.of (r.1.headD resetLane :: List.replicate 31 resetLane) (tagMask A.tag.toNat + fr.1 * 65536)), r.2)) s

/-! ## Extraction -/

/-- Writes a row of a matrix register, one element a lane (R231). DEDUCED: a lane of total weight 0 or with a NaN gives its
result before q or t is looked at, so NV is not raised for q or t there (log entry 107). -/
def extract (d x : Nat) (mx : Option Nat) (f : Nat → List Pair → Nat × Nat) (a : Nat) (s : State) : Out :=
  distWord mx x false (fun s xv line _ =>
    let sl := s.cur.slot
    let A := s.dist sl a
    let rs := (List.range 32).map (fun l =>
      let q := alive (lanePairs (A.lane l))
      if total q == 0 then (FP32.canonNaN, fNV)
      else if q.any (fun p => (decodeFl FP32 p.val).isNaN) then
        (FP32.canonNaN, sigFlag (q.map (fun p => decodeFl FP32 p.val)))
      else f (line.getD l 0) q)
    (s.writeM sl d (rs.zipIdx.map (fun r => (32 * (xv % 32) + r.2, BitVec.ofNat 32 r.1.1))),
     rs.foldl (fun g r => g ||| r.2) 0)) s

/-- A weight as an exact value (R23). -/
def weightFl (w : Nat) : Fl := .fin false w (-31)

/-- An accumulated sum divided by the total weight, rounded once (R231). -/
def overTotal (acc W : Nat) : Nat × Nat :=
  match decodeFl FP32 acc with
  | .fin neg m e => rne32 (.fin neg m (e + 31)) W
  | v => rne32 v 1

/-- The mean (R231): pattern and flags. -/
def meanOf (q : List Pair) : Nat × Nat :=
  let r := q.foldl (fun (acc : Nat × Nat) p =>
    let v := (fmaFl 0 (weightFl p.wt) (decodeFl FP32 p.val) (decodeFl FP32 acc.1)).rne32
    (v.1, acc.2 ||| v.2)) (0, 0)
  let m := overTotal r.1 (total q)
  (m.1, r.2 ||| m.2)

/-- A central moment of order 2 or 3 (R231). -/
def momentOf (k : Nat) (q : List Pair) : Nat × Nat :=
  let mu := meanOf q
  let r := q.foldl (fun (acc : Nat × Nat) p =>
    let d := pairOp subFl p.val mu.1
    let x := decodeFl FP32 d.1
    let pow := if k == 2 then mulFl x x else mulFl (mulFl x x).v x
    let v := (fmaFl 0 (weightFl p.wt) pow.v (decodeFl FP32 acc.1)).rne32
    (v.1, acc.2 ||| d.2 ||| v.2)) (0, mu.2)
  let m := overTotal r.1 (total q)
  (m.1, r.2 ||| m.2)

/-- DMOM (R231): 0 mean, 1 variance, 2 third central moment. -/
def execDmom (d : Fin 16) (a : Fin 16) (k : Fin 4) (x : Fin 8) (s : State) : Out :=
  extract d.val x.val none (fun _ q =>
    match k.val with
    | 0 => meanOf q
    | 1 => momentOf 2 q
    | _ => momentOf 3 q) a.val s

/-- A quantile (R231): the first point whose cumulative weight reaches q × W. -/
def quantile (e : Nat) (q : List Pair) : Nat × Nat :=
  let v := decodeFl FP32 e
  let P := units149 v
  if v.isNaN || v == .inf false || decide ((2 ^ 149 : Int) < P) then (FP32.canonNaN, fNV)
  else
    let ps := withStart 0 (sortPairs q)
    let low := v == .inf true || decide (P ≤ 0)
    match ps.find? (fun p => low || decide (P.toNat * total q ≤ (p.1 + p.2.wt) * 2 ^ 149)) with
    | some p => (p.2.val, 0)
    | none => (FP32.canonNaN, fNV)

/-- DQNT (R231). -/
def execDqnt (d : Fin 16) (a : Fin 16) (m : Fin 64) (x : Fin 8) (s : State) : Out :=
  extract d.val x.val (some m.val) quantile a.val s

/-- The distribution function at t (R231). -/
def cdfAt (e : Nat) (q : List Pair) : Nat × Nat :=
  let t := decodeFl FP32 e
  if t.isNaN then (FP32.canonNaN, sigFlag [t])
  else rne32 (.fin false (total (q.filter (fun p => !t.lt (decodeFl FP32 p.val)))) 0) (total q)

/-- DCDF (R231). -/
def execDcdf (d : Fin 16) (a : Fin 16) (m : Fin 64) (x : Fin 8) (s : State) : Out :=
  extract d.val x.val (some m.val) cdfAt a.val s

/-! ## Events -/

/-- ESET of the distribution queue (R232). -/
def execEsetD (f : Fin 16) (s : State) : Out := esetWord f.val true s

/-- EWAIT of the distribution queue (R232). -/
def execEwaitD (f : Fin 16) (s : State) : Out := ewaitWord .d f.val s

end Sys2Proof.Machine
end

