-- ==== Sys2Proof/Machine/Scalars.lean ====
section
/-!
DEFINITION. Which scalar registers a control-core word reads and writes (spec/03, spec/04; R57, R325), and which a queued
word captures at split (R56).
-/

namespace Sys2Proof.Machine

/-- Scalar registers that a C or S word reads. -/
def scalarReads : Instr → List Nat
  | .add _ a b => [a.val, b.val]
  | .sub _ a b => [a.val, b.val]
  | .and _ a b => [a.val, b.val]
  | .or _ a b => [a.val, b.val]
  | .xor _ a b => [a.val, b.val]
  | .sll _ a b => [a.val, b.val]
  | .srl _ a b => [a.val, b.val]
  | .sra _ a b => [a.val, b.val]
  | .slt _ a b => [a.val, b.val]
  | .sltu _ a b => [a.val, b.val]
  | .min _ a b => [a.val, b.val]
  | .max _ a b => [a.val, b.val]
  | .minu _ a b => [a.val, b.val]
  | .maxu _ a b => [a.val, b.val]
  | .sel d a b => [a.val, b.val, d.val]
  | .mul _ a b => [a.val, b.val]
  | .mulh _ a b => [a.val, b.val]
  | .mulhu _ a b => [a.val, b.val]
  | .div _ a b => [a.val, b.val]
  | .divu _ a b => [a.val, b.val]
  | .rem _ a b => [a.val, b.val]
  | .remu _ a b => [a.val, b.val]
  | .clz _ a => [a.val]
  | .ctz _ a => [a.val]
  | .popc _ a => [a.val]
  | .sext _ a _ => [a.val]
  | .zext _ a _ => [a.val]
  | .addi _ a _ _ => [a.val]
  | .andi _ a _ _ => [a.val]
  | .ori _ a _ _ => [a.val]
  | .xori _ a _ _ => [a.val]
  | .slli _ a _ _ => [a.val]
  | .srli _ a _ _ => [a.val]
  | .srai _ a _ _ => [a.val]
  | .slti _ a _ _ => [a.val]
  | .sltiu _ a _ _ => [a.val]
  | .movs d _ => [d.val]
  | .fadd _ a b _ => [a.val, b.val]
  | .fsub _ a b _ => [a.val, b.val]
  | .fmul _ a b _ => [a.val, b.val]
  | .fdiv _ a b _ => [a.val, b.val]
  | .fsqrt _ a _ => [a.val]
  | .fmin _ a b => [a.val, b.val]
  | .fmax _ a b => [a.val, b.val]
  | .fma d a b _ => [a.val, b.val, d.val]
  | .fcmp _ a b _ => [a.val, b.val]
  | .fcvt _ a _ _ _ => [a.val]
  | .fclass _ a => [a.val]
  | .beq a b _ _ => [a.val, b.val]
  | .bne a b _ _ => [a.val, b.val]
  | .blt a b _ _ => [a.val, b.val]
  | .bge a b _ _ => [a.val, b.val]
  | .bltu a b _ _ => [a.val, b.val]
  | .bgeu a b _ _ => [a.val, b.val]
  | .jalr _ a _ _ => [a.val]
  | .ld _ _ b _ => [b.val]
  | .st d _ b _ => [d.val, b.val]
  | .ldl _ a _ _ _ => [a.val]
  | .stl d a _ _ _ => [d.val, a.val]
  | .ldf _ _ b => [b.val]
  | .stf d _ b => [d.val, b.val]
  | .aadd d _ b _ => [d.val, b.val]
  | .aand d _ b _ => [d.val, b.val]
  | .aor d _ b _ => [d.val, b.val]
  | .axor d _ b _ => [d.val, b.val]
  | .amin d _ b _ => [d.val, b.val]
  | .amax d _ b _ => [d.val, b.val]
  | .aswp d _ b _ => [d.val, b.val]
  | .acas d _ b _ => [d.val, b.val, d.val + 1]
  | .csrw a _ _ => [a.val]
  | .csrx _ a _ _ => [a.val]
  | .vread _ _ b _ => [b.val]
  | .waitb _ s _ _ _ _ => [s.val]
  | .barw _ s _ _ _ => [s.val]
  | .trsync a _ => [a.val]
  | .pub _ a _ => [a.val]
  | .xlate _ a _ => [a.val]
  | .kset _ _ a _ _ => [a.val]
  | .xset _ _ a b _ _ => [a.val, b.val]
  | .tspawn _ _ b => [b.val]
  | .klaunch _ _ b _ => [b.val]
  | .renq _ a b _ => [a.val, b.val]
  | .qinit _ b _ => [b.val]
  | .qpush d _ b => [d.val, b.val]
  | .qpop _ _ b => [b.val]
  | .qtryPop _ _ b => [b.val]
  | .qtryPush d _ b => [d.val, b.val]
  | .semw _ s _ _ _ => [s.val]
  | .semp _ b => [b.val]
  | .ffill _ b => [b.val]
  | .fclr d _ b => [d.val, b.val]
  | .tkset _ a => [a.val]
  | .uiret => [63]
  | _ => []

/-- Scalar registers that a C or S word writes. -/
def scalarWrites : Instr → List Nat
  | .add d _ _ => [d.val]
  | .sub d _ _ => [d.val]
  | .and d _ _ => [d.val]
  | .or d _ _ => [d.val]
  | .xor d _ _ => [d.val]
  | .sll d _ _ => [d.val]
  | .srl d _ _ => [d.val]
  | .sra d _ _ => [d.val]
  | .slt d _ _ => [d.val]
  | .sltu d _ _ => [d.val]
  | .min d _ _ => [d.val]
  | .max d _ _ => [d.val]
  | .minu d _ _ => [d.val]
  | .maxu d _ _ => [d.val]
  | .sel d _ _ => [d.val]
  | .mul d _ _ => [d.val]
  | .mulh d _ _ => [d.val]
  | .mulhu d _ _ => [d.val]
  | .div d _ _ => [d.val]
  | .divu d _ _ => [d.val]
  | .rem d _ _ => [d.val]
  | .remu d _ _ => [d.val]
  | .clz d _ => [d.val]
  | .ctz d _ => [d.val]
  | .popc d _ => [d.val]
  | .sext d _ _ => [d.val]
  | .zext d _ _ => [d.val]
  | .addi d _ _ _ => [d.val]
  | .andi d _ _ _ => [d.val]
  | .ori d _ _ _ => [d.val]
  | .xori d _ _ _ => [d.val]
  | .slli d _ _ _ => [d.val]
  | .srli d _ _ _ => [d.val]
  | .srai d _ _ _ => [d.val]
  | .slti d _ _ _ => [d.val]
  | .sltiu d _ _ _ => [d.val]
  | .movi d _ _ => [d.val]
  | .movs d _ => [d.val]
  | .fadd d _ _ _ => [d.val]
  | .fsub d _ _ _ => [d.val]
  | .fmul d _ _ _ => [d.val]
  | .fdiv d _ _ _ => [d.val]
  | .fsqrt d _ _ => [d.val]
  | .fmin d _ _ => [d.val]
  | .fmax d _ _ => [d.val]
  | .fma d _ _ _ => [d.val]
  | .fcmp d _ _ _ => [d.val]
  | .fcvt d _ _ _ _ => [d.val]
  | .fclass d _ => [d.val]
  | .jal _ _ => [63]
  | .jalr d _ _ _ => [d.val]
  | .ld d _ _ _ => [d.val]
  | .ldl d _ _ _ _ => [d.val]
  | .ldf d _ _ => [d.val]
  | .aadd d _ _ _ => [d.val]
  | .aand d _ _ _ => [d.val]
  | .aor d _ _ _ => [d.val]
  | .axor d _ _ _ => [d.val]
  | .amin d _ _ _ => [d.val]
  | .amax d _ _ _ => [d.val]
  | .aswp d _ _ _ => [d.val]
  | .acas d _ _ _ => [d.val]
  | .csrr d _ _ => [d.val]
  | .csrx d _ _ _ => [d.val]
  | .prd d _ _ => [d.val]
  | .vread d _ _ _ => [d.val]
  | .waitc d _ _ _ _ => [d.val]
  | .waitf d _ _ _ _ => [d.val]
  | .waitb d _ _ _ _ _ => [d.val]
  | .bara d _ => [d.val]
  | .barw d _ _ _ _ => [d.val]
  | .pub d _ _ => [d.val]
  | .xlate _ _ b => [b.val]
  | .tspawn d _ _ => [d.val]
  | .klaunch d _ _ _ => [d.val]
  | .renq d _ _ _ => [d.val]
  | .qpop d _ _ => [d.val]
  | .qtryPop d _ _ => [d.val, d.val + 1]
  | .qtryPush d _ _ => [d.val + 1]
  | .semw d _ _ _ _ => [d.val]
  | .tkset d _ => [d.val]
  | .tkget d _ _ => [d.val]
  | .ralloc d _ _ => [d.val]
  | .rpin d _ _ => [d.val]
  | .runpin d _ _ => [d.val]
  | _ => []

/-- Scalar registers that a queued word captures, from its bits (R56, R61 to R65). -/
def capturedFields (w : Nat) : List Nat :=
  let op := field w 22 7
  match field w 29 3 with
  | 1 =>
    if op == 0x67 || op == 0x70 || op == 0x72 then [field w 10 6]
    else if op == 0x71 || op == 0x73 then [field w 16 6] else []
  | 2 => if op < 0x7E then [field w 14 6, field w 8 6] else []
  | 3 | 5 => if op < 0x7E then [field w 10 6, field w 4 6] else []
  | 4 => if op < 2 then [field w 4 6] else []
  | _ => []

/-- The reply register of an X or B word, 0 for none (R49). -/
def replyField (w : Nat) : Nat :=
  if (field w 29 3 == 3 || field w 29 3 == 5) && decide (field w 22 7 < 0x7E) then field w 16 6 else 0

/-- The side-effect flag that a word sets at split, before any check (R101, R110, R194): 8 atomic performed, 16 future
filled, 32 queue entry pushed, 0 none. -/
def sideFlag (w : Nat) : Nat :=
  let op := field w 22 7
  match field w 29 3 with
  | 0 => if op == 0x55 then 16 else if 0x58 ≤ op && op ≤ 0x5F then 8 else 0
  | 3 => if op == 0x0A || op == 0x08 || op == 0x0B || op == 0x0C || op == 0x0D then 8 else 0
  | 5 => if op == 0x00 || op == 0x01 || op == 0x05 || op == 0x07 then 8 else 0
  | 6 => match op with
    | 0x28 | 0x2A | 0x2B | 0x31 => 32
    | 0x30 | 0x32 | 0x34 | 0x35 | 0x37 => 8
    | 0x33 => if bitOf w 0 then 32 else 8
    | 0x36 => 16
    | _ => 0
  | _ => 0

/-- The engines of optional features that a word names, from its bits (R66, second test): 4 distribution, 5 bank. -/
def neededFeatures (w : Nat) : List Nat :=
  let op := field w 22 7
  let codes (cs : List Nat) : List Nat := cs.filter (fun c => c == 4 || c == 5)
  match field w 29 3 with
  | 4 => [4]
  | 5 => [5]
  | 6 => match op with
    | 0x10 => if field w 10 6 == 3 then [4] else []
    | 0x19 => [5]
    | 0x20 | 0x21 => codes [field w 19 3]
    | 0x22 => codes ([field w 19 3, field w 2 3, field w 7 3, field w 12 3].takeWhile (· != 0))
    | 0x2B => codes [field w 0 3]
    | 0x39 => if 2 ≤ field w 0 4 && field w 0 4 ≤ 4 && field w 10 3 == 4 then [4] else []
    | _ => []
  | _ => []

end Sys2Proof.Machine
end

