-- ==== Sys2Proof/Machine/Flags.lean ====
section
/-!
DEFINITION. The flag computations of the control core: finishing an FP32 word with its flags (R30, R31, R90),
comparison (R87), conversion (R88) and classification (R89).
-/

namespace Sys2Proof.Machine

/-- Writes a result and goes on. -/
def State.result (s : State) (d : Nat) (v : Word) : State := (s.writeS s.cur.slot d v).advance

/-- Finishes an FP32 word (R90): its flags enter FPCSR; a flag whose trap is enabled makes it trap with s[rd] as it
was. -/
def fpFinish (s : State) (d : Nat) (r : Nat × Nat) : Out :=
  let s1 := s.raise s.cur.slot r.2
  if (s1.slot s.cur.slot).csr.fpe r.2 then trapOut s1 0x12 (r.2 * 256)
  else .next (s1.result d (BitVec.ofNat 64 r.1))

/-- The FP32 operand of a register (R40). -/
def State.fp (s : State) (n : Nat) : Fl := decodeFl FP32 ((s.readS s.cur.slot n).toNat % 2 ^ 32)

/-- An FP32 word with a rounding mode: one draw from generator 0 under .sr (R85). -/
def fpWord (s : State) (d rm : Nat) (x : Ex) : Out :=
  let ds := s.draws s.cur.slot 0 rm 1
  fpFinish ds.2 d (x.round FP32 rm true (ds.1.headD 0))

/-- Condition c of FCMP and its flags (R87). -/
def fcmp (c : Nat) (a b : Fl) : Bool × Nat :=
  let un := a.isNaN || b.isNaN
  let sig := a.isSig || b.isSig
  match c with
  | 0 => (a.eq b, if sig then fNV else 0)
  | 1 => (!a.eq b, if sig then fNV else 0)
  | 2 => (a.lt b, if un then fNV else 0)
  | 3 => (!un && !b.lt a, if un then fNV else 0)
  | _ => (un, if sig then fNV else 0)

/-- FCVT of kind k from a register's 64 bits: the 64-bit result and the flags (R88). -/
def fcvt (k rm r : Nat) (ieee : Bool) (v : Nat) : Nat × Nat :=
  let x := decodeFl FP32 (v % 2 ^ 32)
  match k with
  | 0 => roundTo FP32 rm true r (Fl.ofInt (toSigned 64 v)) 1
  | 1 => roundTo FP32 rm true r (Fl.ofInt (v : Int)) 1
  | 2 => floatToInt x 64 true rm r
  | 3 => floatToInt x 64 false rm r
  | 4 => let y := floatToInt x 32 true rm r; (wrapTo 64 (toSigned 32 y.1), y.2)
  | 5 => floatToInt x 32 false rm r
  | 6 => roundTo FP32 rm true r (Fl.ofInt (toSigned 32 v)) 1
  | 7 => roundTo FP32 rm true r (Fl.ofInt ((v % 2 ^ 32 : Nat) : Int)) 1
  | 8 => (Ex.of x (sigFlag [x])).round FP16 rm ieee r
  | 9 => (Ex.of x (sigFlag [x])).round BF16 rm ieee r
  | 10 => let y := decodeFl FP16 (v % 2 ^ 16); (Ex.of y (sigFlag [y])).round FP32 0 true 0
  | _ => let y := decodeFl BF16 (v % 2 ^ 16); (Ex.of y (sigFlag [y])).round FP32 0 true 0

/-- The bit of FCLASS for an FP32 pattern (R89). -/
def fclass (b : Nat) : Nat :=
  match decodeFl FP32 b with
  | .nan sig => if sig then 8 else 9
  | .inf neg => if neg then 0 else 7
  | .fin neg m _ =>
    if m == 0 then (if neg then 3 else 4)
    else if field b 23 8 == 0 then (if neg then 2 else 5)
    else if neg then 1 else 6

end Sys2Proof.Machine
end

