-- ==== Sys2Proof/Machine/Scalar.lean ====
section
/-!
DEFINITION. The C words that work on registers alone: integer, immediate and FP32 words, branches and jumps (spec/03,
R80 to R92).
-/

namespace Sys2Proof.Machine

/-- A word that combines two registers (R80, R81). -/
def regWord (f : Word → Word → Word) (d a b : Nat) (s : State) : Out :=
  .next (s.result d (f (s.readS s.cur.slot a) (s.readS s.cur.slot b)))

/-- A word that combines a register and an immediate (R83). -/
def immWord (f : Word → Word → Word) (d a : Nat) (i : Word) (s : State) : Out :=
  .next (s.result d (f (s.readS s.cur.slot a) i))

/-- 1 or 0. -/
def truth (b : Bool) : Word := if b then 1#64 else 0#64

/-- The immediate of a CI word: payload and imm10, sign-extended (R45, R53). -/
def immS (pre : Option Payload) (i : Nat) : Word := BitVec.ofInt 64 (extS pre 10 i)

/-- Signed and unsigned comparison. -/
def sltW (a b : Word) : Word := truth (decide (a.toInt < b.toInt))

/-- Unsigned comparison. -/
def sltuW (a b : Word) : Word := truth (decide (a.toNat < b.toNat))

/-- DivInt over 64-bit patterns (R81). -/
def quotW (signed : Bool) (a b : Word) : Word := BitVec.ofNat 64 (divInt a.toNat b.toNat 64 signed).1

/-- The remainder of DivInt (R81). -/
def remW (signed : Bool) (a b : Word) : Word := BitVec.ofNat 64 (divInt a.toNat b.toNat 64 signed).2

/-- Leading zero bits among the low n bits (R82). -/
def leadingZeros : Nat → Nat → Nat
  | 0, _ => 0
  | n + 1, v => if bitOf v n then 0 else 1 + leadingZeros n v

/-- Trailing zero bits among n bits (R82). -/
def trailingZeros : Nat → Nat → Nat
  | 0, _ => 0
  | n + 1, v => if v % 2 == 1 then 0 else 1 + trailingZeros n (v / 2)

/-- One bits among n bits (R82). -/
def popCount : Nat → Nat → Nat
  | 0, _ => 0
  | n + 1, v => v % 2 + popCount n (v / 2)

/-- Source width of SEXT and ZEXT (R82). -/
def extWidth (w : Nat) : Nat := if w = 0 then 8 else if w = 1 then 16 else 32

/-- ADD (R80). -/
def execAdd (d : Fin 64) (a : Fin 64) (b : Fin 64) (s : State) : Out :=
  regWord (· + ·) d.val a.val b.val s

/-- SUB (R80). -/
def execSub (d : Fin 64) (a : Fin 64) (b : Fin 64) (s : State) : Out :=
  regWord (· - ·) d.val a.val b.val s

/-- AND (R80). -/
def execAnd (d : Fin 64) (a : Fin 64) (b : Fin 64) (s : State) : Out :=
  regWord (· &&& ·) d.val a.val b.val s

/-- OR (R80). -/
def execOr (d : Fin 64) (a : Fin 64) (b : Fin 64) (s : State) : Out :=
  regWord (· ||| ·) d.val a.val b.val s

/-- XOR (R80). -/
def execXor (d : Fin 64) (a : Fin 64) (b : Fin 64) (s : State) : Out :=
  regWord (· ^^^ ·) d.val a.val b.val s

/-- SLL (R80). -/
def execSll (d : Fin 64) (a : Fin 64) (b : Fin 64) (s : State) : Out :=
  regWord (fun x y => x <<< (y.toNat % 64)) d.val a.val b.val s

/-- SRL (R80). -/
def execSrl (d : Fin 64) (a : Fin 64) (b : Fin 64) (s : State) : Out :=
  regWord (fun x y => x >>> (y.toNat % 64)) d.val a.val b.val s

/-- SRA (R80). -/
def execSra (d : Fin 64) (a : Fin 64) (b : Fin 64) (s : State) : Out :=
  regWord (fun x y => x.sshiftRight (y.toNat % 64)) d.val a.val b.val s

/-- SLT (R80). -/
def execSlt (d : Fin 64) (a : Fin 64) (b : Fin 64) (s : State) : Out :=
  regWord sltW d.val a.val b.val s

/-- SLTU (R80). -/
def execSltu (d : Fin 64) (a : Fin 64) (b : Fin 64) (s : State) : Out :=
  regWord sltuW d.val a.val b.val s

/-- MIN (R80). -/
def execMin (d : Fin 64) (a : Fin 64) (b : Fin 64) (s : State) : Out :=
  regWord (fun x y => if x.toInt ≤ y.toInt then x else y) d.val a.val b.val s

/-- MAX (R80). -/
def execMax (d : Fin 64) (a : Fin 64) (b : Fin 64) (s : State) : Out :=
  regWord (fun x y => if x.toInt ≤ y.toInt then y else x) d.val a.val b.val s

/-- MINU (R80). -/
def execMinu (d : Fin 64) (a : Fin 64) (b : Fin 64) (s : State) : Out :=
  regWord (fun x y => if x.toNat ≤ y.toNat then x else y) d.val a.val b.val s

/-- MAXU (R80). -/
def execMaxu (d : Fin 64) (a : Fin 64) (b : Fin 64) (s : State) : Out :=
  regWord (fun x y => if x.toNat ≤ y.toNat then y else x) d.val a.val b.val s

/-- SEL (R80). -/
def execSel (d : Fin 64) (a : Fin 64) (b : Fin 64) (s : State) : Out :=
  .next (s.result d.val (if s.readS s.cur.slot d.val ≠ 0 then s.readS s.cur.slot a.val
    else s.readS s.cur.slot b.val))

/-- MUL (R81). -/
def execMul (d : Fin 64) (a : Fin 64) (b : Fin 64) (s : State) : Out :=
  regWord (· * ·) d.val a.val b.val s

/-- MULH (R81). -/
def execMulh (d : Fin 64) (a : Fin 64) (b : Fin 64) (s : State) : Out :=
  regWord (fun x y => BitVec.ofInt 64 (x.toInt * y.toInt / 2 ^ 64)) d.val a.val b.val s

/-- MULHU (R81). -/
def execMulhu (d : Fin 64) (a : Fin 64) (b : Fin 64) (s : State) : Out :=
  regWord (fun x y => BitVec.ofNat 64 (x.toNat * y.toNat / 2 ^ 64)) d.val a.val b.val s

/-- DIV (R81). -/
def execDiv (d : Fin 64) (a : Fin 64) (b : Fin 64) (s : State) : Out :=
  regWord (quotW true) d.val a.val b.val s

/-- DIVU (R81). -/
def execDivu (d : Fin 64) (a : Fin 64) (b : Fin 64) (s : State) : Out :=
  regWord (quotW false) d.val a.val b.val s

/-- REM (R81). -/
def execRem (d : Fin 64) (a : Fin 64) (b : Fin 64) (s : State) : Out :=
  regWord (remW true) d.val a.val b.val s

/-- REMU (R81). -/
def execRemu (d : Fin 64) (a : Fin 64) (b : Fin 64) (s : State) : Out :=
  regWord (remW false) d.val a.val b.val s

/-- CLZ (R82). -/
def execClz (d : Fin 64) (a : Fin 64) (s : State) : Out :=
  .next (s.result d.val (BitVec.ofNat 64 (leadingZeros 64 (s.readS s.cur.slot a.val).toNat)))

/-- CTZ (R82). -/
def execCtz (d : Fin 64) (a : Fin 64) (s : State) : Out :=
  .next (s.result d.val (BitVec.ofNat 64 (trailingZeros 64 (s.readS s.cur.slot a.val).toNat)))

/-- POPC (R82). -/
def execPopc (d : Fin 64) (a : Fin 64) (s : State) : Out :=
  .next (s.result d.val (BitVec.ofNat 64 (popCount 64 (s.readS s.cur.slot a.val).toNat)))

/-- SEXT (R82). -/
def execSext (d : Fin 64) (a : Fin 64) (w : Fin 16) (s : State) : Out :=
  .next (s.result d.val (BitVec.ofInt 64 (toSigned (extWidth w.val) (s.readS s.cur.slot a.val).toNat)))

/-- ZEXT (R82). -/
def execZext (d : Fin 64) (a : Fin 64) (w : Fin 16) (s : State) : Out :=
  .next (s.result d.val (BitVec.ofNat 64 ((s.readS s.cur.slot a.val).toNat % 2 ^ extWidth w.val)))

/-- ADDI (R83). -/
def execAddi (d : Fin 64) (a : Fin 64) (i : Fin 1024) (pre : Option Payload) (s : State) : Out :=
  immWord (· + ·) d.val a.val (immS pre i.val) s

/-- ANDI (R83). -/
def execAndi (d : Fin 64) (a : Fin 64) (i : Fin 1024) (pre : Option Payload) (s : State) : Out :=
  immWord (· &&& ·) d.val a.val (immS pre i.val) s

/-- ORI (R83). -/
def execOri (d : Fin 64) (a : Fin 64) (i : Fin 1024) (pre : Option Payload) (s : State) : Out :=
  immWord (· ||| ·) d.val a.val (immS pre i.val) s

/-- XORI (R83). -/
def execXori (d : Fin 64) (a : Fin 64) (i : Fin 1024) (pre : Option Payload) (s : State) : Out :=
  immWord (· ^^^ ·) d.val a.val (immS pre i.val) s

/-- SLLI (R83). -/
def execSlli (d : Fin 64) (a : Fin 64) (i : Fin 1024) (pre : Option Payload) (s : State) : Out :=
  let n := extU pre 1024 i.val
  let x := s.readS s.cur.slot a.val
  .next (s.result d.val (x <<< n))

/-- SRLI (R83). -/
def execSrli (d : Fin 64) (a : Fin 64) (i : Fin 1024) (pre : Option Payload) (s : State) : Out :=
  let n := extU pre 1024 i.val
  let x := s.readS s.cur.slot a.val
  .next (s.result d.val (x >>> n))

/-- SRAI (R83). -/
def execSrai (d : Fin 64) (a : Fin 64) (i : Fin 1024) (pre : Option Payload) (s : State) : Out :=
  let n := extU pre 1024 i.val
  let x := s.readS s.cur.slot a.val
  .next (s.result d.val (x.sshiftRight n))

/-- SLTI (R83). -/
def execSlti (d : Fin 64) (a : Fin 64) (i : Fin 1024) (pre : Option Payload) (s : State) : Out :=
  immWord sltW d.val a.val (immS pre i.val) s

/-- SLTIU (R83). -/
def execSltiu (d : Fin 64) (a : Fin 64) (i : Fin 1024) (pre : Option Payload) (s : State) : Out :=
  immWord sltuW d.val a.val (immS pre i.val) s

/-- MOVI (R84). -/
def execMovi (d : Fin 64) (i : Fin 65536) (pre : Option Payload) (s : State) : Out :=
  .next (s.result d.val (BitVec.ofInt 64 (extS pre 16 i.val)))

/-- MOVS (R84). -/
def execMovs (d : Fin 64) (i : Fin 65536) (s : State) : Out :=
  .next (s.result d.val ((s.readS s.cur.slot d.val <<< 16) ||| BitVec.ofNat 64 i.val))

/-- FADD (R86). -/
def execFadd (d : Fin 64) (a : Fin 64) (b : Fin 64) (m : Fin 8) (s : State) : Out :=
  fpWord s d.val m.val (addFl m.val (s.fp a.val) (s.fp b.val))

/-- FSUB (R86). -/
def execFsub (d : Fin 64) (a : Fin 64) (b : Fin 64) (m : Fin 8) (s : State) : Out :=
  fpWord s d.val m.val (addFl m.val (s.fp a.val) (s.fp b.val).negate)

/-- FMUL (R86). -/
def execFmul (d : Fin 64) (a : Fin 64) (b : Fin 64) (m : Fin 8) (s : State) : Out :=
  fpWord s d.val m.val (mulFl (s.fp a.val) (s.fp b.val))

/-- FDIV (R86). -/
def execFdiv (d : Fin 64) (a : Fin 64) (b : Fin 64) (m : Fin 8) (s : State) : Out :=
  fpWord s d.val m.val (divFl (s.fp a.val) (s.fp b.val))

/-- FSQRT (R86). -/
def execFsqrt (d : Fin 64) (a : Fin 64) (m : Fin 8) (s : State) : Out :=
  fpWord s d.val m.val (sqrtFl (s.fp a.val))

/-- FMIN (R86). -/
def execFmin (d : Fin 64) (a : Fin 64) (b : Fin 64) (s : State) : Out :=
  fpFinish s d.val (minMaxFl false (s.fp a.val) (s.fp b.val)).rne32

/-- FMAX (R86). -/
def execFmax (d : Fin 64) (a : Fin 64) (b : Fin 64) (s : State) : Out :=
  fpFinish s d.val (minMaxFl true (s.fp a.val) (s.fp b.val)).rne32

/-- FMA (R86). -/
def execFma (d : Fin 64) (a : Fin 64) (b : Fin 64) (m : Fin 8) (s : State) : Out :=
  fpWord s d.val m.val (fmaFl m.val (s.fp a.val) (s.fp b.val) (s.fp d.val))

/-- FCMP (R87). -/
def execFcmp (d : Fin 64) (a : Fin 64) (b : Fin 64) (c : Fin 16) (s : State) : Out :=
  let r := fcmp c.val (s.fp a.val) (s.fp b.val)
  fpFinish s d.val (if r.1 then 1 else 0, r.2)

/-- FCVT (R88). -/
def execFcvt (d : Fin 64) (a : Fin 64) (k : Fin 64) (e : Fin 2) (m : Fin 8) (s : State) : Out :=
  let ds := s.draws s.cur.slot 0 m.val 1
  fpFinish ds.2 d.val (fcvt k.val m.val (ds.1.headD 0) (e.val == 1) (s.readS s.cur.slot a.val).toNat)

/-- FCLASS (R89). -/
def execFclass (d : Fin 64) (a : Fin 64) (s : State) : Out :=
  .next (s.result d.val (BitVec.ofNat 64 (2 ^ fclass ((s.readS s.cur.slot a.val).toNat % 2 ^ 32))))

/-- Goes to PC + 4 × an offset when a condition holds, else on (R91). -/
def State.branch (s : State) (c : Bool) (off : Int) : State :=
  if c then s.setPc (s.pc + BitVec.ofInt 64 (4 * off)) else s.advance

/-- A compare-and-branch word (R91). -/
def branchWord (f : Word → Word → Bool) (a b o : Nat) (pre : Option Payload) (s : State) : Out :=
  .next (s.branch (f (s.readS s.cur.slot a) (s.readS s.cur.slot b)) (extS pre 10 o))

/-- BEQ (R91). -/
def execBeq (a : Fin 64) (b : Fin 64) (o : Fin 1024) (pre : Option Payload) (s : State) : Out :=
  branchWord (fun x y => decide (x = y)) a.val b.val o.val pre s

/-- BNE (R91). -/
def execBne (a : Fin 64) (b : Fin 64) (o : Fin 1024) (pre : Option Payload) (s : State) : Out :=
  branchWord (fun x y => decide (x ≠ y)) a.val b.val o.val pre s

/-- BLT (R91). -/
def execBlt (a : Fin 64) (b : Fin 64) (o : Fin 1024) (pre : Option Payload) (s : State) : Out :=
  branchWord (fun x y => decide (x.toInt < y.toInt)) a.val b.val o.val pre s

/-- BGE (R91). -/
def execBge (a : Fin 64) (b : Fin 64) (o : Fin 1024) (pre : Option Payload) (s : State) : Out :=
  branchWord (fun x y => decide (y.toInt ≤ x.toInt)) a.val b.val o.val pre s

/-- BLTU (R91). -/
def execBltu (a : Fin 64) (b : Fin 64) (o : Fin 1024) (pre : Option Payload) (s : State) : Out :=
  branchWord (fun x y => decide (x.toNat < y.toNat)) a.val b.val o.val pre s

/-- BGEU (R91). -/
def execBgeu (a : Fin 64) (b : Fin 64) (o : Fin 1024) (pre : Option Payload) (s : State) : Out :=
  branchWord (fun x y => decide (y.toNat ≤ x.toNat)) a.val b.val o.val pre s

/-- J (R91). -/
def execJ (o : Fin 4194304) (pre : Option Payload) (s : State) : Out :=
  .next (s.branch true (extS pre 22 o.val))

/-- JAL (R91). -/
def execJal (o : Fin 4194304) (pre : Option Payload) (s : State) : Out :=
  .next ((s.writeS s.cur.slot 63 (s.pc + BitVec.ofNat 64 s.len)).branch true (extS pre 22 o.val))

/-- JALR (R92). -/
def execJalr (d : Fin 64) (a : Fin 64) (i : Fin 1024) (pre : Option Payload) (s : State) : Out :=
  let t := s.readS s.cur.slot a.val + immS pre i.val
  if t.toNat % 4 ≠ 0 then trapOut s 0x06 t.toNat
  else .next ((s.writeS s.cur.slot d.val (s.pc + BitVec.ofNat 64 s.len)).setPc t)

end Sys2Proof.Machine
end

