-- ==== Sys2Proof/Machine/Retire.lean ====
section
/-!
DEFINITION. Releasing what a slot holds, and the end of a task (spec/04 R128, R137; spec/09 R237, R248; spec/13 R334).
-/

namespace Sys2Proof.Machine

/-- Frees a region of a slot with its pin, and discards the slot's spilled copies of it (R137, R324): its marks go. -/
def State.freeRegion (s : State) (sl : SlotId) (k : Nat) : State :=
  let mine (c : Spilled) : Bool := c.slot == sl.slot
  let r := mget (s.tile sl.tileId).regions k {}
  if r.owner == some sl.slot then
    (s.zero (s.localPhys sl (k * 0x40000)) 0x40000).modTile sl.tileId (fun t =>
      { t with regions := mset t.regions k { r with
        owner := none
        pinned := false
        ralloc := false
        spilled := r.spilled.filter (fun c => !mine c) } })
  else
    s.modTile sl.tileId (fun t =>
      { t with regions := mset t.regions k { r with spilled := r.spilled.filter (fun c => !mine c) } })

/-- Gives a free region to a slot: it reads zero, in the class named; one newly taken by RALLOC is immune from spill for a
while (R136, R238, R261, R320). -/
def State.giveRegion (s : State) (sl : SlotId) (k cls : Nat) (fresh : Bool) : State :=
  (s.zero (s.localPhys sl (k * 0x40000)) 0x40000).modTile sl.tileId (fun t =>
    { t with regions := mmod t.regions k {} (fun r =>
        { r with
          owner := some sl.slot
          cls := cls
          pinned := false
          ralloc := fresh
          immune := if fresh then s.now + 65536 else 0 }) })

/-- Ends the grants that a slot holds (R309): the engines are free. -/
def State.dropGrants (s : State) (sl : SlotId) : State :=
  s.modTile sl.tileId (fun t => { t with kilns := t.kilns.map (fun k =>
    (k.1, if (k.2.grant.map (·.slot)) == some sl.slot then { k.2 with grant := none } else k.2)) })

/-- Removes a member from its gang (R237): the gang is gone when none is left. -/
def State.leaveGang (s : State) (sl : SlotId) : State :=
  match (s.slot sl).task with
  | none => s
  | some t =>
    match mfind s.gangs t.gang with
    | none => s
    | some g =>
      let ms := g.members.filter (fun m => decide (m.2 ≠ sl))
      { s with gangs := if ms.isEmpty then mdel s.gangs t.gang else mset s.gangs t.gang { g with members := ms } }

/-- Frees what a slot holds (R128, R237, R239, R273): regions and pins, physical matrix registers, record-cache entries,
accumulator tiles, grants, and everything else but its count of error records; a revaluation follows (R213, R305). -/
def State.emptySlot (s : State) (sl : SlotId) : State :=
  let s1 := (List.range 16).foldl (fun s k => s.freeRegion sl k) (s.dropGrants sl)
  let s2 := s1.modTile sl.tileId (fun t =>
    { t with
      cache := t.cache.filter (fun c => c.slot != sl.slot)
      phys := t.phys.filter (fun x => x.1 != sl.slot)
      backing := t.backing.filter (fun x => x.1 != sl.slot)
      spilling := t.spilling.filter (fun x => x.slot != sl.slot) })
  let n := (s.slot sl).recSeq
  let idle : Slot := { recSeq := n }
  State.revalue { s2 with slots := if n == 0 then mdel s2.slots sl else mset s2.slots sl idle }

/-- The end of a command of a function's CTXCMD (R388): result, value, and MSI-X vector 1. -/
def State.endCommand (s : State) (fn result value : Nat) : State :=
  let ovr := s.reg fn 0x1118 / 2 % 2
  (s.setReg fn 0x1118 (ovr * 2 + result * 16 + value * 2 ^ 32)).msix fn 1

/-- Whether the command in progress on a function is one of a context (R388). -/
def State.commandIs (s : State) (fn op c : Nat) : Bool :=
  bitOf (s.reg fn 0x1118) 0 && s.reg fn 0x1100 % 16 == op && s.reg fn 0x1100 / 16 % 8 == c

/-- Whether a slot holds a task of a context. -/
def State.inContext (s : State) (fn c : Nat) (sl : SlotId) : Bool :=
  match s.kernelOf sl with
  | some k => k.fn == fn && k.ctx == c
  | none => false

/-- The slots that hold tasks of a context. -/
def State.slotsOf (s : State) (fn c : Nat) : List SlotId :=
  (s.slots.filter (fun (e : SlotId × Slot) => e.2.task.isSome && s.inContext fn c e.1)).map (·.1)

/-- A pre-emption completes once no task of the context holds a slot: the context is saved (R400). -/
def State.settlePreempt (s : State) (fn c : Nat) : State :=
  let x := s.ctx fn c
  if x.state != 2 || !(s.slotsOf fn c).isEmpty then s
  else
    let s1 := s.modCtx fn c (fun x => { x with state := 3, modes := [] })
    if s.commandIs fn 3 c then
      s1.endCommand fn 0 (x.nSaved % 2 ^ 12 + x.nDiscarded % 2 ^ 12 * 2 ^ 12 + x.overran.length % 2 ^ 8 * 2 ^ 24)
    else s1

/-- Whether a task of a kernel is running, ready, being replayed, or saved. -/
def State.kernelBusy (s : State) (kid : Nat) (k : Kernel) : Bool :=
  s.slots.any (fun (e : SlotId × Slot) => (e.2.task.map (·.kernel)) == some kid)
    || (match s.part? k.part with
        | some v => v.ready.any (fun r => r.kernel == kid)
        | none => false)
    || (s.ctx k.fn k.ctx).saved.any (fun x => (x.slot.task.map (·.kernel)) == some kid)

/-- A kernel of which no task is running, ready or being replayed is complete: the tasks still spawned are abandoned at
that moment (R380). -/
def State.abandonIdle (s : State) (kid : Nat) : State :=
  match mfind s.kernels kid with
  | none => s
  | some k =>
    if k.phase != 1 || s.kernelBusy kid k then s
    else
      let mine (w : Spawned) : Bool := w.kernel == kid
      let left := (((s.part? k.part).map (fun v => (v.spawned.filter mine).length))).getD 0
      (s.modKernel kid (fun k => { k with phase := 3, abandoned := k.abandoned + left })).modPart k.part (fun v =>
        { v with spawned := v.spawned.filter (fun w => !mine w) })

/-- Releases a slot whose task is over: it leaves its gang, a pre-emption that waited for it may complete, and so may its
kernel. -/
def State.releaseSlot (s : State) (sl : SlotId) : State :=
  let k := s.kernelOf sl
  let s1 := (s.leaveGang sl).emptySlot sl
  let s2 := match (s.slot sl).task with
    | some t => s1.abandonIdle t.kernel
    | none => s1
  match k with
  | some k => s2.settlePreempt k.fn k.ctx
  | none => s2

/-- Writes STATE and HOME of the block of a task that ends (R248). -/
def State.endBlock (s : State) (sl : SlotId) (st : Nat) : State :=
  match (s.slot sl).task, s.kernelOf sl with
  | some t, some k =>
    match t.tcb with
    | none => s.keepStatus t (t.status / 8 * 8 + st)
    | some va =>
      let s1 := s.tcbState k va st
      match s1.leasePhys k (va + 108) with
      | some a => s1.poke .bank none a (toBytes 4 0xFFFFFFFF)
      | none => s1
  | _, _ => s

/-- Retires a task (R128): successors are decremented and become ready, its state becomes done, and the slot is free. -/
def State.retire (s : State) (sl : SlotId) : State :=
  match (s.slot sl).task, s.kernelOf sl with
  | some t, some k =>
    let s1 := t.succ.foldl (fun s va => s.decDep k va) s
    ((s1.endBlock sl 4).settleReady sl.part).releaseSlot sl
  | _, _ => s.releaseSlot sl

/-- Whether any word of the slot's own that was split into a queue has still to execute, given the queues that matter
and the words that matter. -/
def Slot.queued (v : Slot) (es : List Engine) (f : Entry → Bool) : Bool :=
  es.any (fun e =>
    let q := v.seq e
    q.q.zipIdx.any (fun x => q.live x.2 && (match x.1.kind with | .word => true | _ => false)
      && decide (0 < x.1.stamp) && f x.1))

/-- Whether every engine word that the slot split before now has completed (R137). -/
def State.wordsDone (s : State) (sl : SlotId) : Bool :=
  let v := s.slot sl
  !v.queued [.v, .m, .x, .d, .b] (fun _ => true) && !(s.inflight sl).any (fun c => decide (0 < c.stamp))
    && v.chain.isNone

end Sys2Proof.Machine
end

