-- ==== Sys2Proof/Machine/Waiting.lean ====
section
/-!
DEFINITION. Blocking words (spec/04 R109 to R138; spec/03 R96, R98, R99, R104 to R106): one try of each, at its split
and again whenever the core comes back to it, until it ends.
-/

namespace Sys2Proof.Machine

/-- One try of a blocking word: it waits on, it has ended, or it met an address that does not exist. -/
inductive Try where
  | wait (s : State)
  | fin (s : State)
  | hole (a : Nat)

/-- The word ends: its result, if it has one, is written and the core goes on. -/
def State.endWait (s : State) (sl : SlotId) (w : Wait) : State :=
  s.modSlot sl (fun v => { v with pc := w.next, wait := none })

/-- Ends with a value for s[d]. -/
def finWith (s : State) (sl : SlotId) (w : Wait) (d : Nat) (v : Nat) : Try :=
  .fin ((s.writeS sl d (BitVec.ofNat 64 v)).endWait sl w)

/-- A trap of a word that waits (R68, R99): precise, at its address. -/
def trapWait (s : State) (sl : SlotId) (cause val : Nat) : Try :=
  .fin ((s.modSlot sl (fun v => { v with wait := none })).takeTrap sl { cause := cause, val := val, word := s.firstWord }
    (s.slot sl).pc)

/-- Whether a wait has lasted as long as its timeout field allows (R111). -/
def State.elapsed (s : State) (w : Wait) (tmo : Nat) : Bool := tmo != 0 && decide (w.since + 2 ^ (tmo + 8) ≤ s.now)

/-- TO of a wait status (R111). -/
def statusTO : Nat := 2 ^ 63

/-- Consumption of poison by the control core in a word that may wait (R325): one event for the word, however often it
looks. -/
def consumeTry (s : State) (sl : SlotId) (val : Nat) (go : State → Try) : Try :=
  let s1 := if (s.slot sl).ate then s else (s.coneEvent sl 1 0).modSlot sl (fun v => { v with ate := true })
  if s.kclass sl == 2 then go s1 else trapWait s1 sl 0x07 val

/-- Reads n bytes as an ordinary access of the control core, after the errors in them have been found, and consumes
poison among them (R95, R323, R325). -/
def readTry (s : State) (sl : SlotId) (a n val : Nat) (go : State → Nat → Try) : Try :=
  let s1 := s.settle sl 0 a n
  let v := s1.readNum (.core sl) a n
  if s1.poisonedIn a n then consumeTry s1 sl val (fun s => go (s.noteRead sl a n) v) else go (s1.noteRead sl a n) v

/-! ## Commands seen complete (R293) -/

/-- A slot has seen commands complete, those of ids that are complete; what it waited for orders the slot's own commands of
all before its later engine words (R241). -/
def State.see (s : State) (sl : SlotId) (ids : List Nat) (all : List Nat := ids) : State :=
  let complete (i : Nat) : Bool := match mfind s.vis i with | some v => v.done.isSome | none => false
  let done := ids.filter complete
  let s1 := { s with vis := s.vis.map (fun (e : Nat × Vis) =>
      if all.contains e.1 && complete e.1 && decide (e.2.slot = sl) && e.2.seenAt.isNone then
        (e.1, { e.2 with seenAt := some s.seqT })
      else e) }
  s1.modSlot sl (fun v => { v with
    lastSeen := s.seqT
    seenCmds := done ++ v.seenCmds.filter (fun i => !done.contains i) })

/-- The slot's own commands that a counter counts (R112, R293). -/
def State.counted (s : State) (sl : SlotId) (sel : Nat) : List Nat :=
  (s.vis.filter (fun e => decide (e.2.slot = sl) &&
    (sel == 5 || (sel == 1 && e.2.matrix) || (sel == 2 && !e.2.matrix)))).map (·.1)

/-- FENCE kind m (R117, R293, R295): the writes of every command that the slot has seen complete are ordered for the
agents of the scope; publishes whose publisher lies in the scope are visible to the slot. It takes its place in T. -/
def State.fenceM (s : State) (sl : SlotId) (scope : Nat) : State :=
  let seen := (s.slot sl).seenCmds
  let f := s.fenceHere scope sl
  { s with
    vis := s.vis.map (fun (e : Nat × Vis) => if seen.contains e.1 then (e.1, { e.2 with fences := f :: e.2.fences }) else e)
    pubs := s.pubs.map (fun (p : Pub) => if s.covers f (.core p.by_.slot) then { p with fences := sl :: p.fences } else p)
    seqT := s.seqT + 1 }

/-- The host in a FENCE of kind m (R299): the slot's stores to pages of host bias are visible to it, and what it stored
up to the newest store that the slot has observed is visible to the slot. -/
def State.fenceHost (s : State) (sl : SlotId) (scope : Nat) : State :=
  if scope == 7 || scope == 9 then
    { s with hist := s.hist.map (fun (r : Rec) => if r.weak && decide (agentSlot r.by_ = some sl) && !s.sees .host r then
        { r with seen := (.host, s.seqT) :: r.seen } else r) }.modSlot sl (fun v => { v with hostSeen := max v.hostSeen v.hostObs })
  else s

/-- FENCE kind i (R117, R298): what it orders before the slot's later fetches is noted. -/
def State.fenceI (s : State) (sl : SlotId) (scope : Nat) : State :=
  let f := s.fenceHere scope sl
  { s.modSlot sl (fun v => { v with fetch := f :: v.fetch.filter (fun x => x.scope != scope) }) with seqT := s.seqT + 1 }

/-! ## Gang barriers (R116) -/

/-- Sets EVLATCH of every member of a gang (R141). -/
def State.gangEv (s : State) (g : Gang) : State := g.members.foldl (fun s m => s.setEv m.2) s

/-- An arrival: a generation completes when every member has arrived beyond it. -/
def State.arrive (s : State) (gid : Nat) (g : Gang) (m n : Nat) : State :=
  let a := mget g.arrived (n, m) 0 + 1
  let g1 := { g with arrived := mset g.arrived (n, m) a }
  let c := mget g.completed n 0
  if (List.range g.size).all (fun i => decide (c < mget g1.arrived (n, i) 0)) then
    { s with gangs := mset s.gangs gid { g1 with completed := mset g1.completed n (c + 1) } }.gangEv g1
  else { s with gangs := mset s.gangs gid g1 }

/-! ## Queues, semaphores and futures (R131 to R134) -/

/-- The address of an object of R132: an alignment of its own, then R94, then no bank page. -/
def State.objectAddr (s : State) (sl : SlotId) (h off size kind align : Nat) : Addr :=
  let hd := (s.slot sl).readH h
  if off % align != 0 then .trap 0x06 ((hd.va + off) % 2 ^ 64)
  else match s.handleAddress sl h off size kind align with
    | .ok a va => if hd.bank then .trap 0x0D va else .ok a va
    | x => x

/-- A push at TAIL once the queue is known not to be full (R131, R132): the entry's own check, then one access. -/
def pushTry (s : State) (sl : SlotId) (h off base head tail c prod : Nat) (v : Word) (fin : State → Try) : Try :=
  let eo := off + 32 + 8 * (tail % 2 ^ c)
  match s.handleAddress sl h eo 8 1 with
  | .trap x y => trapWait s sl x y
  | .hole a => .hole a
  | .ok ea _ =>
    let ws := [(ea, toBytes 8 v.toNat), (base, toBytes 8 head ++ toBytes 8 ((tail + 1) % 2 ^ 64))] ++
      (if prod == noIdentity then [(base + 20, toBytes 4 (identity sl))] else [])
    fin ((s.storeAll (.core sl) ws).noteOrd sl)

/-- A pop at HEAD once the queue is known not to be empty (R131, R132). -/
def popTry (s : State) (sl : SlotId) (h off base head c cons : Nat) (fin : State → Nat → Try) : Try :=
  let eo := off + 32 + 8 * (head % 2 ^ c)
  match s.handleAddress sl h eo 8 0 with
  | .trap x y => trapWait s sl x y
  | .hole a => .hole a
  | .ok ea va =>
    readTry (s.showAt (.core sl) ea 8) sl ea 8 (poisonVal va false false 0) (fun s v =>
      let ws := [(base, toBytes 8 ((head + 1) % 2 ^ 64))] ++
        (if cons == noIdentity then [(base + 24, toBytes 4 (identity sl))] else [])
      fin ((s.storeAll (.core sl) ws).noteOrd sl) v)

/-- Reads a queue's header (R131, R132): its address, HEAD, TAIL, c, PROD and CONS. -/
def headerTry (s : State) (sl : SlotId) (h off kind : Nat)
    (go : State → Nat → Nat → Nat → Nat → Nat → Nat → Try) : Try :=
  match s.objectAddr sl h off 32 kind 64 with
  | .trap x y => trapWait s sl x y
  | .hole a => .hole a
  | .ok base va =>
    readTry (if kind == 2 then s.showAt (.core sl) base 32 else s) sl base 32 (poisonVal va false false 0) (fun s v =>
      go s base (field v 0 64) (field v 64 64) (field v 128 4) (field v 160 32) (field v 192 32))

/-- Whether a queue is full (R131). -/
def queueFull (head tail c : Nat) : Bool := (tail + 2 ^ 64 - head) % 2 ^ 64 == 2 ^ c

/-! ## Regions (R136, R137) -/

/-- Region k of a slot's tile. -/
def State.region (s : State) (sl : SlotId) (k : Nat) : Region := mget (s.tile sl.tileId).regions k {}

/-- Whether a region of a slot's tile is free to be taken by RALLOC (R136): no slot has it, and no spill or refill concerns
it (log entry 51). -/
def State.freeFor (s : State) (sl : SlotId) (k : Nat) : Bool :=
  let r := s.region sl k
  r.owner.isNone && !r.pinned && !(s.tile sl.tileId).spilling.any (fun x => x.region == k)

/-- The region that a residency draw has cleared for the slot (R319, R320). -/
def State.cleared (s : State) (sl : SlotId) : Option Nat :=
  ((s.tile sl.tileId).spilling.find? (fun x => x.slot == sl.slot && !x.refill && (s.region sl x.region).owner.isNone)).map
    (·.region)

/-! ## Remote enqueue (R130) -/

/-- Whether a queue of a slot is full (R240), or accepts no entry because a fault has halted it (R69). -/
def State.queueIsFull (s : State) (sl : SlotId) (e : Engine) : Bool :=
  decide (32 ≤ ((s.slot sl).seq e).occupancy) || (s.slot sl).traps.any (fun t => t.engine == e.code)

/-- A stall on a full queue (R58, R254): its beginning is kept while it lasts. -/
def State.stallOn (s : State) (sl : SlotId) (tgt : SlotId) (e : Engine) : State :=
  s.modSlot sl (fun v => { v with stall := some (match v.stall with
    | some x => if decide (x.target = tgt) && decide (x.engine = e) then x
        else { target := tgt, engine := e, since := s.now, probed := s.now, granted := false, probe := false }
    | none => { target := tgt, engine := e, since := s.now, probed := s.now, granted := false, probe := false }) })

/-- Whether a slot may push into a queue: room, or the reserve entry granted to it (R240, R255). -/
def State.grantedPush (s : State) (sl tgt : SlotId) (e : Engine) : Bool :=
  !s.queueIsFull tgt e || (match (s.slot sl).stall with
    | some x => x.granted && decide (x.target = tgt) && decide (x.engine = e)
    | none => false)

/-- Pushes an entry at the tail of a queue. -/
def State.push (s : State) (sl : SlotId) (e : Engine) (x : Entry) : State :=
  { s.modSeq sl e (fun q => { q with q := q.q ++ [{ x with born := s.seqT }] }) with seqT := s.seqT + 1 }

/-! ## Segments (R138, R329, R330) -/

/-- Whether an engine has dispatched the entry at an index, a word of the segment, in every repetition of its loops; an
accumulating word counts its beats only once it has executed (R138, R329). -/
def Sequencer.dispatched (q : Sequencer) (i : Nat) (x : Entry) : Bool :=
  !q.loops.any (fun l => decide (l.start ≤ i) && decide (1 < l.count)) &&
    (decide (i < q.pos) || (i == q.pos && x.signed && !(0x101 ≤ x.word / 0x400000 && x.word / 0x400000 ≤ 0x103)))

/-- Whether the engines have dispatched every word of the open segment. -/
def Slot.segmentTaken (v : Slot) : Bool :=
  [Engine.v, .m, .x, .d, .b].all (fun e =>
    let q := v.seq e
    q.q.zipIdx.all (fun x => !x.1.seg || (match x.1.kind with | .word => q.dispatched x.2 x.1 | _ => true)))

/-- Final CRC-32C and beat count of an engine in the open segment (R329). -/
def Csrs.segPair (c : Csrs) (e : Nat) : Nat × Nat :=
  (mget c.segCrc e 0xFFFFFFFF ^^^ 0xFFFFFFFF, mget c.segBeats e 0 % 2 ^ 32)

/-- The comparison of SEGE (R330) with the 48 bytes of the record: IDX, and the first engine that differs. -/
def Csrs.segDiff (c : Csrs) (idx : Nat) (b : List Byte) : Bool × Option (Nat × Bool) :=
  (blockNum b 0 8 != idx,
   [1, 2, 3, 4, 5].findSome? (fun e =>
     let p := c.segPair e
     let crc := blockNum b (8 * e) 4
     let beats := blockNum b (8 * e + 4) 4
     if p.1 != crc || p.2 != beats then some (e, p.2 != beats) else none))

/-- SEGE once every word has been dispatched (R138, R330): an index other than the open segment's, or none open, is a
difference of its own. -/
def segeTry (s : State) (sl : SlotId) (w : Wait) (idx : Nat) : Try :=
  let other := !(s.slot sl).csr.segOpen || (s.slot sl).csr.segIdx != idx
  let close (s : State) : Try :=
    .fin ((s.modCsr sl (fun c => { c with segOpen := false, segEng := 0, segBeat := false, segLast := 0 })).endWait sl w)
  if s.kclass sl == 2 then
    (if other then trapWait (s.modCsr sl (fun c => { c with segEng := 0, segBeat := false, segLast := 0 })) sl 0x09
        (idx % 65536 + 2 ^ 20)
     else close s)
  else
    match s.kernelOf sl with
    | none => close s
    | some k =>
      if k.sigbase == 0 then trapWait s sl 0x09 (idx % 65536 + 2 ^ 20)
      else
      let va := k.sigbase + 48 * idx
      match k.page? va, s.leasePhys k va, s.leasePhys k (va + 47) with
      | some p, some a, some b =>
        if !grantsR (k.rangeRights p) then trapWait s sl 0x04 va
        else
          let n := if a + 47 == b then 48 else 65536 - va % 65536
          readTry s sl a n (poisonVal va false false 0) (fun s _ =>
            readTry s sl (b - (47 - n)) (48 - n) (poisonVal (va + n) false false 0) (fun s _ =>
              let bytes := (s.readBytes (.core sl) a n) ++ (s.readBytes (.core sl) (b - (47 - n)) (48 - n))
              match other || ((s.slot sl).csr.segDiff idx bytes).1, ((s.slot sl).csr.segDiff idx bytes).2 with
              | false, none => close s
              | bad, eng =>
                let e := (eng.map (·.1)).getD 0
                let beat := (eng.map (·.2)).getD false
                let last := if e == 0 then 0 else ((s.slot sl).csr.segPair e).1
                trapWait (s.modCsr sl (fun c => { c with segEng := e, segBeat := beat, segLast := last })) sl 0x09
                  (idx % 65536 + e * 2 ^ 16 + (if beat then 2 ^ 19 else 0) + (if bad then 2 ^ 20 else 0))))
      | _, _, _ => trapWait s sl 0x04 va

/-! ## Record synchronisation and publish (R120, R121) -/

/-- Whether a queued word names a tensor record: the X words with windows, XPUB, and MEPI. -/
def namesRecord (w : Nat) : Bool :=
  match w / 0x400000 with
  | 0x180 | 0x181 | 0x182 | 0x183 | 0x184 | 0x187 | 0x188 | 0x189 | 0x18A | 0x18B | 0x18C | 0x107 => true
  | _ => false

/-- Whether a queued X word writes to a destination window, and which record it names. -/
def writesWindow (x : Entry) : Option Nat :=
  match x.word / 0x400000 with
  | 0x180 | 0x181 | 0x182 | 0x183 | 0x184 | 0x187 | 0x188 | 0x189 | 0x18A | 0x18B => some (x.cap2.toNat % 4096)
  | _ => none

/-- Whether a write of the slot to a buffer that was split before a publish has still to complete (R121). -/
def State.bufferBusy (s : State) (sl : SlotId) (ps : List Page) : Bool :=
  let v := s.slot sl
  v.queued [.x] (fun x => (match writesWindow x with | some t => s.targets sl ps t | none => false) || x.word / 0x400000 == 0x18D)
    || v.chain.isSome
    || v.queued [.m] (fun x => x.word / 0x400000 == 0x107 && s.targets sl ps (x.cap1.toNat % 4096))
    || (s.inflight sl).any (fun c => decide (0 < c.stamp) && c.writesBuffer ps)

/-! ## Bank fences (R119) -/

/-- Whether a bank command has executed and all its writes have performed. -/
def Cmd.drained (c : Cmd) : Bool := c.executed && c.moves.isEmpty

/-- Whether a BFENCE must go on waiting: with no handle, while any bank command that the slot split before it has not
executed; with a handle, while one to a bank of the handle's page has not. -/
def State.bankBusy (s : State) (sl : SlotId) (h : Option Handle) : Bool :=
  let v := s.slot sl
  let isCmd (x : Entry) : Bool := decide (x.word / 0x400000 % 128 < 8)
  match h with
  | none => v.queued [.b] isCmd || (s.inflight sl).any (fun c => c.engine == .b && decide (0 < c.stamp) && !c.drained)
  | some h =>
    let banks := (List.range (pageBytes h.size / 0x8000)).map (fun i => slabBank (h.frame + i * 0x8000))
    let hits (y : Nat) : Bool :=
      match s.pageOf sl y with
      | some p => banks.contains (slabBank (p.frame + (y - p.va)))
      | none => false
    v.queued [.b] (fun x => isCmd x && hits (x.cap1.toNat % 2 ^ 57))
      || (s.inflight sl).any (fun c => c.engine == .b && decide (0 < c.stamp) && !c.drained &&
          (match c.bank with | some b => banks.contains b | none => false))

/-! ## Scratchpad (R96) -/

/-- Bytes of a type code (R52). -/
def typeSize (ty : Nat) : Nat :=
  match ty with
  | 0 | 1 => 1
  | 2 | 3 => 2
  | 6 => 8
  | _ => 4

/-- A loaded value extended by its type (R40, R52). -/
def extend (ty v : Nat) : Word :=
  match ty with
  | 0 => BitVec.ofInt 64 (toSigned 8 v)
  | 2 => BitVec.ofInt 64 (toSigned 16 v)
  | 4 => BitVec.ofInt 64 (toSigned 32 v)
  | _ => BitVec.ofNat 64 v

/-! ## The try of each blocking word -/

/-- One try of a blocking word. -/
def tryWait (s : State) (sl : SlotId) (w : Wait) : Try :=
  let v := s.slot sl
  match w.kind with
  | .wfe =>
    if v.csr.evlatch || v.resumed then
      .fin ((s.modCsr sl (fun c => { c with evlatch := false })).endWait sl w)
    else .wait s
  | .waitc d sel cnt tmo =>
    let c := s.counter sl sel
    if c ≤ cnt then finWith (s.see sl (s.counted sl sel)) sl w d c
    else if s.elapsed w tmo then finWith (s.see sl (s.counted sl sel)) sl w d (statusTO + c)
    else .wait s
  | .waitf d flag tmo clr =>
    let f := mget v.ready flag 0
    if f != 0 || s.elapsed w tmo then
      let st := if bitOf f 0 then 0 else statusTO + (if bitOf f 1 then 2 ^ 62 else 0)
      let s1 := s.see sl (mget v.flagCmds flag [])
      let s2 := if clr then s1.modSlot sl (fun v =>
          { v with ready := mset v.ready flag 0, flagCmds := mset v.flagCmds flag [] }) else s1
      finWith s2 sl w d st
    else .wait s
  | .waitb d addr tmo phase clr =>
    if addr % 16 != 0 then trapWait s sl 0x06 addr
    else if !s.spanHeld sl addr 16 then trapWait s sl 0x04 addr
    else if !s.resident sl addr 16 then .wait (s.wantSpan sl addr 16)
    else
      let p := s.localPhys sl addr
      readTry (s.injectLocal sl addr 16) sl p 16 (poisonVal addr false true 0) (fun s b =>
        if b % 2 == phase then
          let ids := mget v.barFlip addr ([], [])
          let s1 := s.see sl ids.1 ids.2
          let s2 := if clr then s1.store (.core sl) none (p + 8) (toBytes 4 0) else s1
          finWith s2 sl w d (field b 64 32)
        else if s.elapsed w tmo then finWith s sl w d (statusTO + field b 32 32)
        else .wait s)
  | .bara d n =>
    match v.task with
    | none => .fin (s.endWait sl w)
    | some t =>
      match mfind s.gangs t.gang with
      | none => .fin (s.endWait sl w)
      | some g =>
        let a := mget g.arrived (n, t.member) 0
        if mget g.completed n 0 < a then .wait s
        else finWith (s.arrive t.gang g t.member n) sl w d a
  | .barw d gen n tmo =>
    match s.gangOf sl with
    | none => .fin (s.endWait sl w)
    | some g =>
      if gen < mget g.completed n 0 then finWith s sl w d 0
      else if s.elapsed w tmo then
        finWith s sl w d (statusTO + ((List.range g.size).filter (fun m => decide (mget g.arrived (n, m) 0 ≤ gen))).length)
      else .wait s
  | .semw d h off tmo =>
    match s.objectAddr sl h off 16 2 8 with
    | .trap x y => trapWait s sl x y
    | .hole a => .hole a
    | .ok a va =>
      readTry (s.showAt (.core sl) a 16) sl a 16 (poisonVal va false false 0) (fun s b =>
        let c := b % 2 ^ 64
        if c != 0 then
          finWith ((s.store (.core sl) none a (toBytes 8 (c - 1) ++ toBytes 4 (identity sl))).noteOrd sl) sl w d 0
        else if s.elapsed w tmo then finWith s sl w d statusTO
        else .wait s)
  | .ldf d h off =>
    match s.handleAddress sl h off 8 0 with
    | .trap x y => trapWait s sl x y
    | .hole a => .hole a
    | .ok a va =>
      if (v.readH h).bank then trapWait s sl 0x0D va
      else if !s.full a then .wait s
      else readTry s sl a 8 (poisonVal va false false 0) (fun s b => finWith s sl w d b)
  | .qpush d h off =>
    headerTry s sl h off 2 (fun s base head tail c prod _ =>
      if queueFull head tail c then .wait s
      else pushTry s sl h off base head tail c prod (v.readS d) (fun s => .fin (s.endWait sl w)))
  | .qpop d h off =>
    headerTry s sl h off 2 (fun s base head tail c _ cons =>
      if head == tail then .wait s
      else popTry s sl h off base head c cons (fun s x => finWith s sl w d x))
  | .renq d member addr e =>
    match Engine.ofCode e, s.gangOf sl with
    | some eng, some g =>
      match mfind g.members member with
      | none => finWith (s.modSlot sl (fun v => { v with stall := none })) sl w d 1
      | some tgt =>
        if !s.grantedPush sl tgt eng then .wait (s.stallOn sl tgt eng)
        else
          let s1 := s.push tgt eng { kind := .renq addr sl, held := s.queueIsFull tgt eng }
          finWith (s1.modSlot sl (fun v => { v with rq := v.rq + 1, stall := none })) sl w d 0
    | _, _ => finWith (s.modSlot sl (fun v => { v with stall := none })) sl w d 1
  | .trsync ident =>
    if v.queued [.x, .m] (fun x => namesRecord x.word) then .wait s
    else .fin ((s.dropRecords sl ident).endWait sl w)
  | .pub d tid scope =>
    let l := s.lookup sl (.core sl) 0 tid
    match l.2 with
    | none => trapWait l.1 sl 0x0B (tid * 2 ^ 16 + 2 ^ 32)
    | some r =>
      if !l.1.publishable sl r then trapWait l.1 sl 0x0B (tid * 2 ^ 16 + 2 ^ 32)
      else if !r.shadow then finWith ((l.1.fenceM sl scope).fenceHost sl scope) sl w d 1
      else
        let ps := l.1.bufferPages sl r
        if l.1.bufferBusy sl ps then .wait l.1
        else finWith (l.1.publish sl scope (ps.map (·.leaf))) sl w d 0
  | .bfence h =>
    match h with
    | none => if s.bankBusy sl none then .wait s else .fin (s.endWait sl w)
    | some n =>
      let hd := v.readH n
      if !hd.valid then trapWait s sl 0x05 n
      else if s.bankBusy sl (some hd) then .wait s
      else .fin (s.endWait sl w)
  | .tdone =>
    if [Engine.v, .m, .x, .d, .b].all (fun e => (v.seq e).isEmpty) && s.counter sl 5 == 0 && v.chain.isNone then
      .fin (s.retire sl)
    else .wait s
  | .ralloc d cls =>
    match s.cleared sl with
    | some k =>
      let s1 := s.modTile sl.tileId (fun t => { t with spilling := t.spilling.filter (fun x =>
        !(x.slot == sl.slot && !x.refill && x.region == k)) })
      finWith (s1.giveRegion sl k cls true) sl w d k
    | none =>
      match (List.range 16).find? (fun k => s.freeFor sl k) with
      | some k => finWith (s.giveRegion sl k cls true) sl w d k
      | none =>
        if (List.range 16).all (fun k => (s.region sl k).pinned || s.holds sl k) then
          finWith s sl w d (2 ^ 64 - 1)
        else .wait s
  | .rfree k =>
    if !s.wordsDone sl then .wait s
    else .fin ((if s.holds sl k then s.freeRegion sl k else s).endWait sl w)
  | .rpin d k =>
    if !s.holds sl k then finWith s sl w d 2
    else if (s.region sl k).owner != some sl.slot then .wait (s.wantRegion sl k)
    else if (s.region sl k).pinned then finWith s sl w d 0
    else if 12 ≤ ((List.range 16).filter (fun i => (s.region sl i).pinned)).length then finWith s sl w d 1
    else
      finWith (s.modTile sl.tileId (fun t => { t with regions := mmod t.regions k {} (fun r => { r with pinned := true }) }))
        sl w d 0
  | .ldl d a ty =>
    let n := typeSize ty
    if !s.resident sl a n then .wait (s.wantSpan sl a n)
    else readTry (s.injectLocal sl a n) sl (s.localPhys sl a) n (poisonVal a false true 0) (fun s x =>
      finWith s sl w d (extend ty x).toNat)
  | .stl d a ty =>
    let n := typeSize ty
    if !s.resident sl a n then .wait (s.wantSpan sl a n)
    else .fin (((s.store (.core sl) none (s.localPhys sl a) (toBytes n (v.readS d).toNat)).noteOrd sl).endWait sl w)
  | .sege idx => if v.segmentTaken then segeTry s sl w idx else .wait s
  | .csr d n x old =>
    if !s.enginesIdle sl then .wait s
    else
      let r := s.csrRead sl n
      let s1 := s.csrWrite sl n x.toNat
      if old then finWith s1 sl w d r else .fin (s1.endWait sl w)
  | .prd d p =>
    if p != 0 && v.queued [.v] (fun x => writesPredicate x.word p) then .wait s
    else finWith s sl w d (v.readP p).toNat
  | .vread d m b e =>
    if v.queued [.v, .d] (fun _ => true) then .wait s
    else
      let el := b % 1024
      let s0 := (s.injectM sl m [el]).useRegs sl [m]
      let r := (s0.slot sl).regs
      let x := (r.el m el).toNat
      let y : Word := if e == 1 then BitVec.ofInt 64 (toSigned 32 x) else BitVec.ofNat 64 x
      let bad := r.elBad m el && d != 0
      let s1 := s0.writeS sl d y
      let idx := (s.slot sl).sIndex d
      let s2 := if bad then s1.modRegs sl (fun g => { g with spoison := idx :: g.spoison }) else s1
      .fin (s2.endWait sl w)

/-- Splits a blocking word (R109): it ends at once, or the slot waits in it. -/
def blockOn (kind : WaitKind) (s : State) : Out :=
  let sl := s.cur.slot
  let w : Wait := {
    kind := kind, since := s.now, pc := s.pc, next := s.pc + BitVec.ofNat 64 s.len, stamp := s.seqT, word := s.firstWord }
  match tryWait s sl w with
  | .fin t => .next t
  | .wait t => .next (t.modSlot sl (fun v => { v with wait := some w }))
  | .hole a => .fault (.hole a)

/-- Whether the kind of wait has a timeout that has run out (R111). -/
def State.timedOut (s : State) (w : Wait) : Bool :=
  match w.kind with
  | .waitc _ _ _ tmo => s.elapsed w tmo
  | .waitf _ _ tmo _ => s.elapsed w tmo
  | .waitb _ _ tmo _ _ => s.elapsed w tmo
  | .barw _ _ _ tmo => s.elapsed w tmo
  | .semw _ _ _ tmo => s.elapsed w tmo
  | _ => false

/-- Tries the blocking word of a slot again. -/
def tryAgain (sl : SlotId) (w : Wait) (s : State) : Out :=
  match tryWait s sl w with
  | .fin t => .next t
  | .wait t => .next t
  | .hole a => .fault (.hole a)

/-- BLOCKING_WAIT_RELEASE (R109 to R138): the slot's waiting word is tried again, and ends if its condition holds. -/
def execBlockingWaitRelease (sl : SlotId) (s : State) : Out :=
  match (s.slot sl).wait with
  | none => .next s
  | some w =>
    let cur : Cur := { slot := sl, entry := { word := w.word } }
    tryAgain sl w { s with cur := cur }

/-- WAIT_TIMEOUT (R111): a waiting word whose limit has passed ends with its status. -/
def execWaitTimeout (sl : SlotId) (s : State) : Out :=
  match (s.slot sl).wait with
  | none => .next s
  | some w =>
    let cur : Cur := { slot := sl, entry := { word := w.word } }
    if s.timedOut w then tryAgain sl w { s with cur := cur } else .next s

end Sys2Proof.Machine
end

