-- ==== Sys2Proof/Machine/Control.lean ====
section
/-!
DEFINITION. The C words that reach memory, CSRs and engine state (spec/03, R93 to R106).
-/

namespace Sys2Proof.Machine

/-- Goes on with the address of a handle access, or traps, or meets an address that does not exist (R94). -/
def withAddr (s : State) (h off size kind : Nat) (go : Nat → Nat → Out) : Out :=
  match s.handleAddress s.cur.slot h off size kind with
  | .trap c v => trapOut s c v
  | .hole a => .fault (.hole a)
  | .ok a va => go a va

/-- Reads n bytes as an ordinary access of the control core: errors are found, poison is consumed (R95, R323, R325). -/
def coreRead (s : State) (a n val : Nat) (go : State → Nat → Out) : Out :=
  let sl := s.cur.slot
  let s1 := s.settle sl 0 a n
  let v := s1.readNum (.core sl) a n
  if s1.poisonedIn a n then s1.consumeCore val (fun s => go (s.noteRead sl a n) v) else go (s1.noteRead sl a n) v

/-- The TRAPVAL of an encoding fault (R66). -/
def State.encoding (s : State) : Nat := s.cur.entry.word % 2 ^ 32 + s.cur.entry.pre.getD 0 * 2 ^ 32

/-- LD (R93 to R95). -/
def execLd (d : Fin 64) (h : Fin 16) (b : Fin 64) (t : Fin 16) (s : State) : Out :=
  let n := typeSize t.val
  withAddr s h.val (s.readS s.cur.slot b.val).toNat n 0 (fun a va =>
    coreRead s a n (poisonVal va false false 0) (fun s v => .next (s.result d.val (extend t.val v))))

/-- ST (R93, R94, R97). -/
def execSt (d : Fin 64) (h : Fin 16) (b : Fin 64) (t : Fin 16) (s : State) : Out :=
  let n := typeSize t.val
  withAddr s h.val (s.readS s.cur.slot b.val).toNat n 1 (fun a _ =>
    .next (((s.store (.core s.cur.slot) none a (toBytes n (s.readS s.cur.slot d.val).toNat)).noteOrd s.cur.slot).advance))

/-- The local address of LDL and STL (R96). -/
def State.localAddr (s : State) (a ty : Nat) (pre : Option Payload) (i : Nat) : Nat :=
  (s.readS s.cur.slot a + BitVec.ofInt 64 (extS pre 7 i * (typeSize ty : Int))).toNat

/-- The checks of LDL and STL, in their order (R96). -/
def withLocal (s : State) (a ty : Nat) (pre : Option Payload) (i : Nat) (go : Nat → Out) : Out :=
  let la := s.localAddr a ty pre i
  if la % typeSize ty ≠ 0 then trapOut s 0x06 la
  else if !s.spanHeld s.cur.slot la (typeSize ty) then trapOut s 0x04 la
  else go la

/-- LDL (R96). -/
def execLdl (d : Fin 64) (a : Fin 64) (t : Fin 8) (i : Fin 128) (pre : Option Payload) (s : State) : Out :=
  withLocal s a.val t.val pre i.val (fun la => blockOn (.ldl d.val la t.val) s)

/-- STL (R96, R97). -/
def execStl (d : Fin 64) (a : Fin 64) (t : Fin 8) (i : Fin 128) (pre : Option Payload) (s : State) : Out :=
  withLocal s a.val t.val pre i.val (fun la => blockOn (.stl d.val la t.val) s)

/-- LDF (R98, R99). -/
def execLdf (d : Fin 64) (h : Fin 16) (b : Fin 64) (s : State) : Out :=
  blockOn (.ldf d.val h.val (s.readS s.cur.slot b.val).toNat) s

/-- STF (R98): the flag is set at split; value and tag in one access, and what waited for the future may run. -/
def execStf (d : Fin 64) (h : Fin 16) (b : Fin 64) (s : State) : Out :=
  let sl := s.cur.slot
  let s0 := s.sideEffect sl 16
  withAddr s0 h.val (s.readS sl b.val).toNat 8 1 (fun a va =>
    if ((s.slot sl).readH h.val).bank then trapOut s0 0x0D va
    else .next (((((s0.store (.core sl) none a (toBytes 8 (s.readS sl d.val).toNat)).setFull a true).noteOrd sl).settleReady
      sl.part).advance))

/-- Whether the leaf of the page that holds an address has host bias (R413). -/
def State.hostBias (s : State) (sl : SlotId) (va : Nat) : Bool :=
  match s.pageOf sl va with
  | some p => p.bias
  | none => false

/-- An atomic (R101): f gives the new value from the old one and the operand, none where nothing is written. One of a
narrower scope than the host's acts towards the host as a read followed by a write (R102; log entry 14). -/
def atomicWord (f : Word → Word → Option Word) (d : Fin 64) (h : Fin 16) (b : Fin 64) (c : Fin 16) (s : State) : Out :=
  let sl := s.cur.slot
  let s0 := s.sideEffect sl 8
  withAddr s0 h.val (s.readS sl b.val).toNat 8 2 (fun a va =>
    if ((s.slot sl).readH h.val).bank then trapOut s0 0x0D va
    else coreRead (s0.showAt (.core sl) a 8) a 8 (poisonVal va false false 0) (fun s1 v =>
      let old := BitVec.ofNat 64 v
      let s2 := match f old (s.readS sl d.val) with
        | some x => ((s1.store (.core sl) none a (toBytes 8 x.toNat)).noteOrd sl).modSlot sl (fun u => { u with
            narrow := if c.val != 7 && c.val != 9 && s.hostBias sl va then some a else none })
        | none => s1
      .next (s2.result d.val old)))

/-- AADD (R101). -/
def execAadd (d : Fin 64) (h : Fin 16) (b : Fin 64) (c : Fin 16) (s : State) : Out :=
  atomicWord (fun o v => some (o + v)) d h b c s

/-- AAND (R101). -/
def execAand (d : Fin 64) (h : Fin 16) (b : Fin 64) (c : Fin 16) (s : State) : Out :=
  atomicWord (fun o v => some (o &&& v)) d h b c s

/-- AOR (R101). -/
def execAor (d : Fin 64) (h : Fin 16) (b : Fin 64) (c : Fin 16) (s : State) : Out :=
  atomicWord (fun o v => some (o ||| v)) d h b c s

/-- AXOR (R101). -/
def execAxor (d : Fin 64) (h : Fin 16) (b : Fin 64) (c : Fin 16) (s : State) : Out :=
  atomicWord (fun o v => some (o ^^^ v)) d h b c s

/-- AMIN (R101). -/
def execAmin (d : Fin 64) (h : Fin 16) (b : Fin 64) (c : Fin 16) (s : State) : Out :=
  atomicWord (fun o v => some (if o.toInt ≤ v.toInt then o else v)) d h b c s

/-- AMAX (R101). -/
def execAmax (d : Fin 64) (h : Fin 16) (b : Fin 64) (c : Fin 16) (s : State) : Out :=
  atomicWord (fun o v => some (if o.toInt ≤ v.toInt then v else o)) d h b c s

/-- ASWP (R101). -/
def execAswp (d : Fin 64) (h : Fin 16) (b : Fin 64) (c : Fin 16) (s : State) : Out :=
  atomicWord (fun _ v => some v) d h b c s

/-- ACAS (R101): nothing is written where the compare fails or the new value is the old one. -/
def execAcas (d : Fin 64) (h : Fin 16) (b : Fin 64) (c : Fin 16) (s : State) : Out :=
  let x := s.readS s.cur.slot (d.val + 1)
  atomicWord (fun o v => if o = v ∧ x ≠ o then some x else none) d h b c s

/-- Goes on where the slot may touch the CSR, or traps PRIV (R41, R66). -/
def withCsr (s : State) (n : Nat) (go : Out) : Out :=
  if csrPriv n && !(s.slot s.cur.slot).level then trapOut s 0x03 s.encoding else go

/-- The CSR number of a word (R103). -/
def csrNumber (c : Nat) (pre : Option Payload) : Nat := extU pre 1024 c

/-- CSRR (R103). -/
def execCsrr (d : Fin 64) (c : Fin 1024) (pre : Option Payload) (s : State) : Out :=
  let n := csrNumber c.val pre
  withCsr s n (.next (s.result d.val (BitVec.ofNat 64 (s.csrRead s.cur.slot n))))

/-- CSRW (R103, R104). -/
def execCsrw (a : Fin 64) (c : Fin 1024) (pre : Option Payload) (s : State) : Out :=
  let n := csrNumber c.val pre
  let v := s.readS s.cur.slot a.val
  withCsr s n (if csrWaits n then blockOn (.csr 0 n v false) s else .next ((s.csrWrite s.cur.slot n v.toNat).advance))

/-- CSRX (R103, R104): the old value is read before the write. -/
def execCsrx (d : Fin 64) (a : Fin 64) (c : Fin 1024) (pre : Option Payload) (s : State) : Out :=
  let n := csrNumber c.val pre
  let v := s.readS s.cur.slot a.val
  withCsr s n (if csrWaits n then blockOn (.csr d.val n v true) s
    else .next ((s.csrWrite s.cur.slot n v.toNat).result d.val (BitVec.ofNat 64 (s.csrRead s.cur.slot n))))

/-- PRD (R105). -/
def execPrd (d : Fin 64) (p : Fin 1024) (pre : Option Payload) (s : State) : Out :=
  blockOn (.prd d.val (extU pre 1024 p.val)) s

/-- VREAD (R106). -/
def execVread (d : Fin 64) (m : Fin 16) (b : Fin 64) (e : Fin 16) (s : State) : Out :=
  blockOn (.vread d.val m.val (s.readS s.cur.slot b.val).toNat e.val) s

end Sys2Proof.Machine
end

