-- ==== Sys2Proof/Machine/Sync.lean ====
section
/-!
DEFINITION. The S words (spec/04, R108 to R141): those that wait go through Machine/Waiting.lean.
-/

namespace Sys2Proof.Machine

/-! ## Events, traps and returns (R135, R139 to R141) -/

/-- NOP (R141). -/
def execNop (s : State) : Out := .next s.advance

/-- WFE (R141). -/
def execWfe (s : State) : Out := blockOn .wfe s

/-- SEV (R141): every slot of the tile, or of the gang. -/
def execSev (g : Fin 2) (s : State) : Out :=
  let sl := s.cur.slot
  let s1 := if g.val = 0 then
      (List.range 8).foldl (fun s i => if (s.slot ⟨sl.part, sl.tile, i⟩).task.isSome then s.setEv ⟨sl.part, sl.tile, i⟩ else s) s
    else match s.gangOf sl with
      | some gg => s.gangEv gg
      | none => s
  .next s1.advance

/-- YIELD (R135): every grant of the slot ends at the next entry boundary, charged in full. -/
def execYield (s : State) : Out :=
  let sl := s.cur.slot
  let held := [Engine.v, .m, .x, .d].filter (fun e => ((s.kiln sl.tileId e).grant.map (·.slot)) == some sl.slot)
  .next ((s.modSlot sl (fun v => { v with yield := held })).advance)

/-- A software trap (R139): TRAPPC is the address after the instruction, and a record holds the word there (R71). -/
def softTrap (cause i : Nat) (pre : Option Payload) (s : State) : Out :=
  let sl := s.cur.slot
  let pc := s.pc + BitVec.ofNat 64 s.len
  .next (s.takeTrap sl { cause := cause, val := extU pre 65536 i, word := (s.fetchOne sl pc.toNat).getD 0 } pc)

/-- TRAP (R139). -/
def execTrap (i : Fin 65536) (pre : Option Payload) (s : State) : Out := softTrap 0x11 i.val pre s

/-- SYSC (R139). -/
def execSysc (i : Fin 65536) (pre : Option Payload) (s : State) : Out := softTrap 0x10 i.val pre s

/-- A word for kernel level only (R66). -/
def privileged (s : State) (go : Out) : Out :=
  if (s.slot s.cur.slot).level then go else trapOut s 0x03 s.encoding

/-- A handler returns to the bundles that stood open when it was entered (log entry 91). -/
def Slot.backOut (v : Slot) : Slot :=
  match v.outer with
  | [] => v
  | (b, u) :: rest => { v with bundles := b, used := u, outer := rest }

/-- ERET (R139): back to TRAPPC at user level. -/
def execEret (s : State) : Out :=
  privileged s (
    let t := (s.slot s.cur.slot).csr.trappc
    if t.toNat % 4 ≠ 0 then trapOut s 0x06 t.toNat
    else .next (s.modSlot s.cur.slot (fun v => { v.backOut with level := false, pc := t })))

/-- HALT (R139): the task fails with cause 0x0E. -/
def execHalt (s : State) : Out :=
  privileged s (.next (s.startEnding s.cur.slot (.fail { cause := 0x0E, val := 0, word := s.cur.entry.word })))

/-- UIRET (R140): back to the shadow s63, out of handler mode. -/
def execUiret (s : State) : Out :=
  let v := s.slot s.cur.slot
  let t := mget v.regs.s 127 0
  if !v.csr.inh then trapOut s 0x01 s.encoding
  else if t.toNat % 4 ≠ 0 then trapOut s 0x06 t.toNat
  else .next (s.modSlot s.cur.slot (fun v => { v.backOut with csr := { v.csr with inh := false }, pc := t }))

/-- UIEN (R140). -/
def execUien (e : Fin 2) (_pre : Option Payload) (s : State) : Out :=
  .next ((s.modCsr s.cur.slot (fun c => { c with en := e.val == 1 })).advance)

/-! ## Waits (R112 to R116) -/

/-- WAITC (R112). -/
def execWaitc (d : Fin 64) (sel : Fin 64) (c : Fin 64) (t : Fin 16) (pre : Option Payload) (s : State) : Out :=
  blockOn (.waitc d.val sel.val (extU pre 64 c.val) t.val) s

/-- WAITF (R113). -/
def execWaitf (d : Fin 64) (c : Fin 2) (f : Fin 64) (t : Fin 16) (pre : Option Payload) (s : State) : Out :=
  blockOn (.waitf d.val (extU pre 64 f.val) t.val (c.val == 1)) s

/-- WAITB (R115). -/
def execWaitb (d : Fin 64) (sel : Fin 64) (c : Fin 2) (p : Fin 2) (t : Fin 16) (_pre : Option Payload) (s : State) : Out :=
  blockOn (.waitb d.val (s.readS s.cur.slot sel.val).toNat t.val p.val (c.val == 1)) s

/-- BARA (R116). -/
def execBara (d : Fin 64) (n : Fin 4) (s : State) : Out := blockOn (.bara d.val n.val) s

/-- BARW (R116). -/
def execBarw (d : Fin 64) (sel : Fin 64) (n : Fin 4) (t : Fin 16) (_pre : Option Payload) (s : State) : Out :=
  blockOn (.barw d.val (s.readS s.cur.slot sel.val).toNat n.val t.val) s

/-! ## Fences, records and publish (R117 to R121) -/

/-- FENCE (R117): the control core's own accesses perform as they execute, so it never waits. Kind i discards what was
fetched and not split, and what it orders before the slot's fetches is that of writers within its scope (R298). -/
def execFence (k : Fin 4) (sc : Fin 16) (_pre : Option Payload) (s : State) : Out :=
  let sl := s.cur.slot
  let s1 := if bitOf k.val 0 then (s.fenceM sl sc.val).fenceHost sl sc.val else s
  let s2 := if bitOf k.val 1 then s1.fenceI sl sc.val else s1
  .next s2.advance

/-- BFENCE (R119). -/
def execBfence (s : State) : Out := blockOn (.bfence none) s

/-- BFENCE_HANDLE (R119). -/
def execBfenceHandle (h : Fin 16) (s : State) : Out := blockOn (.bfence (some h.val)) s

/-- TRSYNC (R120). -/
def execTrsync (a : Fin 64) (_pre : Option Payload) (s : State) : Out :=
  blockOn (.trsync (some ((s.readS s.cur.slot a.val).toNat % 4096))) s

/-- TRSYNC_ALL (R120). -/
def execTrsyncAll (_pre : Option Payload) (s : State) : Out := blockOn (.trsync none) s

/-- PUB (R121). -/
def execPub (d : Fin 64) (a : Fin 64) (sc : Fin 16) (s : State) : Out :=
  blockOn (.pub d.val ((s.readS s.cur.slot a.val).toNat % 4096) sc.val) s

/-! ## Handles (R122, R123) -/

/-- The handle that an address of the handler area gives at kernel level (R70). -/
def State.handlerHandle (s : State) (sl : SlotId) (va : Nat) : Option Handle :=
  let off := va - 0x1FFFFFFB0000000
  let base := va / 0x10000 * 0x10000
  let h (w : Bool) : Handle :=
    { va := base, frame := handlerPhys sl.part base, size := 0, r := true, w := w, valid := true }
  if off < 0x800000 then (if s.hasHandler sl.part then some (h false) else none)
  else if off / 0x10000 == 0x100 + identity sl then some (h true)
  else none

/-- The handle that an address of the lease gives (R122): the range's rights. -/
def State.leaseHandle (s : State) (sl : SlotId) (va : Nat) : Option Handle :=
  match s.pageOf sl va, s.kernelOf sl with
  | some p, some k =>
    let rights := k.rangeRights p
    some { va := p.va, frame := p.frame, size := pageCode p.size, r := bitOf rights 0, w := bitOf rights 1,
           bank := bitOf rights 2, cls := p.cls, valid := true, sh := p.shadow }
  | _, _ => none

/-- What XLATE puts in a handle (R70, R122), if the address may be translated. -/
def State.xlate (s : State) (sl : SlotId) (va : Nat) : Option Handle :=
  if inHandlerArea va then (if (s.slot sl).level then s.handlerHandle sl va else none) else s.leaseHandle sl va

/-- XLATE (R122). -/
def execXlate (h : Fin 16) (a : Fin 64) (b : Fin 64) (s : State) : Out :=
  let sl := s.cur.slot
  let va := (s.readS sl a.val).toNat
  match s.xlate sl va with
  | none => trapOut s 0x04 va
  | some x => .next ((s.modSlot sl (fun v => v.writeH h.val x)).result b.val (BitVec.ofNat 64 (va - x.va)))

/-- HINV (R123). -/
def execHinv (h : Fin 16) (s : State) : Out :=
  .next ((s.modSlot s.cur.slot (fun v => v.writeH h.val { v.readH h.val with valid := false })).advance)

/-- HINV_ALL (R123): the sixteen that the names mean. -/
def execHinvAll (s : State) : Out :=
  .next ((s.modSlot s.cur.slot (fun v =>
    (List.range 16).foldl (fun v h => v.writeH h { v.readH h with valid := false }) v)).advance)

/-! ## Markers and bundles (R124, R125) -/

/-- Whether a slot may push into a queue of its own (R240, R255). -/
def State.mayPush (s : State) (sl : SlotId) (e : Engine) : Bool := s.grantedPush sl sl e

/-- Pushes an entry into a queue of the slot, into the reserve entry where it is full (R256). -/
def State.pushOwn (s : State) (sl : SlotId) (e : Engine) (x : Entry) : State :=
  s.push sl e { x with held := s.queueIsFull sl e }

/-- Splits a word that pushes entries into queues of its slot: it stalls while one of them is full (R58). -/
def splitPush (s : State) (xs : List (Engine × Entry)) : Out :=
  let sl := s.cur.slot
  match xs.find? (fun x => !s.mayPush sl x.1) with
  | some x => .next (s.stallOn sl sl x.1)
  | none =>
    let s1 := xs.foldl (fun s x => s.pushOwn sl x.1 x.2) s
    .next ((s1.modSlot sl (fun v => { v with stall := none })).advance)

/-- A marker word for one engine. -/
def markOne (e : Nat) (k : EntryKind) (s : State) : Out :=
  match Engine.ofCode e with
  | some eng => splitPush s [(eng, { kind := k, stamp := s.seqT })]
  | none => trapOut s 0x01 s.encoding

/-- KSET (R124). -/
def execKset (e : Fin 8) (n : Fin 8) (a : Fin 64) (i : Fin 1024) (pre : Option Payload) (s : State) : Out :=
  markOne e.val (.kset n.val ((s.readS s.cur.slot a.val + immS pre i.val).toNat % 2 ^ 32)) s

/-- XSET (R124). -/
def execXset (e : Fin 8) (n : Fin 8) (a : Fin 64) (b : Fin 64) (g : Fin 2) (l : Fin 4) (s : State) : Out :=
  markOne e.val (.xset n.val ((s.readS s.cur.slot a.val).toNat % 65536) ((s.readS s.cur.slot b.val).toNat % 65536)
    (if g.val = 1 then some l.val else none)) s

/-- The participants of LOOPB with their leads (R125). -/
def participants (xs : List (Nat × Nat)) : List (Engine × Nat) :=
  xs.filterMap (fun x => (Engine.ofCode x.1).map (fun e => (e, x.2)))

/-- Whether each engine keeps within 32 entries of its outermost open bundle after one more each (R125). -/
def Slot.bundleRoom (v : Slot) (es : List Engine) : Bool := es.all (fun e => decide (mget v.used e 0 < 32))

/-- Counts one more entry for each engine. -/
def Slot.useEntries (v : Slot) (es : List Engine) : Slot :=
  { v with used := es.foldl (fun u e => mmod u e 0 (· + 1)) v.used }

/-- LOOPB (R125): open markers in the participants' queues. -/
def execLoopb (e : Fin 8) (k : Fin 8) (f : Fin 8) (g : Fin 4) (h : Fin 8) (i : Fin 4) (j : Fin 8) (l : Fin 4)
    (_pre : Option Payload) (s : State) : Out :=
  let sl := s.cur.slot
  let v := s.slot sl
  let ps := participants [(e.val, l.val), (j.val, i.val), (h.val, g.val), (f.val, 0)]
  let es := ps.map (·.1)
  let nested := match v.bundles with
    | [] => true
    | b :: _ => es.all (fun x => (b.parts.map (·.1)).contains x)
  let deep := es.any (fun x => decide (4 ≤ ((v.bundles ++ v.outer.flatMap (·.1)).filter (fun b => (b.parts.map (·.1)).contains x)).length))
  if !nested || deep || !v.bundleRoom es then trapOut s 0x01 s.encoding
  else
    let id := v.nextBundle
    let opens := es.map (fun x => (x, ({ kind := .loopOpen k.val id, stamp := s.seqT } : Entry)))
    let s1 := s.modSlot sl (fun v =>
      { v.useEntries es with
        bundles := { id := id, parts := ps } :: v.bundles
        allBundles := mset v.allBundles id ps
        nextBundle := id + 1 })
    if opens.all (fun x => s.mayPush sl x.1) then splitPush s1 opens else splitPush s opens

/-- LOOPE (R125): close markers; with no bundle open it traps ILLEGAL. -/
def execLoope (s : State) : Out :=
  let sl := s.cur.slot
  let v := s.slot sl
  match v.bundles with
  | [] => trapOut s 0x01 s.encoding
  | b :: rest =>
    let es := b.parts.map (·.1)
    if !v.bundleRoom es then trapOut s 0x01 s.encoding
    else
      let closes := es.map (fun x => (x, ({ kind := .loopClose b.id, stamp := s.seqT } : Entry)))
      let s1 := s.modSlot sl (fun v =>
        { v.useEntries es with bundles := rest, used := if rest.isEmpty then [] else (v.useEntries es).used })
      if closes.all (fun x => s.mayPush sl x.1) then splitPush s1 closes else splitPush s closes

/-! ## Tasks and launches (R127 to R130, R374) -/

/-- TSPAWN (R127): one access to the block; a block whose state is new is spawned. -/
def execTspawn (d : Fin 64) (h : Fin 16) (b : Fin 64) (s : State) : Out :=
  let sl := s.cur.slot
  let s0 := s.sideEffect sl 32
  withAddr s0 h.val (s.readS sl b.val).toNat 128 2 (fun a va =>
    coreRead s0 a 128 (poisonVal va false false 0) (fun s1 _ =>
      let bytes := s1.readBytes (.core sl) a 128
      match (s1.slot sl).task, s1.kernelOf sl with
      | some t, some k =>
        if blockNum bytes 104 4 % 8 == 0 then .next ((s1.spawnTcb sl t k va bytes).result d.val 0)
        else .next (s1.result d.val 1)
      | _, _ => .next (s1.result d.val 1)))

/-- TDONE (R128). -/
def execTdone (s : State) : Out := blockOn .tdone s

/-- KLAUNCH (R374); a ring whose page names another class than its frames ends the task with OUTLEASE and is told (R281). -/
def execKlaunch (d : Fin 64) (h : Fin 16) (b : Fin 64) (q : Fin 8) (s : State) : Out :=
  let sl := s.cur.slot
  let s0 := s.sideEffect sl 32
  withAddr s0 h.val (s.readS sl b.val).toNat 64 0 (fun a va =>
    if ((s.slot sl).readH h.val).bank then trapOut s0 0x0D va
    else
      match s.kernelOf sl with
      | none => .next (s0.result d.val 1)
      | some k =>
        match s0.launchQueue k.fn k.ctx q.val with
        | none => .next (s0.result d.val 1)
        | some Q =>
          if !Q.en || !Q.feed || Q.tail - Q.head == 2 ^ Q.cap then .next (s0.result d.val 1)
          else if (s0.misclassAt k.fn (s0.ctx k.fn k.ctx).ptroot (Q.record Q.tail)).isSome then
            trapOut (s0.tellRefused k.part k.fn k.ctx (Q.record Q.tail)) 0x04 (Q.record Q.tail)
          else
            coreRead s0 a 64 (poisonVal va false false 0) (fun s1 _ =>
              .next (((s1.appendLaunch (.core sl) k.fn k.ctx Q (s1.readBytes (.core sl) a 64)).noteOrd sl).result d.val 0)))

/-- RENQ (R130). -/
def execRenq (d : Fin 64) (a : Fin 64) (b : Fin 64) (e : Fin 8) (s : State) : Out :=
  let sl := s.cur.slot
  let s0 := s.sideEffect sl 32
  let addr := (s.readS sl b.val).toNat
  if addr % 8 ≠ 0 then trapOut s0 0x06 addr
  else if !s0.spanHeld sl addr 8 then trapOut s0 0x04 addr
  else blockOn (.renq d.val ((s.readS sl a.val).toNat % 64) addr e.val) s0

/-! ## Queues, semaphores, futures, tickets (R131 to R134) -/

/-- The address of an object for a word that does not wait (R132). -/
def withObject (s : State) (h off size kind align : Nat) (go : Nat → Nat → Out) : Out :=
  match s.objectAddr s.cur.slot h off size kind align with
  | .trap c v => trapOut s c v
  | .hole a => .fault (.hole a)
  | .ok a va => go a va

/-- What a word that does not wait makes of one try. -/
def tryOut (s : State) : Try → Out
  | .fin t => .next t
  | .wait _ => .next s
  | .hole a => .fault (.hole a)

/-- The frame of a word that does not wait: where it goes on. -/
def State.noWait (s : State) : Wait :=
  { kind := .wfe, since := s.now, pc := s.pc, next := s.pc + BitVec.ofNat 64 s.len, stamp := s.seqT, word := s.firstWord }

/-- QINIT (R131). -/
def execQinit (h : Fin 16) (b : Fin 64) (c : Fin 16) (s : State) : Out :=
  let sl := s.cur.slot
  let s0 := s.sideEffect sl 8
  withObject s0 h.val (s.readS sl b.val).toNat 32 1 64 (fun a _ =>
    .next (((s0.store (.core sl) none a (toBytes 16 0 ++ toBytes 4 c.val ++ toBytes 4 noIdentity ++ toBytes 4 noIdentity)).noteOrd
      sl).advance))

/-- QPUSH (R132). -/
def execQpush (d : Fin 64) (h : Fin 16) (b : Fin 64) (s : State) : Out :=
  blockOn (.qpush d.val h.val (s.readS s.cur.slot b.val).toNat) (s.sideEffect s.cur.slot 32)

/-- QPOP (R132). -/
def execQpop (d : Fin 64) (h : Fin 16) (b : Fin 64) (s : State) : Out :=
  blockOn (.qpop d.val h.val (s.readS s.cur.slot b.val).toNat) (s.sideEffect s.cur.slot 8)

/-- QTRY_POP (R132). -/
def execQtryPop (d : Fin 64) (h : Fin 16) (b : Fin 64) (s : State) : Out :=
  let sl := s.cur.slot
  let s0 := s.sideEffect sl 8
  let off := (s.readS sl b.val).toNat
  let w := s0.noWait
  tryOut s0 (headerTry s0 sl h.val off 2 (fun s base head tail c _ cons =>
    if head == tail then finWith s sl w (d.val + 1) 1
    else popTry s sl h.val off base head c cons (fun s x => finWith (s.writeS sl d.val (BitVec.ofNat 64 x)) sl w (d.val + 1) 0)))

/-- QTRY_PUSH (R132). -/
def execQtryPush (d : Fin 64) (h : Fin 16) (b : Fin 64) (s : State) : Out :=
  let sl := s.cur.slot
  let s0 := s.sideEffect sl 32
  let off := (s.readS sl b.val).toNat
  let w := s0.noWait
  tryOut s0 (headerTry s0 sl h.val off 2 (fun s base head tail c prod _ =>
    if queueFull head tail c then finWith s sl w (d.val + 1) 1
    else pushTry s sl h.val off base head tail c prod (s.readS sl d.val) (fun s => finWith s sl w (d.val + 1) 0)))

/-- SEMW (R133). -/
def execSemw (d : Fin 64) (sel : Fin 64) (h : Fin 16) (t : Fin 16) (_pre : Option Payload) (s : State) : Out :=
  blockOn (.semw d.val h.val (s.readS s.cur.slot sel.val).toNat t.val) (s.sideEffect s.cur.slot 8)

/-- SEMP (R133). -/
def execSemp (h : Fin 16) (b : Fin 64) (s : State) : Out :=
  let sl := s.cur.slot
  let s0 := s.sideEffect sl 8
  withObject s0 h.val (s.readS sl b.val).toNat 16 2 8 (fun a va =>
    coreRead (s0.showAt (.core sl) a 8) a 8 (poisonVal va false false 0) (fun s1 v =>
      .next (((s1.store (.core sl) none a (toBytes 8 (v + 1))).noteOrd sl).advance)))

/-- FFILL (R134). -/
def execFfill (h : Fin 16) (b : Fin 64) (s : State) : Out :=
  let sl := s.cur.slot
  let s0 := s.sideEffect sl 16
  withObject s0 h.val (s.readS sl b.val).toNat 8 2 8 (fun a _ =>
    .next ((((s0.setFull a true).noteOrd sl).settleReady sl.part).advance))

/-- FCLR (R134): the owner is recorded. -/
def execFclr (d : Fin 64) (h : Fin 16) (b : Fin 64) (s : State) : Out :=
  let sl := s.cur.slot
  let s0 := s.sideEffect sl 8
  let owner := if d.val = 0 then identity sl else (s.readS sl d.val).toNat % 2 ^ 32
  withObject s0 h.val (s.readS sl b.val).toNat 8 2 8 (fun a _ =>
    .next ((((s0.store (.core sl) none a (toBytes 8 owner)).setFull a false).noteOrd sl).advance))

/-- TKSET (R133): the old tickets are written first; a revaluation follows (R305). -/
def execTkset (d : Fin 64) (a : Fin 64) (s : State) : Out :=
  let sl := s.cur.slot
  let n := min (s.readS sl a.val).toNat 65535
  let old := (s.slot sl).csr.tickets
  .next (((s.modCsr sl (fun c => { c with tickets := n })).revalue).result d.val (BitVec.ofNat 64 old))

/-- TKGET (R133). -/
def execTkget (d : Fin 64) (e : Fin 8) (k : Fin 16) (s : State) : Out :=
  let sl := s.cur.slot
  let eng := (Engine.ofCode e.val).getD .v
  .next (s.result d.val (BitVec.ofNat 64 (match k.val with
    | 0 => (s.slot sl).csr.tickets
    | 1 => s.baseValue sl
    | 2 => s.weight sl eng
    | 3 => (s.kiln sl.tileId eng).factorOf sl.slot
    | _ => min (s.loansOn sl eng) (2 ^ 24 - 1))))

/-! ## Regions and segments (R136 to R138) -/

/-- RALLOC (R136). -/
def execRalloc (d : Fin 64) (c : Fin 4) (_pre : Option Payload) (s : State) : Out := blockOn (.ralloc d.val c.val) s

/-- RFREE (R137). -/
def execRfree (k : Fin 16) (_pre : Option Payload) (s : State) : Out := blockOn (.rfree k.val) s

/-- RPIN (R137). -/
def execRpin (d : Fin 64) (k : Fin 16) (_pre : Option Payload) (s : State) : Out := blockOn (.rpin d.val k.val) s

/-- RUNPIN (R137). -/
def execRunpin (d : Fin 64) (k : Fin 16) (_pre : Option Payload) (s : State) : Out :=
  let sl := s.cur.slot
  if !s.holds sl k.val then .next (s.result d.val 2)
  else
    let s1 := if (s.region sl k.val).owner == some sl.slot then
        s.modTile sl.tileId (fun t => { t with regions := mmod t.regions k.val {} (fun r => { r with pinned := false }) })
      else s
    .next (s1.result d.val 0)

/-- Marks what the queues hold as outside the segment that begins now (R329). -/
def Slot.signAll (v : Slot) : Slot :=
  { v with seqs := v.seqs.map (fun (x : Engine × Sequencer) => (x.1, { x.2 with
      q := x.2.q.map (fun (e : Entry) => { e with signed := true, seg := false }) })) }

/-- SEGB (R138). -/
def execSegb (i : Fin 65536) (pre : Option Payload) (s : State) : Out :=
  .next ((s.modSlot s.cur.slot (fun v => { v.signAll with csr := { v.csr with
    segIdx := extU pre 65536 i.val
    segOpen := true
    segCrc := []
    segBeats := [] } })).advance)

/-- SEGE (R138, R330). -/
def execSege (i : Fin 65536) (pre : Option Payload) (s : State) : Out := blockOn (.sege (extU pre 65536 i.val)) s

end Sys2Proof.Machine
end

