-- ==== Sys2Proof/Machine/Vector.lean ====
section
/-!
DEFINITION. The V words (spec/05, R142 to R166): lane arithmetic, approximations, conversions, pack and unpack, logic,
compares, predicate logic, the mask stack, reductions, scans, movement, scratchpad access, loops and events.
-/

namespace Sys2Proof.Machine

/-- A lane word with one source (R145). -/
def lane1 (f : Nat → Nat × Nat) (d a x l : Nat) (s : State) : Out :=
  laneWord s .v [a] (some d) x (freed l a) (fun s v =>
    let r := v.map (fun i => f (v.at 0 i))
    (s, r.1, r.2))

/-- A lane word with two sources (R145). -/
def lane2 (f : Nat → Nat → Nat × Nat) (d a b x l : Nat) (s : State) : Out :=
  laneWord s .v [a, b] (some d) x (freed l a) (fun s v =>
    let r := v.map (fun i => f (v.at 0 i) (v.at 1 i))
    (s, r.1, r.2))

/-- A lane word whose destination is also its addend (R147). -/
def lane3 (f : Nat → Nat → Nat → Nat × Nat) (d a b x l : Nat) (s : State) : Out :=
  laneWord s .v [a, b, d] (some d) x (freed l a) (fun s v =>
    let r := v.map (fun i => f (v.at 0 i) (v.at 1 i) (v.at 2 i))
    (s, r.1, r.2))

/-- A lane operation on exact values, rounded RNE to FP32 (R146, R147). -/
def fp2 (f : Fl → Fl → Ex) (a b : Nat) : Nat × Nat := (f (decodeFl FP32 a) (decodeFl FP32 b)).rne32

/-- VABS and VNEG (R147): the sign changed, a NaN canonical. -/
def signOp (f : Nat → Nat) (a : Nat) : Nat × Nat :=
  match decodeFl FP32 a with
  | .nan sig => (FP32.canonNaN, if sig then fNV else 0)
  | _ => (f a, 0)

/-- An integer lane operation without flags. -/
def int2 (f : Nat → Nat → Nat) (a b : Nat) : Nat × Nat := (f a b, 0)

/-- VCVT with draws (R149): under .sr one draw for every lane from generator 1. -/
def convert (f : Nat → Nat → Nat × Nat) (rm d a x l : Nat) (s : State) : Out :=
  laneWord s .v [a] (some d) x (freed l a) (fun s v =>
    let ds := s.draws s.cur.slot 1 rm 32
    let r := v.map (fun i => f (v.at 0 i) (ds.1.getD i 0))
    (ds.2, r.1, r.2))

/-- Narrowing from FP32 (R28, R149). -/
def narrow (F : Fmt) (rm : Nat) (ieee : Bool) (a r : Nat) : Nat × Nat :=
  let x := decodeFl FP32 a
  (Ex.of x (sigFlag [x])).round F rm ieee r

/-- Widening to FP32, exact (R149). -/
def widen (F : Fmt) (a : Nat) : Nat × Nat :=
  let x := decodeFl F (a % 2 ^ F.bits)
  (Ex.of x (sigFlag [x])).rne32

/-- A compare (R152): bit l of the predicate for admitted lanes. -/
def compare (f : Nat → Nat → Bool × Nat) (d a b x : Nat) (s : State) : Out :=
  laneWord s .v [a, b] none x none (fun s v =>
    let r := v.map (fun i => let c := f (v.at 0 i) (v.at 1 i); (if c.1 then 1 else 0, c.2))
    let sl := s.cur.slot
    let old := (s.slot sl).readP d
    let new := (List.range 32).foldl (fun t i =>
      match r.1.getD i none with
      | some c => t + c * 2 ^ i
      | none => t + (if bitOf old.toNat i then 2 ^ i else 0)) 0
    (s.modSlot sl (fun y => y.writeP d (BitVec.ofNat 32 new)), [], r.2))

/-- A floating condition (R87, R152). -/
def cmpF (c : Nat) (a b : Nat) : Bool × Nat := fcmp c (decodeFl FP32 a) (decodeFl FP32 b)

/-- An integer condition. -/
def cmpI (f : Nat → Nat → Bool) (a b : Nat) : Bool × Nat := (f a b, 0)

/-- A predicate-logic word (R153). -/
def predWord (f : W32 → W32 → W32) (d a b z : Nat) (s : State) : Out :=
  let sl := s.cur.slot
  let v := f ((s.slot sl).readP a) ((s.slot sl).readP b)
  doneOut (s.modSlot sl (fun y => y.writeP d (if z == 1 then ~~~v else v)))

/-- A fault of the vector queue without a stream (R166). -/
def vecFault (s : State) (sub : Nat) : Out := .next (s.engineTrap s.cur.slot .v (fmtStream sub 0 1))

/-- A reduction (R156): the tree's result in lane 0, zero in the others, whatever the mask. -/
def reduce (f : Nat → Nat → Nat × Nat) (ident d a x l : Nat) (s : State) : Out :=
  laneWord s .v [a] (some d) x (freed l a) (fun s v =>
    let r := pairwise f 5 ((List.range 32).map (fun i => if bitOf v.mask i then v.at 0 i else ident))
    (s, (List.range 32).map (fun i => some (if i == 0 then r.1 else 0)), r.2))

/-- The max or min combination of a reduction (R156). -/
def redMinMax (isMax : Bool) (a b : Nat) : Nat × Nat := fp2 (minMaxFl isMax) a b

/-- One level of a scan (R157): lanes from 2^t on add the lane 2^t below. -/
def scanLevel (f : Nat → Nat → Nat × Nat) (t : Nat) (xs : List Nat) : List Nat × Nat :=
  let rs := (List.range 32).map (fun i =>
    if 2 ^ t ≤ i then f (xs.getD (i - 2 ^ t) 0) (xs.getD i 0) else (xs.getD i 0, 0))
  (rs.map (·.1), rs.foldl (fun a r => a ||| r.2) 0)

/-- A scan (R157): five levels. -/
def scan (f : Nat → Nat → Nat × Nat) (ident d a x l : Nat) (s : State) : Out :=
  laneWord s .v [a] (some d) x (freed l a) (fun s v =>
    let r := (List.range 5).foldl (fun (p : List Nat × Nat) t =>
        let q := scanLevel f t p.1
        (q.1, p.2 ||| q.2))
      ((List.range 32).map (fun i => if bitOf v.mask i then v.at 0 i else ident), 0)
    (s, (List.range 32).map (fun i => if bitOf v.mask i then some (r.1.getD i 0) else none), r.2))

/-- Adds as 32-bit integers. -/
def addI32 (a b : Nat) : Nat × Nat := ((a + b) % 2 ^ 32, 0)

/-- Identity of a floating addition: −0 leaves every value as it is (R35). -/
def negZero32 : Nat := 0x80000000

/-- A load of lanes from scratchpad (R159 to R161): addresses of the admitted lanes are checked, then read; a poisoned
segment is consumed; the lanes go to vd. -/
def loadLanes (srcs : List Nat) (addr : Lanes → Nat → Nat) (d x : Nat) (s : State) : Out :=
  let sl := s.cur.slot
  match (s.slot sl).gate s.cur.entry.stamp srcs (some d) with
  | .stall => stallOut s
  | .fault sub q => .next (s.engineTrap sl .v (fmtStream sub q 1))
  | .ok =>
    let xv := (s.slot sl).xval .v x
    let s0 := s.injectLines sl xv srcs
    let ls := (s0.slot sl).readLines xv [] srcs
    let go (s1 : State) : Out :=
      let v : Lanes := ⟨xv, (s1.slot sl).laneMask, ls.map (fun o => o.map (·.1))⟩
      let as := laneAddrs v.mask (addr v)
      match s1.badLane sl as with
      | some a => .next (s1.engineTrap sl .v { cause := 0x04, val := a, addr := a })
      | none =>
        if !s1.lanesResident sl as then stallOut (s1.wantLanes sl as)
        else
          let r := s1.readLanes sl (.eng sl .v) 1 as
          let put (s2 : State) : Out :=
            ((s2.takeStreams sl srcs).useRegs sl (regsOf srcs)).writeLine sl xv d (r.2.map (Option.map (·.1)))
              |>.finishLanes .v 0
          match badRead as r.2 with
          | some a => r.1.consumeEngine .v (poisonVal a false true 1) put
          | none => put r.1
    match firstBad ls with
    | some a => s0.consumeEngine .v (poisonVal a false true 1) go
    | none => go s0

/-- A store of lanes to scratchpad (R159 to R161). -/
def storeWord (srcs : List Nat) (addr : Lanes → Nat → Nat) (x l : Nat) (s : State) : Out :=
  let sl := s.cur.slot
  match (s.slot sl).gate s.cur.entry.stamp srcs none with
  | .stall => stallOut s
  | .fault sub q => .next (s.engineTrap sl .v (fmtStream sub q 1))
  | .ok =>
    let xv := (s.slot sl).xval .v x
    let s0 := s.injectLines sl xv srcs
    let ls := (s0.slot sl).readLines xv [] srcs
    let go (s1 : State) : Out :=
      let v : Lanes := ⟨xv, (s1.slot sl).laneMask, ls.map (fun o => o.map (·.1))⟩
      let as := laneAddrs v.mask (addr v)
      match s1.badLane sl as with
      | some a => .next (s1.engineTrap sl .v { cause := 0x04, val := a, addr := a })
      | none =>
        if !s1.lanesResident sl as then stallOut (s1.wantLanes sl as)
        else
          let s2 := (s1.takeStreams sl srcs).useRegs sl (regsOf srcs)
          let s3 := match freed l (srcs.headD 0) with | some m => s2.freeReg sl m | none => s2
          (s3.storeLanes sl (.eng sl .v) (as.zipIdx.filterMap (fun e => e.1.map (fun a => (a, v.at 0 e.2)))))
            |>.finishLanes .v 0
    match firstBad ls with
    | some a => s0.consumeEngine .v (poisonVal a false true 1) go
    | none => go s0

/-- Position of the close marker that ends n nested loops, searched from a position on; none where it has not been
queued yet. -/
def closeFrom : List Entry → Nat → Nat → Nat → Option Nat
  | [], _, _, _ => none
  | e :: es, i, depth, n =>
    match e.kind with
    | .loopOpen .. => closeFrom es (i + 1) (depth + 1) n
    | .loopClose _ =>
      if 0 < depth then closeFrom es (i + 1) (depth - 1) n
      else if n ≤ 1 then some i
      else closeFrom es (i + 1) 0 (n - 1)
    | _ => closeFrom es (i + 1) depth n

/-- The runs of bundles that some entries would begin, executed a number of times each (R126, R163): the k registers give
the trips of the loops among them. -/
def bodyRuns (k : Map Nat Nat) : List Entry → List Nat → Map Nat Nat → Map Nat Nat
  | [], _, m => m
  | e :: es, ns, m =>
    let n := ns.headD 0
    match e.kind with
    | .loopOpen r b => bodyRuns k es (n * mget k r 0 :: ns) (mmod m b 0 (· + n))
    | .loopClose _ => bodyRuns k es ns.tail m
    | _ => bodyRuns k es ns m

/-- The runs of bundles after some loops, innermost first, have been left from a queue position on (R163): what remains
of the iteration there, the iterations after it, and the run itself count as completed. -/
def Sequencer.leftRuns (q : Sequencer) : List Loop → Nat → Map Nat Nat → Map Nat Nat
  | [], _, m => m
  | l :: ls, i, m =>
    let c := (closeFrom (q.q.drop i) i 0 1).getD i
    let m1 := bodyRuns q.k ((q.q.take c).drop i) [1] m
    let m2 := bodyRuns q.k ((q.q.take c).drop l.start) [l.count - 1] m1
    q.leftRuns ls (c + 1) (mmod m2 l.bundle 0 (· + 1))

/-- Leaves n loops (R163): their index registers stay; their remaining iterations count as completed, and with them every
run of the bundles nested in them. -/
def Sequencer.leave (q : Sequencer) (n at_ : Nat) : Sequencer :=
  { q with
    loops := q.loops.drop n
    runs := q.leftRuns (q.loops.take n) (q.pos + 1) q.runs
    pos := at_ + 1 }

/-- VADD (R147). -/
def execVadd (d : Fin 64) (a : Fin 64) (b : Fin 64) (x : Fin 8) (l : Fin 2) (s : State) : Out :=
  lane2 (fp2 (addFl 0)) d.val a.val b.val x.val l.val s

/-- VSUB (R147). -/
def execVsub (d : Fin 64) (a : Fin 64) (b : Fin 64) (x : Fin 8) (l : Fin 2) (s : State) : Out :=
  lane2 (fp2 (fun a b => addFl 0 a b.negate)) d.val a.val b.val x.val l.val s

/-- VMUL (R147). -/
def execVmul (d : Fin 64) (a : Fin 64) (b : Fin 64) (x : Fin 8) (l : Fin 2) (s : State) : Out :=
  lane2 (fp2 mulFl) d.val a.val b.val x.val l.val s

/-- VDIV (R147). -/
def execVdiv (d : Fin 64) (a : Fin 64) (b : Fin 64) (x : Fin 8) (l : Fin 2) (s : State) : Out :=
  lane2 (fp2 divFl) d.val a.val b.val x.val l.val s

/-- VMIN (R147). -/
def execVmin (d : Fin 64) (a : Fin 64) (b : Fin 64) (x : Fin 8) (l : Fin 2) (s : State) : Out :=
  lane2 (fp2 (minMaxFl false)) d.val a.val b.val x.val l.val s

/-- VMAX (R147). -/
def execVmax (d : Fin 64) (a : Fin 64) (b : Fin 64) (x : Fin 8) (l : Fin 2) (s : State) : Out :=
  lane2 (fp2 (minMaxFl true)) d.val a.val b.val x.val l.val s

/-- VABS (R147). -/
def execVabs (d : Fin 64) (a : Fin 64) (x : Fin 8) (l : Fin 2) (s : State) : Out :=
  lane1 (signOp (· % 2 ^ 31)) d.val a.val x.val l.val s

/-- VNEG (R147). -/
def execVneg (d : Fin 64) (a : Fin 64) (x : Fin 8) (l : Fin 2) (s : State) : Out :=
  lane1 (signOp (fun a => a ^^^ 2 ^ 31)) d.val a.val x.val l.val s

/-- VFMA (R147). -/
def execVfma (d : Fin 64) (a : Fin 64) (b : Fin 64) (x : Fin 8) (l : Fin 2) (s : State) : Out :=
  lane3 (fun a b c => (fmaFl 0 (decodeFl FP32 a) (decodeFl FP32 b) (decodeFl FP32 c)).rne32)
    d.val a.val b.val x.val l.val s

/-- VFMS (R147). -/
def execVfms (d : Fin 64) (a : Fin 64) (b : Fin 64) (x : Fin 8) (l : Fin 2) (s : State) : Out :=
  lane3 (fun a b c => (fmaFl 0 (decodeFl FP32 a).negate (decodeFl FP32 b) (decodeFl FP32 c)).rne32)
    d.val a.val b.val x.val l.val s

/-- VRCPA (R148). -/
def execVrcpa (d : Fin 64) (a : Fin 64) (x : Fin 8) (l : Fin 2) (s : State) : Out :=
  lane1 (fun a => rcpa (decodeFl FP32 a)) d.val a.val x.val l.val s

/-- VRSQA (R148). -/
def execVrsqa (d : Fin 64) (a : Fin 64) (x : Fin 8) (l : Fin 2) (s : State) : Out :=
  lane1 (fun a => rsqa (decodeFl FP32 a)) d.val a.val x.val l.val s

/-- VEXP2A (R148). -/
def execVexp2a (d : Fin 64) (a : Fin 64) (x : Fin 8) (l : Fin 2) (s : State) : Out :=
  lane1 (fun a => exp2a (decodeFl FP32 a)) d.val a.val x.val l.val s

/-- VLOG2A (R148). -/
def execVlog2a (d : Fin 64) (a : Fin 64) (x : Fin 8) (l : Fin 2) (s : State) : Out :=
  lane1 (fun a => log2a (decodeFl FP32 a)) d.val a.val x.val l.val s

/-- VIADD (R147). -/
def execViadd (d : Fin 64) (a : Fin 64) (b : Fin 64) (x : Fin 8) (l : Fin 2) (s : State) : Out :=
  lane2 addI32 d.val a.val b.val x.val l.val s

/-- VISUB (R147). -/
def execVisub (d : Fin 64) (a : Fin 64) (b : Fin 64) (x : Fin 8) (l : Fin 2) (s : State) : Out :=
  lane2 (int2 (fun a b => (a + 2 ^ 32 - b) % 2 ^ 32)) d.val a.val b.val x.val l.val s

/-- VIMUL (R147). -/
def execVimul (d : Fin 64) (a : Fin 64) (b : Fin 64) (x : Fin 8) (l : Fin 2) (s : State) : Out :=
  lane2 (int2 (fun a b => a * b % 2 ^ 32)) d.val a.val b.val x.val l.val s

/-- VIMIN (R147). -/
def execVimin (d : Fin 64) (a : Fin 64) (b : Fin 64) (x : Fin 8) (l : Fin 2) (s : State) : Out :=
  lane2 (int2 (fun a b => if toSigned 32 a ≤ toSigned 32 b then a else b)) d.val a.val b.val x.val l.val s

/-- VIMAX (R147). -/
def execVimax (d : Fin 64) (a : Fin 64) (b : Fin 64) (x : Fin 8) (l : Fin 2) (s : State) : Out :=
  lane2 (int2 (fun a b => if toSigned 32 a ≤ toSigned 32 b then b else a)) d.val a.val b.val x.val l.val s

/-- VNMIN (R147). -/
def execVnmin (d : Fin 64) (a : Fin 64) (b : Fin 64) (x : Fin 8) (l : Fin 2) (s : State) : Out :=
  lane2 (int2 Nat.min) d.val a.val b.val x.val l.val s

/-- VNMAX (R147). -/
def execVnmax (d : Fin 64) (a : Fin 64) (b : Fin 64) (x : Fin 8) (l : Fin 2) (s : State) : Out :=
  lane2 (int2 Nat.max) d.val a.val b.val x.val l.val s

/-- VIADDS (R147). -/
def execViadds (d : Fin 64) (a : Fin 64) (b : Fin 64) (x : Fin 8) (l : Fin 2) (s : State) : Out :=
  lane2 (fun a b => satInt 32 true (toSigned 32 a + toSigned 32 b)) d.val a.val b.val x.val l.val s

/-- VNADDS (R147). -/
def execVnadds (d : Fin 64) (a : Fin 64) (b : Fin 64) (x : Fin 8) (l : Fin 2) (s : State) : Out :=
  lane2 (fun a b => satInt 32 false ((a + b : Nat) : Int)) d.val a.val b.val x.val l.val s

/-- VAND (R151). -/
def execVand (d : Fin 64) (a : Fin 64) (b : Fin 64) (x : Fin 8) (l : Fin 2) (s : State) : Out :=
  lane2 (int2 (· &&& ·)) d.val a.val b.val x.val l.val s

/-- VOR (R151). -/
def execVor (d : Fin 64) (a : Fin 64) (b : Fin 64) (x : Fin 8) (l : Fin 2) (s : State) : Out :=
  lane2 (int2 (· ||| ·)) d.val a.val b.val x.val l.val s

/-- VXOR (R151). -/
def execVxor (d : Fin 64) (a : Fin 64) (b : Fin 64) (x : Fin 8) (l : Fin 2) (s : State) : Out :=
  lane2 (int2 (· ^^^ ·)) d.val a.val b.val x.val l.val s

/-- VNOT (R151). -/
def execVnot (d : Fin 64) (a : Fin 64) (x : Fin 8) (l : Fin 2) (s : State) : Out :=
  lane1 (fun a => (2 ^ 32 - 1 - a % 2 ^ 32, 0)) d.val a.val x.val l.val s

/-- VSLL (R151). -/
def execVsll (d : Fin 64) (a : Fin 64) (b : Fin 64) (x : Fin 8) (l : Fin 2) (s : State) : Out :=
  lane2 (int2 (fun a b => a * 2 ^ (b % 32) % 2 ^ 32)) d.val a.val b.val x.val l.val s

/-- VSRL (R151). -/
def execVsrl (d : Fin 64) (a : Fin 64) (b : Fin 64) (x : Fin 8) (l : Fin 2) (s : State) : Out :=
  lane2 (int2 (fun a b => a / 2 ^ (b % 32))) d.val a.val b.val x.val l.val s

/-- VSRA (R151). -/
def execVsra (d : Fin 64) (a : Fin 64) (b : Fin 64) (x : Fin 8) (l : Fin 2) (s : State) : Out :=
  lane2 (int2 (fun a b => wrapTo 32 (toSigned 32 a / 2 ^ (b % 32)))) d.val a.val b.val x.val l.val s

/-- VPACK (R150). -/
def execVpack (d : Fin 64) (a : Fin 64) (b : Fin 64) (x : Fin 8) (l : Fin 2) (s : State) : Out :=
  laneWord s .v [a.val, b.val] (some d.val) x.val (freed l.val a.val) (fun s v =>
    let r := v.map (fun i => (v.at (i / 16) (2 * (i % 16)) % 2 ^ 16 + 2 ^ 16 * (v.at (i / 16) (2 * (i % 16) + 1) % 2 ^ 16), 0))
    (s, r.1, r.2))

/-- VUNPK (R150). -/
def execVunpk (d : Fin 64) (a : Fin 64) (s_ : Fin 2) (h : Fin 2) (x : Fin 8) (l : Fin 2) (s : State) : Out :=
  laneWord s .v [a.val] (some d.val) x.val (freed l.val a.val) (fun s v =>
    let r := v.map (fun i =>
      let w := v.at 0 (16 * h.val + i / 2) / 2 ^ (16 * (i % 2)) % 2 ^ 16
      (if s_.val == 1 then wrapTo 32 (toSigned 16 w) else w, 0))
    (s, r.1, r.2))

/-- VCVT (R149). -/
def execVcvtF16F32 (d : Fin 64) (a : Fin 64) (r : Fin 8) (i : Fin 2) (x : Fin 8) (l : Fin 2) (s : State) : Out :=
  convert (narrow FP16 r.val (i.val == 1)) r.val d.val a.val x.val l.val s

/-- VCVT (R149). -/
def execVcvtBf16F32 (d : Fin 64) (a : Fin 64) (r : Fin 8) (i : Fin 2) (x : Fin 8) (l : Fin 2) (s : State) : Out :=
  convert (narrow BF16 r.val (i.val == 1)) r.val d.val a.val x.val l.val s

/-- VCVT (R149). -/
def execVcvtE4m3F32 (d : Fin 64) (a : Fin 64) (r : Fin 8) (i : Fin 2) (x : Fin 8) (l : Fin 2) (s : State) : Out :=
  convert (narrow E4M3 r.val (i.val == 1)) r.val d.val a.val x.val l.val s

/-- VCVT (R149). -/
def execVcvtE5m2F32 (d : Fin 64) (a : Fin 64) (r : Fin 8) (i : Fin 2) (x : Fin 8) (l : Fin 2) (s : State) : Out :=
  convert (narrow E5M2 r.val (i.val == 1)) r.val d.val a.val x.val l.val s

/-- VCVT (R149). -/
def execVcvtF32F16 (d : Fin 64) (a : Fin 64) (x : Fin 8) (l : Fin 2) (s : State) : Out :=
  lane1 (widen FP16) d.val a.val x.val l.val s

/-- VCVT (R149). -/
def execVcvtF32Bf16 (d : Fin 64) (a : Fin 64) (x : Fin 8) (l : Fin 2) (s : State) : Out :=
  lane1 (widen BF16) d.val a.val x.val l.val s

/-- VCVT (R149). -/
def execVcvtF32E4m3 (d : Fin 64) (a : Fin 64) (x : Fin 8) (l : Fin 2) (s : State) : Out :=
  lane1 (widen E4M3) d.val a.val x.val l.val s

/-- VCVT (R149). -/
def execVcvtF32E5m2 (d : Fin 64) (a : Fin 64) (x : Fin 8) (l : Fin 2) (s : State) : Out :=
  lane1 (widen E5M2) d.val a.val x.val l.val s

/-- VCVT (R149). -/
def execVcvtI32F32 (d : Fin 64) (a : Fin 64) (r : Fin 8) (x : Fin 8) (l : Fin 2) (s : State) : Out :=
  convert (fun v q => floatToInt (decodeFl FP32 v) 32 true r.val q) r.val d.val a.val x.val l.val s

/-- VCVT (R149). -/
def execVcvtN32F32 (d : Fin 64) (a : Fin 64) (r : Fin 8) (x : Fin 8) (l : Fin 2) (s : State) : Out :=
  convert (fun v q => floatToInt (decodeFl FP32 v) 32 false r.val q) r.val d.val a.val x.val l.val s

/-- VCVT (R149). -/
def execVcvtF32I32 (d : Fin 64) (a : Fin 64) (r : Fin 8) (x : Fin 8) (l : Fin 2) (s : State) : Out :=
  convert (fun v q => roundTo FP32 r.val true q (Fl.ofInt (toSigned 32 v)) 1) r.val d.val a.val x.val l.val s

/-- VCVT (R149). -/
def execVcvtF32N32 (d : Fin 64) (a : Fin 64) (r : Fin 8) (x : Fin 8) (l : Fin 2) (s : State) : Out :=
  convert (fun v q => roundTo FP32 r.val true q (Fl.ofInt (v : Int)) 1) r.val d.val a.val x.val l.val s

/-- VCMP (R152). -/
def execVcmpEqF32 (d : Fin 128) (a : Fin 64) (b : Fin 64) (x : Fin 8) (s : State) : Out :=
  compare (cmpF 0) d.val a.val b.val x.val s

/-- VCMP (R152). -/
def execVcmpNeF32 (d : Fin 128) (a : Fin 64) (b : Fin 64) (x : Fin 8) (s : State) : Out :=
  compare (cmpF 1) d.val a.val b.val x.val s

/-- VCMP (R152). -/
def execVcmpLtF32 (d : Fin 128) (a : Fin 64) (b : Fin 64) (x : Fin 8) (s : State) : Out :=
  compare (cmpF 2) d.val a.val b.val x.val s

/-- VCMP (R152). -/
def execVcmpLeF32 (d : Fin 128) (a : Fin 64) (b : Fin 64) (x : Fin 8) (s : State) : Out :=
  compare (cmpF 3) d.val a.val b.val x.val s

/-- VCMP (R152). -/
def execVcmpEqI32 (d : Fin 128) (a : Fin 64) (b : Fin 64) (x : Fin 8) (s : State) : Out :=
  compare (cmpI (fun a b => a == b)) d.val a.val b.val x.val s

/-- VCMP (R152). -/
def execVcmpLtI32 (d : Fin 128) (a : Fin 64) (b : Fin 64) (x : Fin 8) (s : State) : Out :=
  compare (cmpI (fun a b => decide (toSigned 32 a < toSigned 32 b))) d.val a.val b.val x.val s

/-- VCMP (R152). -/
def execVcmpLeI32 (d : Fin 128) (a : Fin 64) (b : Fin 64) (x : Fin 8) (s : State) : Out :=
  compare (cmpI (fun a b => decide (toSigned 32 a ≤ toSigned 32 b))) d.val a.val b.val x.val s

/-- VCMP (R152). -/
def execVcmpLtN32 (d : Fin 128) (a : Fin 64) (b : Fin 64) (x : Fin 8) (s : State) : Out :=
  compare (cmpI (fun a b => decide (a < b))) d.val a.val b.val x.val s

/-- VCMP (R152). -/
def execVcmpLeN32 (d : Fin 128) (a : Fin 64) (b : Fin 64) (x : Fin 8) (s : State) : Out :=
  compare (cmpI (fun a b => decide (a ≤ b))) d.val a.val b.val x.val s

/-- VPAND (R153). -/
def execVpand (d : Fin 128) (a : Fin 128) (b : Fin 128) (z : Fin 2) (s : State) : Out :=
  predWord (· &&& ·) d.val a.val b.val z.val s

/-- VPOR (R153). -/
def execVpor (d : Fin 128) (a : Fin 128) (b : Fin 128) (z : Fin 2) (s : State) : Out :=
  predWord (· ||| ·) d.val a.val b.val z.val s

/-- VPXOR (R153). -/
def execVpxor (d : Fin 128) (a : Fin 128) (b : Fin 128) (z : Fin 2) (s : State) : Out :=
  predWord (· ^^^ ·) d.val a.val b.val z.val s

/-- VPANDN (R153). -/
def execVpandn (d : Fin 128) (a : Fin 128) (b : Fin 128) (z : Fin 2) (s : State) : Out :=
  predWord (fun x y => x &&& ~~~y) d.val a.val b.val z.val s

/-- VPSEL (R153). -/
def execVpsel (a : Fin 128) (s : State) : Out :=
  doneOut (s.modRegs s.cur.slot (fun r => { r with g := a.val }))

/-- VMPUSH (R154). -/
def execVmpush (a : Fin 128) (z : Fin 2) (s : State) : Out :=
  let r := (s.slot s.cur.slot).regs
  let p := (s.slot s.cur.slot).readP a.val
  if 8 ≤ r.mask.length then vecFault s 4
  else doneOut (s.modRegs s.cur.slot (fun r =>
    { r with mask := (r.maskTop &&& (if z.val == 1 then ~~~p else p)) :: r.mask }))

/-- VMINV (R154). -/
def execVminv (s : State) : Out :=
  match (s.slot s.cur.slot).regs.mask with
  | [] => vecFault s 5
  | t :: below => doneOut (s.modRegs s.cur.slot (fun r =>
      { r with mask := (below.headD 0xFFFFFFFF#32 &&& ~~~t) :: below }))

/-- VMPOP (R154). -/
def execVmpop (s : State) : Out :=
  match (s.slot s.cur.slot).regs.mask with
  | [] => vecFault s 5
  | _ :: below => doneOut (s.modRegs s.cur.slot (fun r => { r with mask := below }))

/-- VSKIPZ (R155). -/
def execVskipz (n : Fin 65536) (pre : Option Payload) (s : State) : Out :=
  if (s.slot s.cur.slot).regs.mask.head? == some 0#32 then
    doneOut (s.modSeq s.cur.slot .v (fun q => { q with skip := extU pre 65536 n.val }))
  else doneOut s

/-- VRED (R156). -/
def execVredAddF32 (d : Fin 64) (a : Fin 64) (x : Fin 8) (l : Fin 2) (s : State) : Out :=
  reduce addRne32 negZero32 d.val a.val x.val l.val s

/-- VRED (R156). -/
def execVredMaxF32 (d : Fin 64) (a : Fin 64) (x : Fin 8) (l : Fin 2) (s : State) : Out :=
  reduce (redMinMax true) 0xFF800000 d.val a.val x.val l.val s

/-- VRED (R156). -/
def execVredMinF32 (d : Fin 64) (a : Fin 64) (x : Fin 8) (l : Fin 2) (s : State) : Out :=
  reduce (redMinMax false) 0x7F800000 d.val a.val x.val l.val s

/-- VRED (R156). -/
def execVredAddI32 (d : Fin 64) (a : Fin 64) (x : Fin 8) (l : Fin 2) (s : State) : Out :=
  reduce addI32 0 d.val a.val x.val l.val s

/-- VSCAN (R157). -/
def execVscanAddF32 (d : Fin 64) (a : Fin 64) (x : Fin 8) (l : Fin 2) (s : State) : Out :=
  scan addRne32 negZero32 d.val a.val x.val l.val s

/-- VSCAN (R157). -/
def execVscanAddI32 (d : Fin 64) (a : Fin 64) (x : Fin 8) (l : Fin 2) (s : State) : Out :=
  scan addI32 0 d.val a.val x.val l.val s

/-- VPERM (R158). -/
def execVperm (d : Fin 64) (a : Fin 64) (b : Fin 64) (x : Fin 8) (l : Fin 2) (s : State) : Out :=
  laneWord s .v [a.val, b.val] (some d.val) x.val (freed l.val a.val) (fun s v =>
    let r := v.map (fun i => (v.at 0 (v.at 1 i % 32), 0))
    (s, r.1, r.2))

/-- VBCST (R158). -/
def execVbcst (d : Fin 64) (a : Fin 64) (x : Fin 8) (s : State) : Out :=
  laneWord s .v [] (some d.val) x.val none (fun s v =>
    let r := v.map (fun _ => (s.cur.entry.cap1.toNat % 2 ^ 32, 0))
    (s, r.1, r.2))

/-- VMOV (R158). -/
def execVmov (d : Fin 64) (a : Fin 64) (x : Fin 8) (l : Fin 2) (s : State) : Out :=
  lane1 (fun a => (a, 0)) d.val a.val x.val l.val s

/-- VTRN (R158). -/
def execVtrn (d : Fin 16) (a : Fin 16) (l : Fin 2) (s : State) : Out :=
  let sl := s.cur.slot
  let s0 := s.injectM sl a.val (List.range 1024)
  let old := (s0.slot sl).regs
  let go (s1 : State) : Out :=
    let s2 := s1.useRegs sl [a.val]
    let s3 := if l.val == 1 then s2.freeReg sl a.val else s2
    (s3.writeM sl d.val ((List.range 1024).map (fun e => (e, old.el a.val (32 * (e % 32) + e / 32))))).finishLanes .v 0
  match (List.range 1024).find? (fun e => old.elBad a.val e) with
  | some e => s0.consumeEngine .v (poisonVal (elAddr a.val e) false true 1) go
  | none => go s0

/-- VIDX (R158). -/
def execVidx (d : Fin 64) (x : Fin 8) (s : State) : Out :=
  laneWord s .v [] (some d.val) x.val none (fun s v =>
    let r := v.map (fun i => ((v.xv + i) % 2 ^ 32, 0))
    (s, r.1, r.2))

/-- VFREE (R162). -/
def execVfree (d : Fin 16) (s : State) : Out :=
  doneOut (s.freeReg s.cur.slot d.val)

/-- VLD (R159). -/
def execVld (d : Fin 64) (a : Fin 64) (o : Fin 64) (x : Fin 8) (s : State) : Out :=
  loadLanes [] (fun v i =>
    wrapTo 64 ((s.cur.entry.cap1.toNat : Int) + 128 * (toSigned 6 o.val + (v.xv : Int)) + 4 * (i : Int))) d.val x.val s

/-- VST (R159). -/
def execVst (d : Fin 64) (a : Fin 64) (o : Fin 64) (x : Fin 8) (l : Fin 2) (s : State) : Out :=
  storeWord [a.val] (fun v i =>
    wrapTo 64 ((s.cur.entry.cap1.toNat : Int) + 128 * (toSigned 6 o.val + (v.xv : Int)) + 4 * (i : Int))) x.val l.val s

/-- VGTH (R159). -/
def execVgth (d : Fin 64) (a : Fin 64) (b : Fin 64) (x : Fin 8) (s : State) : Out :=
  loadLanes [b.val] (fun v i => s.cur.entry.cap1.toNat + 4 * v.at 0 i) d.val x.val s

/-- Changes a stream of a slot, if it is bound. -/
def State.modStream (s : State) (sl : SlotId) (q : Nat) (f : Stream → Stream) : State :=
  s.modRegs sl (fun r => match mfind r.streams q with
    | some t => { r with streams := mset r.streams q (f t) }
    | none => r)

/-- Runs a word with a write-stream as a source, which only VSCT may have (R161; log entry 93): for the word, the stream gives
the elements that stand at its next 32 positions. -/
def withWriteStream (q : Nat) (word : State → Out) (s : State) : Out :=
  let sl := s.cur.slot
  match mfind (s.slot sl).regs.streams q with
  | none => word s
  | some t =>
    if !t.write || ((s.slot sl).seq .x).bindsStream q s.cur.entry.stamp then word s
    else
      let as := if t.next + 32 ≤ t.count then (List.range 32).map (fun i => some (t.addr (t.next + i))) else []
      match s.badLane sl as with
      | some a => .next (s.engineTrap sl .v { cause := 0x04, val := a, addr := a })
      | none =>
        if !s.lanesResident sl as then stallOut (s.wantLanes sl as)
        else
          let r := s.readLanes sl (.eng sl .v) 1 as
          let els := r.2.map (fun e => let x := e.getD (0, false); (BitVec.ofNat 32 x.1, x.2))
          match word (r.1.modStream sl q (fun t => { t with write := false, filled := els })) with
          | .next u => .next (u.modStream sl q (fun t => { t with write := true, filled := [] }))
          | o => o

/-- VSCT (R159, R161). -/
def execVsct (d : Fin 64) (a : Fin 64) (b : Fin 64) (x : Fin 8) (l : Fin 2) (s : State) : Out :=
  let word := storeWord [a.val, b.val] (fun v i => s.cur.entry.cap1.toNat + 4 * v.at 1 i) x.val l.val
  if isStream a.val && a.val != b.val then withWriteStream (opReg a.val) word s else word s

/-- VBRK (R163). A word that RENQ pushed may name more loops than are open: it leaves those. -/
def execVbrk (a : Fin 2) (n : Fin 4) (pre : Option Payload) (s : State) : Out :=
  let sl := s.cur.slot
  let q := (s.slot sl).seq .v
  if a.val == 1 || (s.slot sl).regs.mask.head? == some 0#32 then
    let k := min (n.val + 1) q.loops.length
    if k == 0 then doneOut s
    else match closeFrom (q.q.drop (q.pos + 1)) (q.pos + 1) 0 k with
    | none => stallOut s
    | some i => .next { (s.signRun sl .v (q.pos + 1) (i - q.pos)).modSeq sl .v (fun q => q.leave k i) with
        cur := { s.cur with status := .moved } }
  else doneOut s

/-- ESETV (R164). -/
def execEsetV (f : Fin 16) (s : State) : Out :=
  esetWord f.val (s.slot s.cur.slot).drained s

/-- EWAITV (R164). -/
def execEwaitV (f : Fin 16) (s : State) : Out :=
  ewaitWord .v f.val s

end Sys2Proof.Machine
end

