-- ==== Sys2Proof/Machine/Sequence.lean ====
section
/-!
DEFINITION. Fetching and splitting (R42, R55 to R58, R66), markers and loops (R124 to R126, R242), blocks (R130, R205),
and one turn of a queued engine (R241, R308, R309).
-/

namespace Sys2Proof.Machine

/-! ## Fetch (R42, R45, R298) -/

/-- Outcome of fetching the words of one instruction. -/
inductive Fetched where
  | out (va : Nat)
  | word (w : Nat) (pre : Option Nat)
  deriving DecidableEq, Repr

/-- The words at the PC: a prefix with its word, or one word (R55). -/
def State.fetch (s : State) (sl : SlotId) : Fetched :=
  let a := (s.slot sl).pc.toNat
  match s.fetchOne sl a with
  | none => .out a
  | some w =>
    if field w 29 3 == 7 then
      match s.fetchOne sl (a + 4) with
      | none => .out (a + 4)
      | some w2 => .word w2 (some (w % 2 ^ 29))
    else .word w none

/-! ## CheckEncoding (R66) -/

/-- What a word is found to be before any effect. -/
inductive Checked where
  | trap (cause : Nat)
  | ok (i : Instr)
  deriving DecidableEq, Repr

/-- A payload as a number of 29 bits. -/
def payloadOf (p : Nat) : Payload := ⟨p % 536870912, Nat.mod_lt _ (by decide)⟩

/-- Whether the second test of R66 fails: a word that names the engine of an absent or unaccepted feature. -/
def State.absentFeature (s : State) (w : Nat) : Bool :=
  (neededFeatures w).any (fun c => if c == 4 then !s.hasDist else !s.hasBank)

/-- Whether an M word names an accumulator beyond its task's allotment (R170). -/
def State.beyondAcc (s : State) (w : Nat) : Bool :=
  field w 29 3 == 2 && decide (1 ≤ field w 22 7) && decide (field w 22 7 ≤ 8) &&
    decide ((((s.slot s.cur.slot).task).map (·.reqa)).getD 0 ≤ field w 20 2)

/-- The tests of R66 that the word, the features and the slot's task decide. The privilege tests stand in the meanings. -/
noncomputable def State.check (s : State) (w : Nat) (pre : Option Nat) : Checked :=
  if field w 29 3 == 7 then .trap 0x01
  else if s.absentFeature w then .trap 0x02
  else match decodeWord w (pre.map payloadOf) with
    | .error _ => .trap 0x01
    | .ok i => if s.beyondAcc w then .trap 0x01 else .ok i

/-! ## Splitting into a queue (R55 to R58) -/

/-- The engine of a queued word, from its engine field (R42). -/
def queuedEngine (w : Nat) : Option Engine := Engine.ofCode (field w 29 3)

/-- Whether a register name means a copy that a reply is pending for (R57). -/
def Slot.isPending (v : Slot) (n : Nat) : Bool := n != 0 && v.pending.contains (v.sIndex n)

/-- The first of some registers whose copy carries poison (R324). -/
def Slot.firstPoisoned (v : Slot) (ns : List Nat) : Option Nat :=
  ns.find? (fun n => n != 0 && v.regs.spoison.contains (v.sIndex n))

/-- Reads registers in which one bit has flipped: each is corrected, and counts for the slot (R323). -/
def State.settleScalars (s : State) (sl : SlotId) (ns : List Nat) : State :=
  let v := s.slot sl
  ((ns.eraseDups.filter (fun n => n != 0)).map v.sIndex).foldl (fun s i =>
    if (s.slot sl).regs.sflip.contains i then
      (s.coneEvent sl 0 0).modRegs sl (fun r => { r with sflip := r.sflip.filter (· != i) })
    else s) s

/-- Whether a word's BAR bit and its destination window's BARV disagree (R190). -/
def barMismatch (w cap2 : Nat) : Bool :=
  let op := field w 22 7
  field w 29 3 == 3 && (op ≤ 0x04 || (0x07 ≤ op && op ≤ 0x0B)) && bitOf w 1 != (DstWindow.of cap2).barv

/-- Whether VBRK names more loops than are open around it at split (R163). -/
def Slot.breaksTooFar (v : Slot) (w : Nat) : Bool :=
  field w 29 3 == 1 && field w 22 7 == 0x74 &&
    decide ((v.bundles.filter (fun b => (b.parts.map (·.1)).contains .v)).length < field w 0 2 + 1)

/-- The slots whose ready flag an XPUT, XRED or XBCST names (R202): read from the destination record at split. The flag of a
command to a peer is the issuer's own (log entry 46). -/
def State.flagOwners (s : State) (sl : SlotId) (w : Nat) (T : DstWindow) : List SlotId :=
  let op := field w 22 7
  if field w 29 3 != 3 || !(op == 0x08 || op == 0x0A || op == 0x0B) || !T.fle then []
  else
    match (s.recordBytes sl (.eng sl .x) s.fresh T.tid).bind (fun b => parseRecord T.tid b.2) with
    | none => []
    | some r =>
      if !inGangWindow r.base then [sl]
      else if op == 0x0B then
        match s.gangOf sl with
        | some g => (g.members.map (·.2)).filter (fun m => decide (m ≠ sl))
        | none => []
      else (s.memberSlot sl (memberOf r.base)).toList

/-- The entry made of a word at split (R55, R56, R241, R294). -/
def Slot.makeEntry (v : Slot) (w : Nat) (pre : Option Nat) (t : Nat) : Entry :=
  let caps := capturedFields w
  let val (i : Nat) : Word := match caps[i]? with | some n => v.readS n | none => 0
  { kind := .word
    word := w
    pre := pre
    cap1 := val 0
    cap2 := val 1
    view := v.lastOrd
    own := v.lastSeen
    signed := !v.csr.segOpen
    seg := v.csr.segOpen
    poison := v.firstPoisoned caps
    stamp := t
    rd := if replyField w == 0 then 0 else v.sIndex (replyField w) }

/-- Records the issuer with the flags that a word names (R340). -/
def State.recordIssuer (s : State) (sl : SlotId) (w cap2 : Nat) : State :=
  let T := DstWindow.of cap2
  (s.flagOwners sl w T).foldl (fun s m => s.modSlot m (fun v =>
    { v with arriving := v.arriving ++ [(T.flag, identity sl, s.now)] })) s

/-- Splits a queued word that passed CheckEncoding: the checks of split that need operands or bundles, the wait for
pending registers, the push, the pending reply (R55 to R58, R125, R163, R190). -/
def splitQueued (s : State) (e : Engine) (w : Nat) (pre : Option Nat) : Out :=
  let sl := s.cur.slot
  let v := s.slot sl
  let outside := match v.bundles with
    | [] => false
    | b :: _ => !(b.parts.map (·.1)).contains e || !v.bundleRoom [e]
  if v.breaksTooFar w || outside then trapOut s 0x01 s.encoding
  else if (replyField w :: capturedFields w).any v.isPending then .next s
  else
    let x := v.makeEntry w pre s.seqT
    if barMismatch w x.cap2.toNat then trapOut s 0x01 s.encoding
    else if !s.mayPush sl e then .next (s.stallOn sl sl e)
    else
      let s1 := ((s.settleScalars sl (capturedFields w)).pushOwn sl e x).recordIssuer sl w x.cap2.toNat
      .next ((s1.modSlot sl (fun v => { (if v.bundles.isEmpty then v else v.useEntries [e]) with
        stall := none
        resumed := false
        pending := if x.rd == 0 then v.pending else x.rd :: v.pending })).advance)

/-- Sets what a word being split is (R66): its slot, words and flag. -/
def State.atWord (s : State) (sl : SlotId) (w : Nat) (pre : Option Nat) : State :=
  let s1 := ({ s with cur := { slot := sl, entry := { word := w, pre := pre } } }).modSlot sl (fun v => { v with narrow := none, ate := false })
  if sideFlag w == 0 then s1 else s1.sideEffect sl (sideFlag w)

/-- SPLIT_INTO_QUEUE (R55): the word at the slot's PC, if it is a queued engine's, is checked and pushed. -/
noncomputable def execSplitIntoQueue (sl : SlotId) (s : State) : Out :=
  if (s.slot sl).task.isNone then .next s
  else match s.fetch sl with
  | .out _ => .next s
  | .word w pre =>
    match queuedEngine w with
    | none => .next s
    | some e =>
      let s1 := s.atWord sl w pre
      match s1.check w pre with
      | .trap c => trapOut s1 c s1.encoding
      | .ok _ => splitQueued s1 e w pre

/-! ## Taking entries -/

/-- The queue moves past the entry at its position; with no loop open, entries before the position leave it. -/
def Sequencer.settle (q : Sequencer) : Sequencer :=
  if q.loops.isEmpty then { q with q := q.q.drop q.pos, pos := 0 } else q

/-- The queue after its next entry has completed. -/
def Sequencer.step (q : Sequencer) : Sequencer := Sequencer.settle { q with pos := q.pos + 1 }

/-! ## Loops (R126, R242) -/

/-- Iterations of run r of a bundle that an engine has completed: all of them, or a number, less what its commands in
flight still owe. none means every one. -/
def State.completedIters (s : State) (sl : SlotId) (e : Engine) (b r : Nat) : Option Nat :=
  let q := (s.slot sl).seq e
  let closed := mget q.runs b 0
  let own : Option Nat :=
    if r < closed then mfind q.ends (b, r)
    else if r == closed then
      match q.loops.find? (fun l => l.bundle == b) with
      | some l => some l.iters
      | none => some 0
    else some 0
  let owed := (s.inflight sl).filterMap (fun c =>
    if c.engine == e then (c.iters.find? (fun x => x.1 == b && x.2.1 == r)).map (·.2.2) else none)
  owed.foldl (fun m i => some (min i (m.getD i))) own

/-- Whether a number of completed iterations is reached. -/
def reached (done : Option Nat) (n : Nat) : Bool :=
  match done with
  | none => true
  | some d => decide (n ≤ d)

/-- The neighbours of an engine in a bundle: the one before it, and the one after it with this engine's lead. -/
def neighbours : List (Engine × Nat) → Engine → Option Engine × Option (Engine × Nat)
  | [], _ => (none, none)
  | [_], _ => (none, none)
  | (a, la) :: (b, lb) :: rest, e =>
    if a = e then (none, some (b, la))
    else if b = e then (some a, (neighbours ((b, lb) :: rest) e).2)
    else neighbours ((b, lb) :: rest) e

/-- Whether an engine may be in iteration i of run r of a bundle (R126). -/
def State.mayBegin (s : State) (sl : SlotId) (e : Engine) (b r i : Nat) : Bool :=
  let nb := neighbours (mget (s.slot sl).allBundles b []) e
  (match nb.1 with
    | some p => reached (s.completedIters sl p b r) (i + 1)
    | none => true) &&
  (match nb.2 with
    | some (n, lead) => reached (s.completedIters sl n b r) (i - lead)
    | none => true)

/-- Whether the open loops of an engine let it begin or go on (R126). -/
def State.loopsAllow (s : State) (sl : SlotId) (e : Engine) : Bool :=
  ((s.slot sl).seq e).loops.all (fun l => s.mayBegin sl e l.bundle l.run l.iters)

/-- Depth of the innermost open loop, outermost 0 (R124). -/
def Sequencer.depth (q : Sequencer) : Nat := q.loops.length - 1

/-- Advances or resets the index registers bound to a depth (R126). -/
def Sequencer.stepX (q : Sequencer) (depth : Nat) (reset : Bool) : Sequencer :=
  { q with x := q.x.map (fun (r : Nat × XReg) =>
      if r.2.depth == some depth then
        (r.1, { r.2 with val := if reset then r.2.base else (r.2.val + r.2.step) % 65536 })
      else r) }

/-- A loop-open marker (R126): none where the count is 0 and the matching close marker is not queued yet. -/
def Sequencer.openLoop (q : Sequencer) (k b : Nat) : Option Sequencer :=
  let n := mget q.k k 0
  if n == 0 then
    (closeFrom (q.q.drop (q.pos + 1)) (q.pos + 1) 0 1).map (fun i =>
      Sequencer.settle { q with
        pos := i + 1
        runs := mmod q.runs b 0 (· + 1)
        ends := mset q.ends (b, mget q.runs b 0) 0 })
  else some { q with
    pos := q.pos + 1
    loops := { start := q.pos + 1, count := n, iters := 0, bundle := b, run := mget q.runs b 0 } :: q.loops }

/-- A loop-close marker (R126). -/
def Sequencer.closeLoop (q : Sequencer) : Sequencer :=
  match q.loops with
  | [] => q.step
  | l :: rest =>
    if 1 < l.count then
      { q.stepX q.depth false with
        loops := { l with count := l.count - 1, iters := l.iters + 1 } :: rest
        pos := l.start }
    else
      Sequencer.settle { q.stepX q.depth true with
        loops := rest
        pos := q.pos + 1
        runs := mmod q.runs l.bundle 0 (· + 1)
        ends := mset q.ends (l.bundle, l.run) (l.iters + 1) }

/-- How many entries after its own a marker passes over: the body and close marker of a loop of no trips (R126). -/
def Sequencer.passedOver (q : Sequencer) (k : EntryKind) : Nat :=
  match k with
  | .loopOpen j _ =>
    if mget q.k j 0 == 0 then ((closeFrom (q.q.drop (q.pos + 1)) (q.pos + 1) 0 1).map (· - q.pos)).getD 0 else 0
  | _ => 0

/-- Executes a marker: none where it cannot yet. -/
def Sequencer.mark (q : Sequencer) (k : EntryKind) : Option Sequencer :=
  match k with
  | .kset n v => some ({ q with k := mset q.k n v }).step
  | .xset n v st d => some ({ q with x := mset q.x n { val := v, step := st, base := v, depth := d } }).step
  | .loopOpen k b => q.openLoop k b
  | .loopClose _ => some q.closeLoop
  | _ => none

/-! ## Blocks (R130, R205) -/

/-- The entries of a block's bytes: word, zero, two captured values. -/
def blockEntries : Nat → List Byte → List (Nat × Nat × Nat × Nat)
  | 0, _ => []
  | n + 1, b => (blockNum b 0 4, blockNum b 4 4, blockNum b 8 8, blockNum b 16 8) :: blockEntries n (b.drop 24)

/-- Whether an entry of a block is ill-formed (R130): another engine's word, a reply register, nonzero reserved bytes, or
a word that fails a test of CheckEncoding or of the BAR bit. -/
noncomputable def State.entryBad (s : State) (e : Engine) (x : Nat × Nat × Nat × Nat) : Bool :=
  decide (queuedEngine x.1 ≠ some e) || replyField x.1 != 0 || x.2.1 != 0 || barMismatch x.1 x.2.2.2
    || (match s.check x.1 none with | .ok _ => false | .trap _ => true)

/-- Whether a chain does not allow a word (R205): XBIND, XUNB, XCHAIN, XSTAT, ESET, EWAIT, or UI set. -/
def chainForbids (w : Nat) : Bool :=
  let op := field w 22 7
  op == 0x05 || op == 0x06 || op == 0x0D || op == 0x0E || op == 0x7E || op == 0x7F || bitOf w 0

/-- An entry made of an entry of a block; a chain's has its place in the slot's split order from the XCHAIN. -/
def entryOf (at_ : Entry) (block stamp : Nat) (x : Nat × Nat × Nat × Nat) (last : Bool) : Entry :=
  { word := x.1
    cap1 := BitVec.ofNat 64 x.2.2.1
    cap2 := BitVec.ofNat 64 x.2.2.2
    view := at_.view
    own := at_.own
    block := block
    counts := last
    signed := true
    stamp := stamp
    held := at_.held && last
    born := at_.born }

/-- The fault of an ill-formed block (R67). -/
def blockFault (s : State) (e : Engine) (block : Nat) : Out :=
  let sub := if e == .m then 10 else 7
  let s1 := { s with cur := { s.cur with entry := { s.cur.entry with block := block } } }
  .next (s1.engineTrap s.cur.slot e { cause := 0x0B, val := e.code + sub * 2 ^ 32, sub := sub })

/-- RENQ_BLOCK_READ (R130): a queue whose next entry is a block reads it from the issuer's scratchpad; its words take
the entry's place. -/
noncomputable def execRenqBlockRead (sl : SlotId) (e : Engine) (s : State) : Out :=
  let q := (s.slot sl).seq e
  match q.q[q.pos]? with
  | none => .next s
  | some en =>
    match en.kind with
    | .renq addr iss =>
      let s0 := { s with cur := { slot := sl, engine := some e, entry := en } }
      let read (s : State) : State := if s.sameGang iss sl then s.modSlot iss (fun v => { v with rq := v.rq - 1 }) else s
      if !s.sameGang iss sl || !s.spanHeld iss addr 8 then blockFault (read s0) e addr
      else if !s.resident iss addr 8 then stallOut (s0.wantSpan iss addr 8)
      else
        let p := s.localPhys iss addr
        let own (s : State) (a n : Nat) : State := if decide (iss = sl) then s.injectLocal sl a n else s
        let s1 := (own s0 addr 8).settle sl e.code p 8
        let hd := s1.readNum (.eng sl e) p 8
        let n := hd % 32
        let s2 := read s1
        if hd / 32 != 0 || n == 0 || decide (16 < n) || !s.spanHeld iss addr (8 + 24 * n) then blockFault s2 e addr
        else if !s.resident iss addr (8 + 24 * n) then stallOut (s0.wantSpan iss addr (8 + 24 * n))
        else
          let s3 := (own s2 (addr + 8) (24 * n)).settle sl e.code (p + 8) (24 * n)
          let xs := blockEntries n (s3.readBytes (.eng sl e) (p + 8) (24 * n))
          if xs.any (s3.entryBad e) then blockFault s3 e addr
          else
            let es := xs.zipIdx.map (fun x => entryOf en addr 0 x.1 (x.2 + 1 == n))
            let s4 := es.foldl (fun s x => s.recordIssuer sl x.word x.cap2.toNat) s3
            .next { s4.modSeq sl e (fun q => { q with q := q.q.take q.pos ++ es ++ q.q.drop (q.pos + 1) }) with
              cur := { s0.cur with status := .moved } }
    | _ => .next s

/-- The chain of a slot waits or goes on. -/
def chainOut (s : State) (st : Status) : Out := .next { s with cur := { s.cur with status := st } }

/-- Address of n bytes of a chain that the lease grants, on a non-bank page. -/
def State.chainPhys (s : State) (sl : SlotId) (va n : Nat) (write : Bool) : Option (Nat × Bool) :=
  match s.pageOf sl va, s.kernelOf sl with
  | some p, some k =>
    let rights := k.rangeRights p
    if va + n ≤ p.va + p.size && (!write || grantsW rights) && grantsR rights then
      some (s.backing (.eng sl .x) p.frame p.size p.shadow (va - p.va), p.bk)
    else none
  | _, _ => none

/-- Address of a chain's wait or post counter, or its fault (R205). -/
def State.chainCounter (s : State) (sl : SlotId) (va : Nat) (write : Bool) : Nat ⊕ Trap :=
  if va % 8 != 0 then .inr { cause := 0x06, val := va % 2 ^ 57 + 3 * 2 ^ 61, addr := va }
  else match s.chainPhys sl va 8 write with
    | none => .inr { cause := 0x04, val := va, addr := va }
    | some (a, bank) => if bank then .inr { cause := 0x0D, val := va % 2 ^ 57 + 3 * 2 ^ 61, addr := va } else .inl a

/-- The end of a chain (R205): its reply, and its completion as a command. -/
def endChain (s : State) (sl : SlotId) (c : Chain) : Out :=
  let s1 := s.modSlot sl (fun v => { v with chain := none })
  finishCopy s1 (field s.cur.entry.word 0 1) (c.done + 2 ^ 32 * c.stat) id

/-- The post of a block, and the block after it or the end (R205). -/
def postBlock (s : State) (sl : SlotId) (c : Chain) : Out :=
  let after (s : State) : Out :=
    let c1 := { c with done := c.done + 1, left := c.left.map (· - 1), next := c.after, begun := false, ate := false }
    let s1 := s.modSlot sl (fun v => { v with xchain := c.next, chain := some c1 })
    if c.after == 0 || c.left == some 1 then endChain s1 sl c1 else chainOut s1 .moved
  if (c.after == 0 || c.left == some 1) && s.copyFull sl then chainOut s .stalled
  else if c.paddr == 0 then after s
  else match s.chainCounter sl c.paddr true with
    | .inr t => .next (s.engineTrap sl .x t)
    | .inl a =>
      let s1 := (s.settle sl 3 a 8).showAt (.eng sl .x) a 8
      let go (s : State) : Out := after (s.store (.eng sl .x) none a (toBytes 8 (s.readNum (.eng sl .x) a 8 + c.pinc)))
      if s1.poisonedIn a 8 then s1.consumeEngine .x (poisonVal c.paddr false false 3) go else go s1

/-- Reads and begins a block whose wait is satisfied (R205). -/
noncomputable def beginBlock (s : State) (sl : SlotId) (en : Entry) (c : Chain) : Out :=
  let b := c.next
  if b % 64 != 0 then blockFault s .x b
  else match s.chainPhys sl b 64 false with
  | none => blockFault s .x b
  | some (_, true) => blockFault s .x b
  | some (a, false) =>
    let s0 := s.settle sl 3 a 64
    let rd (s : State) := s.viewNum (.eng sl .x) en.view en.own (Config.pick s.fresh a)
    let hd := toBytes 64 (rd s0 a 64)
    let n := blockNum hd 40 4
    let bad := n == 0 || decide (16 < n) || blockNum hd 44 20 != 0
    if bad || (s.chainPhys sl b (64 + 24 * n) false).isNone then blockFault s0 .x b
    else
      let s1 := s0.settle sl 3 (a + 64) (24 * n)
      let xs := blockEntries n (toBytes (24 * n) (rd s1 (a + 64) (24 * n)))
      if xs.any (fun x => s1.entryBad .x x || chainForbids x.1) then blockFault s1 .x b
      else
        let es := xs.map (fun x => entryOf en b en.stamp x false)
        let run (s : State) : Out :=
          chainOut ((es.foldl (fun s x => s.recordIssuer sl x.word x.cap2.toNat) s).modSlot sl (fun v => { v with chain := some { c with
            begun := true
            entries := es
            paddr := blockNum hd 24 8
            pinc := blockNum hd 32 8
            after := blockNum hd 0 8 } })) .moved
        let waddr := blockNum hd 8 8
        let s2 := { s1 with fresh := s1.fresh + 1 }
        if waddr == 0 then run s2
        else match s2.chainCounter sl waddr false with
          | .inr t => .next (s2.engineTrap sl .x t)
          | .inl wa =>
            let s3 := s2.settle sl 3 wa 8
            let go (s : State) : Out :=
              if blockNum hd 16 8 ≤ s.readNum (.eng sl .x) wa 8 then run s else chainOut s .stalled
            if !s3.poisonedIn wa 8 || c.ate then go s3
            else
              let s4 := (s3.coneEvent sl 1 3).modSlot sl (fun v => { v with chain := some { c with ate := true } })
              if s.kclass sl == 2 then go s4
              else .next (s4.engineTrap sl .x { cause := 0x07, val := poisonVal waddr false false 3, addr := waddr })

/-- Whether an entry of the X queue completes as it executes, with no command in flight (R193, R206): a marker, ESET or
EWAIT. -/
def Entry.plain (x : Entry) : Bool :=
  match x.kind with
  | .word => decide (0x7E ≤ field x.word 22 7)
  | _ => true

/-- What an engine has to do with the state that its entry left: the entry completes, or stays. -/
def State.afterEntry (s : State) (sl : SlotId) (e : Engine) : State :=
  match s.cur.status with
  | .done => (s.modSeq sl e (fun q => q.step)).modSlot sl (fun v => { v with
      lastDone := s.now
      xdoneCount := if e == .x && s.cur.entry.plain then v.xdoneCount + 1 else v.xdoneCount })
  | .moved => s.modSeq sl e (fun q => q.settle)
  | _ => s

/-- Takes an outcome's next state further. -/
def onNext (o : Out) (f : State → State) : Out :=
  match o with
  | .next t => .next (f t)
  | .fault x => .fault x
  | .refused x => .refused x

/-- CHAIN_BLOCK (R205): the chain of a slot begins its next block, or, when every command of the block has completed,
posts it and goes on. -/
noncomputable def execChainBlock (sl : SlotId) (s : State) : Out :=
  let v := s.slot sl
  let q := v.seq .x
  match v.chain, q.q[q.pos]? with
  | some c, some en =>
    let s0 := { s with cur := { slot := sl, engine := some .x, entry := en } }
    if !c.begun then beginBlock s0 sl en c
    else if !c.entries.isEmpty || (s.inflight sl).any (fun x => x.chained) then chainOut s0 .stalled
    else onNext (postBlock s0 sl c) (fun t => t.afterEntry sl .x)
  | _, _ => .next s

/-! ## One turn of an engine -/

/-- The chain's next command, executed as a queued entry (R205). -/
noncomputable def chainTurn (ex : Instr → State → Out) (sl : SlotId) (c : Chain) (s : State) : Out :=
  match c.entries with
  | [] => ex (.chainBlock sl) s
  | x :: rest =>
    let s1 := { s with cur := { slot := sl, engine := some .x, entry := x } }
    match decodeWord x.word none with
    | .error _ => blockFault s1 .x x.block
    | .ok i => onNext (ex i s1) (fun t =>
        match t.cur.status with
        | .done => { t.modSlot sl (fun v => { v with
              chain := v.chain.map (fun k => { k with entries := rest })
              lastDone := t.now }) with cur := { t.cur with status := .moved } }
        | _ => t)

/-- A matrix word of a class-P kernel that consumes a captured register's poison: the window of its tile is replayed where
R182 permits it, and the word consumes the poison again (R325). -/
def State.secondConsumption (s : State) (sl : SlotId) (word : Nat) : State :=
  let op := field word 22 7
  let n := field word 20 2
  if s.kclass sl == 0 && decide (1 ≤ op) && decide (op ≤ 8) && (s.acc sl n).mayReplay then
    ((s.coneEvent sl 1 2).replayWindow sl n).1
  else s

/-- Executes the next entry of a queue, whoever holds the grant: the outcome's status says what came of it. Captured poison
is consumed once: not again when a MEPI in progress goes on. An injection that waits for the engine's next boundary fires
with the entry that begins there (R335). -/
noncomputable def engineEntry (ex : Instr → State → Out) (sl : SlotId) (e : Engine) (s : State) : Out :=
  let v := s.slot sl
  let q := v.seq e
  match q.q[q.pos]? with
  | none => .next { s with cur := { slot := sl, engine := some e, status := .stalled } }
  | some en =>
    let s0 := { s with cur := { slot := sl, engine := some e, entry := en } }
    if !s.loopsAllow sl e then stallOut s0
    else match en.kind with
    | .renq .. => ex (.renqBlockRead sl e) s0
    | .word =>
      match e, v.chain with
      | .x, some c => chainTurn ex sl c s0
      | _, _ =>
        let begun := e == .m && (s0.epiCmd sl).isSome
        let s1 := s0.signAt sl e q.pos
        if 0 < q.skip then
          onNext (doneOut (s1.modSeq sl e (fun q => { q with skip := q.skip - 1 }))) (fun t => t.afterEntry sl e)
        else match decodeWord en.word (en.pre.map payloadOf) with
        | .error _ => .next (s1.engineTrap sl e { cause := 0x01, val := 0 })
        | .ok i =>
          let go (s : State) : Out := ex i s
          let run (s : State) : Out := onNext (match (if begun then none else en.poison) with
            | some n => (if e == .m then s.secondConsumption sl en.word else s).consumeEngine e (poisonVal n true false e.code) go
            | none => go s) (fun t => t.afterEntry sl e)
          if !begun && (s1.slot sl).csr.atBoundary e then
            match run (s1.inject sl) with
            | .next t => if t.cur.status = .stalled then run s1 else .next t
            | o => o
          else run s1
    | k =>
      let s1 := s0.signRun sl e (q.pos + 1) (q.passedOver k)
      match ((s1.slot sl).seq e).mark k with
      | none => stallOut s0
      | some q1 =>
        let skip := match k with | .kset .. => q1.skip | .xset .. => q1.skip | _ => 0
        doneOut ((s1.modSeq sl e (fun _ => { q1 with skip := skip })).modSlot sl (fun v => { v with
          lastDone := s.now
          xdoneCount := if e == .x then v.xdoneCount + 1 else v.xdoneCount }))

end Sys2Proof.Machine
end

