-- ==== Sys2Proof/Machine/Kiln.lean ====
section
/-!
DEFINITION. The Kilns: grants, draws, revaluations and the travel of loans (spec/12, R305 to R317), and the residency draw
with the spilling and refilling of regions (R319, R320).
-/

namespace Sys2Proof.Machine

/-! ## When a slot does not run -/

/-- The mode of a gang in a pre-emption, with the cluster that chose it at the start (R399). -/
def Ctx.modeOf (c : Ctx) (gang : Nat) : Nat × Nat := mget c.modes gang (1, 0)

/-- Whether a context lets the tasks of a gang run (R387, R400, R404): it is running or being restored, or pre-empts
with that gang draining. -/
def Ctx.runs (c : Ctx) (gang : Nat) : Bool :=
  c.state == 1 || c.state == 4 || (c.state == 2 && (c.modeOf gang).1 == 1)

/-- The gang of a slot's task. -/
def State.gangNo (s : State) (sl : SlotId) : Nat := ((s.slot sl).task.map (·.gang)).getD 0

/-- The cluster that chooses the mode of a slot's gang: the one that holds member 0, or the lowest member left (R237;
log entry 95). -/
def State.modeCluster (s : State) (sl : SlotId) : Nat :=
  match s.gangOf sl with
  | some g => ((((g.members.map (·.1)).min?).bind (fun m => mfind g.members m)).getD sl).tile / 4
  | none => sl.tile / 4

/-- Whether nothing of a slot executes: no task, a task that is ending, a partition that is reset or paused, a context
that does not run, or a fatal error (R387, R394, R397, R430, R441). -/
def State.stopped (s : State) (sl : SlotId) : Bool :=
  (s.slot sl).task.isNone || (s.slot sl).ending.isSome || s.fatal.isSome ||
    (match s.part? sl.part with
      | some p => p.resetting || p.paused
      | none => true) ||
    (match s.kernelOf sl with
      | some k => !(s.ctx k.fn k.ctx).runs (s.gangNo sl)
      | none => true)

/-- Whether an engine of a slot does not run: a chain block in progress is finished before a save (R214), and a MEPI
completes with its check (R186). -/
def State.engineStopped (s : State) (sl : SlotId) (e : Engine) : Bool :=
  let inBlock := (e == .x && (match (s.slot sl).chain with | some c => c.begun | none => false))
    || (e == .m && (s.epiCmd sl).isSome)
  let saving := match s.kernelOf sl with
    | some k => (s.ctx k.fn k.ctx).state == 2 && s.fatal.isNone && (s.slot sl).ending.isNone
    | none => false
  s.stopped sl && !(inBlock && saving)

/-! ## Grants (R309, R310) -/

/-- Quanta of the drawn engines (R309). -/
def quantum : Engine → Nat
  | .v => 256 | .m => 1024 | .x => 512 | _ => 256

/-- Used time of a grant (R309). -/
def usedTime (start now q : Nat) : Nat := max 1 (min (now - start) q)

/-- The compensation factor after a grant (R310). -/
def factorAfter (used q : Nat) (yielded : Bool) : Nat :=
  if used < q && !yielded then min (2 ^ 16 * q / used) 0x100000 else 0x10000

/-- Ends the grant of an engine of a tile (R309, R310). -/
def State.endGrant (s : State) (t : TileId) (e : Engine) : State :=
  match (s.kiln t e).grant with
  | none => s
  | some g =>
    let sl : SlotId := ⟨t.part, t.tile, g.slot⟩
    let yielded := (s.slot sl).yield.contains e
    let f := factorAfter (usedTime g.start s.now (quantum e)) (quantum e) yielded
    let s1 := s.modKiln t e (fun k => { k with grant := none, factor := mset k.factor g.slot f })
    if yielded then s1.modSlot sl (fun v => { v with yield := v.yield.filter (fun x => decide (x ≠ e)) }) else s1

/-- Whether a queue has a word or marker still to execute. -/
def Sequencer.next (q : Sequencer) : Bool := decide (q.pos < q.q.length)

/-- Whether the grant of an engine must end (R309), given the slots that are ready on it: by its quantum or YIELD at an entry
boundary only, which a MEPI in progress is not. -/
def State.grantOver (s : State) (t : TileId) (e : Engine) (ready : List Nat) : Bool :=
  match (s.kiln t e).grant with
  | none => false
  | some g =>
    let sl : SlotId := ⟨t.part, t.tile, g.slot⟩
    let between := !(e == .m && (s.epiCmd sl).isSome)
    (between && (decide (g.start + quantum e ≤ s.now) || (s.slot sl).yield.contains e)) || !((s.slot sl).seq e).next
      || !ready.contains g.slot || s.engineStopped sl e

/-- GRANT_END (R309). -/
def execGrantEnd (t : TileId) (e : Engine) (s : State) : Out :=
  .next (if s.grantOver t e s.cur.ready then s.endGrant t e else s)

/-! ## Loans (R316, R317) -/

/-- How much two paths have in common. -/
def commonPrefix : List SlotId → List SlotId → Nat
  | a :: x, b :: y => if a = b then commonPrefix x y + 1 else 0
  | _, _ => 0

/-- Hops that a loan's withdrawal may take: those of its path, or of the longer one that its lender's loan follows now (R317,
R342). -/
def Loan.bounded (l : Loan) (want : List Loan) : Nat :=
  (want.filter (fun w => decide (w.lender = l.lender))).foldl (fun m w => max m w.path.length) (max 1 l.path.length)

/-- How far a new loan has travelled already: over the hops that its path has in common with one of the lender's that had
arrived (R317). -/
def Loan.ahead (l : Loan) (olds : List Loan) : Nat :=
  (olds.filter (fun o => decide (o.lender = l.lender) && decide (o.path.length ≤ o.hops))).foldl
    (fun m o => max m (commonPrefix l.path o.path)) 0

/-- Whether the withdrawal of a loan has arrived: it counts at its end no longer, or the time that its hops take has
passed. -/
def Loan.withdrawn (l : Loan) (now : Nat) : Bool :=
  l.gone && (decide (l.hops < l.path.length) || decide (l.since + 64 * l.bound ≤ now))

/-- What the waits of a partition make of its loans: those no longer called for are withdrawn, new ones set out, and a
change older than the bounds of R317 has arrived. -/
def State.settleLoans (s : State) (p : Nat) : State :=
  match s.part? p with
  | none => s
  | some v =>
    let want := s.wanted p
    let olds := v.loans.map (fun l =>
      let gone := !want.any l.same
      if gone == l.gone then l else { l with gone := gone, since := s.now, bound := l.bounded want })
    let news := (want.filter (fun w => !v.loans.any w.same)).map (fun w => { w with hops := min (w.path.length - 1) (w.ahead v.loans) })
    let aged := (olds ++ news).map (fun l =>
      if !l.gone && decide (l.since + 64 * l.path.length ≤ s.now) then { l with hops := l.path.length } else l)
    s.modPart p (fun v => { v with loans := aged.filter (fun l => !l.withdrawn s.now) })

/-- One hop of a loan's change. -/
def Loan.hop (l : Loan) : Loan :=
  { l with hops := if l.gone then l.hops - 1 else min l.path.length (l.hops + 1) }

/-- Records whose 64 cycles have passed reach their flags (R340). -/
def State.settleRecords (s : State) : State :=
  { s with slots := s.slots.map (fun (e : SlotId × Slot) =>
      if e.2.arriving.isEmpty then e else (e.1, e.2.arriveBy (fun x => decide (x.2.2 + 64 ≤ s.now)))) }

/-- The slots of a partition to whose flags records are on their way. -/
def State.arrivals (s : State) (p : Nat) : List SlotId :=
  (s.slots.filter (fun (e : SlotId × Slot) => e.1.part == p && !e.2.arriving.isEmpty)).map (·.1)

/-- LOAN_HOP (R317): one hop of the n-th change that travels in a partition; the records of issuers that are on their way to
ready flags count after the loans (R340). -/
def execLoanHop (p n : Nat) (s : State) : Out :=
  let s1 := s.settleLoans p
  let k := ((s1.part? p).map (·.loans.length)).getD 0
  .next (if n < k then s1.modPart p (fun v => { v with loans := v.loans.modify n Loan.hop })
    else match (s1.arrivals p)[n - k]? with
      | some sl => s1.modSlot sl Slot.arrive
      | none => s1)

/-- REVALUATION (R305): a Kiln installs the new base values of all its slots. -/
def execRevaluation (t : TileId) (e : Engine) (s : State) : Out :=
  .next (if (s.kiln t e).stale.isSome then s.install t e else s)

/-! ## The draw (R312, R313) -/

/-- A generator as partition start seeds it (R312). -/
def seedOf (drawseed tile code : Nat) : Nat :=
  let x := drawseed ^^^ ((tile * 0x9E37) ^^^ (code * 0x0101))
  if x == 0 then 1 else x

/-- The lowest index whose cumulative weight exceeds a pick. -/
def cumulative : List (Nat × Nat) → Nat → Nat
  | [], _ => 0
  | [(i, _)], _ => i
  | (i, w) :: rest, pick => if pick < w then i else cumulative rest (pick - w)

/-- The first slot of some after a pointer, cyclically. -/
def afterPointer (r : List Nat) (rr : Nat) : Nat :=
  (((List.range 8).map (fun i => (rr + 1 + i) % 8)).find? (fun i => r.contains i)).getD rr

/-- The winner of a draw, given the generator's value, the weights of the ready slots in ascending order, the loss
counters and the round-robin pointer, with the pointer after it (R313). -/
def drawWinner (x : Nat) (ws : List (Nat × Nat)) (loss : Map Nat Nat) (rr : Nat) : Nat × Nat :=
  match ws.find? (fun w => decide (0 < w.2) && mget loss w.1 0 == 1024) with
  | some w => (w.1, rr)
  | none =>
    let total := sumOf (ws.map (·.2))
    if total == 0 then
      let w := afterPointer (ws.map (·.1)) rr
      (w, w)
    else (cumulative ws (x * total / 2 ^ 32), rr)

/-- The loss counters after a draw (R313). -/
def lossAfter (loss : Map Nat Nat) (ws : List (Nat × Nat)) (win : Nat) : Map Nat Nat :=
  ws.foldl (fun l w => if w.1 == win then mset l win 0
    else if 0 < w.2 then mset l w.1 (min (mget l w.1 0 + 1) 1024) else l) loss

/-- A Kiln's draw among some ready slots in a cycle (R313): the weights are those at the start of the cycle. -/
def Kiln.draw (k : Kiln) (r : List Nat) (now : Nat) : Kiln :=
  let ws := r.map (fun i => (i, mget k.start i 0))
  let x := xorshift k.gen
  let w := drawWinner x ws k.loss k.rr
  { k with
    gen := x
    rr := w.2
    loss := lossAfter k.loss ws w.1
    factor := mset k.factor w.1 0x10000
    drawn := some now
    grant := some { slot := w.1, start := now } }

/-- KILN_DRAW (R308, R313): an engine with no grant draws, once a cycle, among the slots ready on it. -/
def execKilnDraw (t : TileId) (e : Engine) (s : State) : Out :=
  let k0 := s.kiln t e
  let r := (List.range 8).filter (fun i => s.cur.ready.contains i)
  if e == .b || k0.grant.isSome || decide (k0.drawn = some s.now) || r.isEmpty then .next s
  else .next (s.modKiln t e (fun k => k.draw r s.now))

/-! ## The residency draw (R319, R320) -/

/-- Local bytes that a slot's commands in flight use, by region number (R319). -/
def State.regionUsed (s : State) (sl : SlotId) (k : Nat) : Bool :=
  let lo := s.localPhys sl (k * 0x40000)
  let meets (x : Nat × Nat) : Bool := decide (x.1 < lo + 0x40000) && decide (lo < x.1 + x.2)
  (s.inflight sl).any (fun c => (c.engine != .b && (c.src.any meets || c.dst.any meets))
    || c.moves.any (fun m => meets (m.addr, m.bytes.length))
    || (match c.bar with | some a => a / 0x40000 == k | none => false))

/-- Whether the copy that a region holds may be spilled for another slot (R319, R320). -/
def State.spillable (s : State) (t : TileId) (k : Nat) : Bool :=
  let x := s.tile t
  let r := mget x.regions k {}
  match r.owner with
  | none => false
  | some o => !r.pinned && decide (r.immune ≤ s.now) && !x.spilling.any (fun y => y.region == k)
      && !s.regionUsed ⟨t.part, t.tile, o⟩ k

/-- Writes the copy that a region holds to HBM: its holder keeps it spilled, and the region is free (R320). Errors of
the storage are settled first, and count for nobody (log entry 13). -/
def State.spillRegion (s : State) (t : TileId) (k : Nat) : State :=
  let r := mget (s.tile t).regions k {}
  match r.owner with
  | none => s
  | some o =>
    let a := s.window t + k * 0x40000
    let s1 := s.settle ⟨t.part, t.tile, 8⟩ 0 a 0x40000
    let here (x : Nat) : Bool := decide (a ≤ x) && decide (x < a + 0x40000)
    let c : Spilled :=
      { slot := o
        cells := (s1.mem.filter (fun c => here c.1)).map (fun c => (c.1 - a, c.2))
        poison := (s1.poison.filter (fun g => here (64 * g))).map (fun g => g - a / 64)
        cls := r.cls
        ralloc := r.ralloc
        want := none }
    (s1.zero a 0x40000).modTile t (fun x => { x with regions := mset x.regions k { r with
      owner := none
      pinned := false
      immune := 0
      ralloc := false
      spilled := r.spilled ++ [c] } })

/-- Owner weight of a region (R319). -/
def State.ownerWeight (s : State) (t : TileId) (k : Nat) : Nat :=
  match (mget (s.tile t).regions k {}).owner with
  | none => 0
  | some o => min (s.baseValue ⟨t.part, t.tile, o⟩ + s.tkloan ⟨t.part, t.tile, o⟩) (2 ^ 24 - 1)

/-- The victim of a residency draw, given the generator's value and the weights of the candidates (R319). -/
def residencyVictim (x : Nat) (ts : List (Nat × Nat)) : Nat :=
  let total := sumOf (ts.map (·.2))
  let us := ts.map (fun t => (t.1, if total == 0 then 1 else total - t.2))
  cumulative us (x * sumOf (us.map (·.2)) / 2 ^ 32)

/-- REGION_SPILL (R319): a slot that waits in RALLOC with no region free for it draws a victim, which is written out. -/
def execRegionSpill (sl : SlotId) (s : State) : Out :=
  let t := sl.tileId
  let waiting := match (s.slot sl).wait with
    | some w => (match w.kind with | .ralloc .. => true | _ => false)
    | none => false
  let cands := (List.range 16).filter (fun k => s.spillable t k && (s.region sl k).owner != some sl.slot)
  if !waiting || (List.range 16).any (fun k => s.freeFor sl k) || (s.cleared sl).isSome || cands.isEmpty then .next s
  else
    let x := xorshift (s.tile t).resGen
    let s1 := s.settleLoans sl.part
    let v := match cands with
      | [k] => k
      | _ => residencyVictim x (cands.map (fun k => (k, s1.ownerWeight t k)))
    .next ((s1.spillRegion t v).modTile t (fun y =>
      { y with resGen := x, spilling := y.spilling ++ [{ region := v, slot := sl.slot, refill := false }] }))

/-- The spilled owner of a region whose stall began first (R320). -/
def Region.firstWant (r : Region) : Option Spilled :=
  r.spilled.foldl (fun best c =>
    match c.want, best with
    | none, _ => best
    | some _, none => some c
    | some a, some b => if a < b.want.getD 0 then some c else best) none

/-- REGION_REFILL (R320): a slot that stalls on its spilled region gets it back once the region is free or its holder's
copy may be spilled. -/
def execRegionRefill (sl : SlotId) (k : Fin 16) (s : State) : Out :=
  let t := sl.tileId
  let r := s.region sl k.val
  match r.firstWant with
  | none => .next s
  | some c =>
    if c.slot != sl.slot || (s.tile t).spilling.any (fun y => y.region == k.val) || (r.owner.isSome && !s.spillable t k.val)
    then .next s
    else
      let s1 := s.spillRegion t k.val
      let a := s1.localPhys sl (k.val * 0x40000)
      let s2 := { s1 with
        mem := c.cells.foldl (fun m (x : Host.Cell) => Memory.write m (a + x.1) x.2) s1.mem
        poison := c.poison.map (· + a / 64) ++ s1.poison }
      .next ((s2.modTile t (fun y => { y with regions := mmod y.regions k.val {} (fun r => { r with
        owner := some sl.slot
        cls := c.cls
        pinned := false
        ralloc := c.ralloc
        immune := s.now + 65536
        spilled := r.spilled.erase c }) })).injectNow sl)

end Sys2Proof.Machine
end

