-- ==== Sys2Proof/Machine/Kernel.lean ====
section
/-!
DEFINITION. Tasks as they start, restart, fail and take events: admission (spec/09 R236 to R238, R248, R251 to R253), traps
and interrupts at a boundary (spec/02 R69; spec/09 R246; spec/13 R327), replay and failure (spec/13 R333, R334), the
deadlock probe (spec/09 R254 to R256), completions and streams (spec/07 R193, R201).
-/

namespace Sys2Proof.Machine

/-! ## Commands and streams -/

/-- COMMAND_COMPLETION (R193): a command that has executed, and whose peer has answered, completes. -/
def execCommandCompletion (id : Nat) (s : State) : Out :=
  .next (match s.cmd? id with
    | some c =>
      if !c.executed || !c.remote.isEmpty || c.epi.isSome then s
      else if c.moves.any (fun m => s.reachMove c m == .wait) then
        (c.moves.filter (fun m => s.reachMove c m == .wait)).foldl (fun s m => s.wantMove m) s
      else s.completeCmd id
    | none => s)

/-- STREAM_FILL (R201): a read-stream buffers one element more. -/
def execStreamFill (sl : SlotId) (q : Fin 16) (s : State) : Out :=
  .next (if (s.slot sl).task.isSome then s.fillStream sl q.val else s)

/-- STREAM_DRAIN (R201): a write-stream drains its oldest element. -/
def execStreamDrain (sl : SlotId) (q : Fin 16) (s : State) : Out :=
  .next (if (s.slot sl).task.isSome then s.drainStream sl q.val else s)

/-! ## Events at a boundary -/

/-- KERNEL_TRAP_ENTRY (R69): the oldest engine-raised trap of a slot enters the handler; TRAPPC holds the next word, or the
blocking word that the slot waits in. -/
def execKernelTrapEntry (sl : SlotId) (s : State) : Out :=
  match (s.slot sl).traps with
  | [] => .next s
  | t :: rest =>
    if (s.slot sl).level then .next s
    else .next ((s.modSlot sl (fun v => { v with traps := rest })).takeTrap sl t (s.slot sl).pc)

/-- USER_INTERRUPT_DELIVERY (R246). -/
def execUserInterruptDelivery (sl : SlotId) (s : State) : Out :=
  let v := s.slot sl
  let c := v.csr
  if (c.xdone != 0 || c.bdone != 0 || c.topo) && c.en && !c.inh && c.uivec != 0 && !v.level then
    .next (s.modSlot sl (fun v => { v with
      pc := BitVec.ofNat 64 v.csr.uivec
      wait := none
      stall := none
      bundles := []
      used := []
      outer := (v.bundles, v.used) :: v.outer
      csr := { v.csr with inh := true }
      regs := { v.regs with s := mset v.regs.s 127 v.pc } }))
  else .next s

/-- CONEX (R327): an exhausted budget enters the handler, or with CONECFG.FAIL fails the task. -/
def execConex (sl : SlotId) (s : State) : Out :=
  let v := s.slot sl
  match v.conex with
  | none => .next s
  | some k =>
    let t : Trap := { cause := 0x08, val := k, engine := k / 256, addr := k, word := if k / 256 == 0 then s.wordAt sl else 0 }
    let s1 := s.modSlot sl (fun v => { v with conex := none })
    if bitOf v.csr.conecfg 3 then .next (s1.startEnding sl (.fail t))
    else if v.level then .next s
    else .next (s1.takeTrap sl t v.pc)

/-! ## Starting a task (R39, R248) -/

/-- A slot as a task starts in it (R39, R41): its accumulators are as MZERO leaves them (R238, R333). -/
def startSlot (t : Task) (cone : Nat) : Slot :=
  { (default : Slot) with
    task := some t
    pc := BitVec.ofNat 64 t.entry
    regs := { (default : Regs) with
      s := t.args.zipIdx.map (fun x => (x.2 + 1, x.1))
      a := (List.range t.reqa).map (fun n => (n, Acc.mzero)) }
    csr := { (default : Csrs) with tickets := t.tickets, cone := cone } }

/-- Writes STATUS of a task's block, which the device keeps for a task of the initial table (R248, R375). -/
def State.writeStatus (s : State) (k : Kernel) (t : Task) : State :=
  match t.tcb with
  | none => s.keepStatus t t.status
  | some va => match s.leasePhys k (va + 104) with
    | some a => s.poke .bank none a (toBytes 4 t.status)
    | none => s

/-- Writes HOME of a task's block (R248). -/
def State.writeHome (s : State) (k : Kernel) (t : Task) (home : Nat) : State :=
  match t.tcb.bind (fun va => s.leasePhys k (va + 108)) with
  | some a => s.poke .bank none a (toBytes 4 home)
  | none => s

/-- The arguments that a task starts with: those that its block in memory holds at that moment (R39, R248), or the
device's own copy with the position of R236 in argument 3. -/
def State.startArgs (s : State) (k : Kernel) (t : Task) (size : Nat) : List Word :=
  match t.tcb.bind (fun va => s.leasePhys k va) with
  | some a => (List.range 4).map (fun i => BitVec.ofNat 64 (s.readNum .bank (a + 16 + 8 * i) 8))
  | none => if t.tcb.isSome || t.handler then t.args else t.args.take 3 ++ [BitVec.ofNat 64 (t.member + 256 * (size - 1))]

/-! ## Admission (R238, R251, R252) -/

/-- Tasks in the slots of a tile. -/
def State.tasksOn (s : State) (t : TileId) : List Task :=
  (List.range 8).filterMap (fun i => (s.slot ⟨t.part, t.tile, i⟩).task)

/-- Whether a region of a tile is free (R238). -/
def State.regionFree (s : State) (t : TileId) (k : Nat) : Bool :=
  let r := mget (s.tile t).regions k {}
  r.owner.isNone && !r.pinned && !(s.tile t).spilling.any (fun x => x.region == k)

/-- Whether a task fits a tile (R238). -/
def State.fits (s : State) (t : TileId) (k : Task) : Bool :=
  let on := s.tasksOn t
  decide (on.length < 8) && decide (sumOf (on.map (·.reqm)) + k.reqm ≤ 64) && decide (sumOf (on.map (·.reqa)) + k.reqa ≤ 8)
    && (List.range 16).all (fun i => !bitOf k.reqr i || s.regionFree t i)

/-- The tiles of an entry's tasks: a distinct fitting tile for each member, lowest logical index first (R252). -/
def State.place (s : State) (p : Nat) : List Task → Nat → Option (List (Task × Nat))
  | [], _ => some []
  | k :: ks, lo =>
    match (List.range (4 * s.nclus p)).find? (fun t => decide (lo ≤ t) && s.fits ⟨p, t⟩ k) with
    | none => none
    | some t => (s.place p ks (t + 1)).map (fun r => (k, t) :: r)

/-- The order of a ready list within a level (R251). -/
def Ready.before (a b : Ready) : Bool := decide (a.rdyc < b.rdyc) || (a.rdyc == b.rdyc && decide (a.seqNo ≤ b.seqNo))

/-- Inserts an entry in order, after its equals. -/
def insertReady (r : Ready) : List Ready → List Ready
  | [] => [r]
  | x :: xs => if x.before r then x :: insertReady r xs else r :: x :: xs

/-- The entries that may be admitted: those whose kernel's context runs (R398). -/
def State.admissible (s : State) (v : Part) : List Ready :=
  v.ready.filter (fun r => match mfind s.kernels r.kernel with
    | some k => (s.ctx k.fn k.ctx).state == 1
    | none => false)

/-- The first eight entries of the highest level, in list order (R251, R252). -/
def candidates (rs : List Ready) : List Ready :=
  let top := rs.foldl (fun m r => max m r.level) 0
  ((rs.filter (fun r => r.level == top)).foldl (fun l r => insertReady r l) []).take 8

/-- Places one member of an admitted entry in a free slot of its tile (R236, R238, R248, R310, R313): which free slot is a
free value (log entry 20). -/
def State.admitTask (s : State) (k : Kernel) (g size : Nat) (t : Task) (tile : Nat) : State × SlotId :=
  let tid : TileId := ⟨k.part, tile⟩
  let free := (List.range 8).filter (fun i => (s.slot ⟨k.part, tile, i⟩).task.isNone)
  let sl : SlotId := ⟨k.part, tile, free.getD (Config.freeBits s.fresh % max 1 free.length) 0⟩
  let t1 : Task := { t with
    gang := g
    args := s.startArgs k t size
    status := t.status / 64 % 4 * 64 + 3 }
  let v := startSlot t1 k.cone
  let s1 := { s with fresh := s.fresh + 1 }.setSlot sl { v with recSeq := (s.slot sl).recSeq }
  let s2 := (s1.writeStatus k t1).writeHome k t1 (identity sl)
  let s3 := (List.range 16).foldl (fun s i => if bitOf t.reqr i then s.giveRegion sl i k.cls false else s) s2
  let s4 := s3.modTile tid (fun x => { x with kilns := [Engine.v, .m, .x, .d].foldl (fun ks e => mmod ks e {} (fun c =>
    { c with loss := mset c.loss sl.slot 0, factor := mset c.factor sl.slot 0x10000 })) x.kilns })
  (s4.zero (handlerPhys k.part (0x1FFFFFFB1000000 + 0x10000 * identity sl)) 0x10000, sl)

/-- Admits an entry on its tiles: its gang, its members, and the revaluation that the receiving tiles install at once
(R237, R252, R305). -/
def State.admitEntry (s : State) (p : Nat) (r : Ready) (k : Kernel) (xs : List (Task × Nat)) : State :=
  let g := s.nextGang
  let size := if r.tasks.any (fun t => t.tcb.isNone && !t.handler) then k.gangSize else 1
  let step (a : State × List (Nat × SlotId)) (x : Task × Nat) : State × List (Nat × SlotId) :=
    let b := a.1.admitTask k g size x.1 x.2
    (b.1, a.2 ++ [(x.1.member, b.2)])
  let a := xs.foldl step (s, [])
  let s1 := { a.1 with
    nextGang := g + 1
    gangs := mset a.1.gangs g { kernel := r.kernel, size := size, members := a.2, arrived := [], completed := [] } }
  let s2 := (s1.modPart p (fun v => { v with ready := v.ready.erase r })).revalue
  a.2.foldl (fun s m => s.installFor m.2) s2

/-- ADMISSION (R252): the scheduler of a partition admits the first entry that fits, if any. -/
def execAdmission (p : Nat) (s : State) : Out :=
  match s.part? p with
  | none => .next s
  | some v =>
    if v.resetting || v.paused || s.fatal.isSome then .next s
    else
      match (candidates (s.admissible v)).findSome? (fun r => (s.place p r.tasks 0).map (fun xs => (r, xs))) with
      | none => .next s
      | some (r, xs) =>
        match mfind s.kernels r.kernel with
        | some k => .next (s.admitEntry p r k xs)
        | none => .next s

/-- An entry at the level that its wait has raised it to (R253). -/
def Ready.raised (r : Ready) (now : Nat) : Ready :=
  let n := min ((now - r.since) / 65536) (3 - r.level)
  { r with level := r.level + n, since := r.since + 65536 * n }

/-- READY_LEVEL_RAISE (R253): the n-th entry of a ready list has waited a full 65,536 cycles at its level, or several. -/
def execReadyLevelRaise (p n : Nat) (s : State) : Out :=
  .next (s.modPart p (fun v => { v with ready := v.ready.modify n (fun r => r.raised s.now) }))

/-! ## Replay and failure -/

/-- Frees the regions that RALLOC gave a slot, and makes its allotted regions read zero, unpinned (R333). -/
def State.resetRegions (s : State) (sl : SlotId) : State :=
  (List.range 16).foldl (fun s k =>
    let r := s.region sl k
    let mine (c : Spilled) : Bool := c.slot == sl.slot
    if r.owner == some sl.slot then
      if r.ralloc && !r.spilled.any (fun c => mine c && !c.ralloc) then s.freeRegion sl k
      else (s.zero (s.localPhys sl (k * 0x40000)) 0x40000).modTile sl.tileId (fun t =>
        { t with regions := mset t.regions k { r with
          pinned := false
          ralloc := false
          spilled := r.spilled.filter (fun c => !mine c) } })
    else if r.spilled.any (fun c => mine c && c.ralloc) then s.freeRegion sl k
    else s.modTile sl.tileId (fun t => { t with regions := mset t.regions k { r with
      spilled := r.spilled.map (fun c => if mine c then { c with cells := [], poison := [], want := none } else c) } })) s

/-- TASK_REPLAY (R333): once the commands in flight have completed, those of a matrix entry in progress among them (R241;
log entry 61), the task restarts in its slot. -/
def execTaskReplay (sl : SlotId) (s : State) : Out :=
  let v := s.slot sl
  match v.ending, v.task, s.kernelOf sl with
  | some .replay, some t, some k =>
    if !(s.inflight sl).isEmpty then .next s
    else
      let size := ((s.gangOf sl).map (·.size)).getD 1
      let t1 : Task := { t with status := 64 + 3, args := s.startArgs k t size }
      let n := startSlot t1 0
      let s1 := ((s.dropQueues sl).resetRegions sl).modTile sl.tileId (fun x => { x with
        phys := x.phys.filter (fun y => y.1 != sl.slot)
        backing := x.backing.filter (fun y => y.1 != sl.slot)
        spilling := x.spilling.filter (fun y => y.slot != sl.slot) })
      let v1 : Slot := { n with
        csr := { n.csr with tickets := v.csr.tickets, cone := v.csr.cone, conecfg := v.csr.conecfg }
        recSeq := v.recSeq
        traps := v.traps
        conex := v.conex
        nextBundle := v.nextBundle
        allBundles := v.allBundles
        rq := v.rq
        lastOrd := v.lastOrd
        lastSeen := v.lastSeen
        seenCmds := v.seenCmds
        fetch := v.fetch
        recAll := v.recAll
        recFloor := v.recFloor
        hostObs := v.hostObs
        hostSeen := v.hostSeen
        bankAt := v.bankAt
        issuer := v.issuer
        arriving := v.arriving
        lastDone := s.now }
      .next ((s1.setSlot sl v1).writeStatus k t1)
  | _, _, _ => .next s

/-- TASK_FAILURE (R334): once its commands in flight have completed, a failing task is failed, its record is written, the
error handler is spawned and the slot is free. -/
def execTaskFailure (sl : SlotId) (s : State) : Out :=
  let v := s.slot sl
  match v.ending, v.task with
  | some (.fail x), some t =>
    if !(s.inflight sl).isEmpty then .next s
    else
      let s1 := (s.endBlock sl 5).writeErrorRecord sl x
      let s2 := s1.countFailure t.kernel
      let s3 := if t.handler then s2
        else s2.spawnHandler t.kernel { t with tickets := v.csr.tickets } [t.tcb.getD 0, s.errorRecordVa sl, x.cause, identity sl]
      .next (s3.releaseSlot sl)
  | _, _ => .next s

/-! ## The deadlock probe (R254, R255) -/

/-- The event flag of a word that is ESET (set) or EWAIT of an engine. -/
def eventFlag (x : Entry) (e : Engine) (set : Bool) : Option Nat :=
  match x.kind with
  | .word => if field x.word 29 3 == e.code && field x.word 22 7 == (if set then 0x7E else 0x7F) then some (x.word % 16)
      else none
  | _ => none

/-- The queue of a slot that holds the earliest unexecuted ESET of a flag. -/
def Slot.setter (v : Slot) (f : Nat) : Option Engine :=
  let found := [Engine.v, .m, .x, .d, .b].filterMap (fun e =>
    let q := v.seq e
    (((q.q.zipIdx.filter (fun y => q.live y.2 && eventFlag y.1 e true == some f)).map (fun y => y.1.born)).min?).map
      (fun n => (n, e)))
  (found.foldl (fun (b : Option (Nat × Engine)) y => match b with
    | none => some y
    | some z => if y.1 < z.1 then some y else b) none).map (·.2)

/-- Wait edges of a party (R254). -/
def State.edges (s : State) (p : Party) : List Party :=
  match p with
  | .core sl =>
    let v := s.slot sl
    match v.stall with
    | some x => [.queue x.target x.engine]
    | none => match v.wait with
      | none => []
      | some w => match w.kind with
        | .bara .. => []
        | .renq .. => []
        | _ => (s.releasers sl).map (fun r => .core r.1)
  | .queue sl e =>
    let v := s.slot sl
    let q := v.seq e
    match (q.q[q.pos]?).bind (fun x => eventFlag x e false) with
    | none => []
    | some f =>
      if mget v.regs.f f 0 != 0 then []
      else match v.setter f with
        | some o => [.queue sl o]
        | none => [.core sl]

/-- The tile of a party. -/
def Party.tile : Party → TileId
  | .core sl => sl.tileId
  | .queue sl _ => sl.tileId

/-- The longest that the next hop of a token takes (R255): 8 cycles within a tile, 64 between tiles. -/
def State.hopBound (s : State) (x : Stall) : Nat :=
  if x.token.all (fun p => (s.edges p).all (fun q => decide (q.tile = p.tile))) then 8 else 64

/-- A token's hop, made at a cycle: it comes back to its origin, is dropped at parties with no edge or after 8 hops, or
stands at the parties that the edges lead to (R255). -/
def State.hopToken (s : State) (sl : SlotId) (x : Stall) (at_ : Nat) : Stall :=
  let onward := (x.token.flatMap s.edges).eraseDups
  if onward.contains (.core sl) then { x with token := [], probe := true }
  else if onward.isEmpty || decide (7 ≤ x.hops) then { x with token := [] }
  else { x with token := onward, hops := x.hops + 1, moved := at_ }

/-- Sends a token from a blocked core (R255). -/
def Stall.send (x : Stall) (sl : SlotId) (at_ : Nat) : Stall :=
  { x with token := [.core sl], hops := 0, moved := at_, probed := at_, probe := false }

/-- PROBE_TOKEN (R255): a core blocked for a further 4,096 cycles sends a token, or its token makes its next hop, at least
a cycle after the last. -/
def execProbeToken (sl : SlotId) (s : State) : Out :=
  match (s.slot sl).stall with
  | none => .next s
  | some x =>
    if x.probed + 4096 ≤ s.now then .next (s.modSlot sl (fun v => { v with stall := some (x.send sl s.now) }))
    else if !x.token.isEmpty && decide (x.moved < s.now) then
      .next (s.modSlot sl (fun v => { v with stall := some (s.hopToken sl x s.now) }))
    else .next s

/-- A token that came back gives its core, still blocked on the same push, the reserve entry, unless that is taken. -/
def State.grantReserve (s : State) (sl : SlotId) : State :=
  match (s.slot sl).stall with
  | none => s
  | some x =>
    if !x.probe then s
    else
      let taken := ((s.slot x.target).seq x.engine).reserve || s.slots.any (fun (e : SlotId × Slot) =>
        match e.2.stall with
        | some y => y.granted && decide (y.target = x.target) && decide (y.engine = x.engine)
        | none => false)
      s.modSlot sl (fun v => { v with stall := some { x with probe := false, granted := x.granted || !taken } })

/-- RESERVE_ENTRY_GRANT (R255). -/
def execReserveEntryGrant (sl : SlotId) (s : State) : Out := .next (s.grantReserve sl)

/-- Hops of a token that are overdue, at most the number given. -/
def State.overdueHops (s : State) (sl : SlotId) : Nat → Stall → Stall
  | 0, x => x
  | n + 1, x =>
    if !x.token.isEmpty && decide (x.moved + s.hopBound x ≤ s.now) then
      s.overdueHops sl n (s.hopToken sl x (x.moved + s.hopBound x))
    else x

/-- What R255 has had to happen by now: a token due is sent, an overdue hop is made, a token that came back is answered. -/
def State.settleProbe (s : State) (sl : SlotId) : State :=
  match (s.slot sl).stall with
  | none => s
  | some x =>
    let y := if x.probed + 4096 ≤ s.now then x.send sl (x.probed + 4096) else x
    (s.modSlot sl (fun v => { v with stall := some (s.overdueHops sl 8 y) })).grantReserve sl

/-- Every blocked core's probe. -/
def State.settleProbes (s : State) : State :=
  ((s.slots.filter (fun (e : SlotId × Slot) => e.2.stall.isSome)).map (·.1)).foldl (fun s sl => s.settleProbe sl) s

/-! ## Waiting on the ready list (R253, R398, R429) -/

/-- The ready lists with every raise that is due. -/
def State.raiseReady (s : State) : State :=
  { s with parts := s.parts.map (fun (p : Nat × Part) => (p.1, { p.2 with
      ready := p.2.ready.map (fun r => r.raised s.now) })) }

/-- Notes since when each ready entry has fitted no tile (R398), or has fitted and may be admitted (R429). -/
def State.noteFit (s : State) : State :=
  { s with parts := s.parts.map (fun (p : Nat × Part) => (p.1, { p.2 with
      ready := p.2.ready.map (fun r =>
        let fits := (s.place p.1 r.tasks 0).isSome
        let may := fits && !p.2.paused && !p.2.resetting && (s.admissible p.2).contains r
        { r with
          unfit := if fits then none else some (r.unfit.getD s.now)
          fitting := if may then some (r.fitting.getD s.now) else none }) })) }

end Sys2Proof.Machine
end

