-- ==== Sys2Proof/Machine/Launch.lean ====
section
/-!
DEFINITION. Launches, leases and page requests (spec/20, R371 to R383).
-/

namespace Sys2Proof.Machine

/-! ## Doorbells (R372) -/

/-- LAUNCH_DOORBELL: a host write of a new TAIL. -/
def execLaunchDoorbell (fn ctx q tail : Nat) (s : State) : Out :=
  let bad := .next (s.countReg fn 0x1040 0 16)
  if (s.ctx fn ctx).state == 0 then bad
  else match s.launchQueue fn ctx q with
    | none => bad
    | some lq =>
      if decide (tail < lq.tail) || decide (lq.head + 2 ^ lq.cap < tail) || lq.feed || !lq.en then bad
      else .next (s.poke .host none (lq.at_ + 8) (toBytes 8 tail))

/-! ## Reading a record (R375, R377 step 1) -/

/-- Bytes at a virtual address through a context's translation, each on a resident page that grants r and is no bank
page. -/
def State.ctxRead (s : State) (fn c va n : Nat) : Option (List Byte) :=
  (List.range n).mapM (fun i =>
    match s.residentPage fn c (va + i) 0 with
    | some p => if p.r && !p.bk then
        some (s.readByte .bank (s.backing .bank p.frame p.size p.shadow (va + i - p.va))) else none
    | none => none)

/-- A range table entry, unless it breaks a limit. -/
def parseRange (b : List Byte) : Option Range :=
  let base := blockNum b 0 8
  let len := blockNum b 8 4
  let attr := blockNum b 12 1
  if base % 0x10000 != 0 || base / 2 ^ 57 != 0 || len == 0 || attr / 4 % 4 == 3 || attr / 32 != 0 || blockNum b 13 3 != 0
  then none
  else some { base := base, len := len * 0x10000, rights := if attr % 4 == 3 then 4 else attr % 4 + 1, cls := attr / 4 % 4,
              shadow := bitOf attr 4 }

/-- Whether a launch record keeps its limits. -/
def launchLimits (b : List Byte) : Bool :=
  let n (o k : Nat) : Nat := blockNum b o k
  n 0 8 % 4 == 0 && n 0 8 / 2 ^ 57 == 0 && n 8 8 % 64 == 0 && n 16 8 % 32 == 0 && n 24 8 % 16 == 0 && n 32 8 % 8 == 0
    && decide (n 50 1 < 64) && decide (n 51 1 ≤ 16) && decide (n 52 1 ≤ 4) && n 53 1 % 4 != 3 && decide (n 53 1 < 16)
    && decide (1 ≤ n 58 2) && decide (n 58 2 ≤ 4096) && decide (1 ≤ n 60 1) && decide (n 60 1 ≤ 32) && decide (n 61 1 < 4)
    && n 62 2 == 0 && n 0 8 != 0 && n 16 8 != 0 && n 24 8 != 0

/-- Whether an address lies in a declared range with r and in no bank range. -/
def readableIn (rs : List Range) (va : Nat) : Bool :=
  let here (r : Range) : Bool := decide (r.base ≤ va) && decide (va < r.base + r.len)
  rs.any (fun r => bitOf r.rights 0 && here r) && !rs.any (fun r => bitOf r.rights 2 && here r)

/-- The kernel that a launch record and its tables describe, unless they are ill-formed. -/
def State.parseLaunch (s : State) (p fn c q i : Nat) (at_ : Nat) : Option Kernel :=
  (s.ctxRead fn c at_ 64).bind (fun b =>
    if !launchLimits b then none
    else
      let n (o k : Nat) : Nat := blockNum b o k
      (s.ctxRead fn c (n 24 8) (16 * n 60 1)).bind (fun rt =>
        (s.ctxRead fn c (n 16 8) (32 * n 58 2)).bind (fun it =>
          ((List.range (n 60 1)).mapM (fun j => parseRange (rt.drop (16 * j)))).bind (fun rs =>
            let ok (va : Nat) : Bool := readableIn rs va
            let opt (va : Nat) : Bool := va == 0 || ok va
            if ok (n 0 8) && ok (n 16 8) && ok (n 24 8) && opt (n 8 8) && opt (n 32 8) && opt (n 40 8) then
              some
                { part := p
                  fn := fn
                  ctx := c
                  queue := q
                  index := i
                  entry := n 0 8
                  cls := n 53 1 % 4
                  rpl := bitOf (n 53 1) 2
                  lf := bitOf (n 53 1) 3
                  prio := n 61 1
                  gangSize := n 50 1 + 1
                  gangs := n 58 2
                  reqm := n 51 1
                  reqa := n 52 1
                  reqr := n 54 2
                  tickets := n 48 2
                  cone := n 56 2
                  ttab := n 8 8
                  sigbase := n 32 8
                  ehentry := n 40 8
                  table := it
                  ranges := rs
                  pages := []
                  revoked := []
                  asked := []
                  refused := none
                  phase := 0
                  failed := 0
                  abandoned := 0
                  status := 0
                  detail := 0 }
            else none))))

/-! ## Ranges and pages (R377 steps 3 and 4) -/

/-- What a walk over a range finds, page by page: the pages that are mapped, with whether each is resident; the 64 KiB
pages that are not mapped; and whether an entry is ill-formed. -/
structure Pages where
  mapped : List (Page × Bool) := []
  missing : List Nat := []
  bad : Bool := false
  deriving DecidableEq, Repr

/-- The pages from an address up to the end of a range. -/
def State.pagesFrom (s : State) (fn c r stop : Nat) : Nat → Nat → Pages
  | 0, _ => {}
  | f + 1, va =>
    if stop ≤ va then {}
    else match s.walk fn c va with
      | .absent =>
        let x := s.pagesFrom fn c r stop f (va + 0x10000)
        { x with missing := va :: x.missing }
      | .bad =>
        let x := s.pagesFrom fn c r stop f (va + 0x10000)
        { x with bad := true }
      | .leaf a e size =>
        let p := pageOfLeaf va a e size r
        let x := s.pagesFrom fn c r stop f (p.va + p.size)
        { x with mapped := (p, (s.residentPage fn c va r).isSome) :: x.mapped }

/-- The pages of a declared range. -/
def State.pagesOf (s : State) (k : Kernel) (r : Nat) : Pages :=
  match k.ranges[r]? with
  | none => {}
  | some x => s.pagesFrom k.fn k.ctx r (x.base + x.len) (x.len / 0x10000) x.base

/-- Whether a mapped page may lie in a lease of a range (R267, R268, R278, R281, R283): its frame is in HBM or in an
aperture, never in the on-chip map, and a peer's page is neither a bank nor a shadow page (R423). -/
def State.pageAllowed (s : State) (part : Nat) (x : Range) (p : Page) : Bool :=
  (!bitOf x.rights 0 || p.r) && (!bitOf x.rights 1 || p.w) && p.bk == bitOf x.rights 2 && (!p.bk || (p.r && p.w))
    && p.sh == x.shadow && p.cls == x.cls && !(p.bk && p.size == 0x10000) && !(p.sh && p.size == 0x10000)
    && s.classFits p && !(isPeer p.frame && (p.bk || p.sh)) && !(decide (0xF000000000 ≤ p.frame) && decide (p.frame < 0xF100000000))
    && bitOf (((s.part? part).map (·.keys)).getD 0) p.key

/-- Whether a range fails step 3 of R377. -/
def State.rangeBad (s : State) (k : Kernel) (r : Nat) : Bool :=
  match k.ranges[r]? with
  | none => true
  | some x =>
    let ends := x.base + x.len
    let meets (lo hi : Nat) : Bool := decide (x.base < hi) && decide (lo < ends)
    let ps := s.pagesOf k r
    k.ranges.zipIdx.any (fun y => y.2 != r && meets y.1.base (y.1.base + y.1.len))
      || meets 0x1FFFFFFC0000000 0x200000000000000 || meets 0x1FFFFFFB0000000 0x1FFFFFFC0000000
      || (bitOf x.rights 2 && (x.cls == 0 || x.shadow || !s.hasBank))
      || ps.bad || ps.mapped.any (fun p => !s.pageAllowed k.part x p.1)

/-- The first range of a kernel that step 3 refuses. -/
def State.firstBadRange (s : State) (k : Kernel) : Option Nat :=
  (List.range k.ranges.length).find? (fun r => s.rangeBad k r)

/-- The pages of a kernel's ranges that are not resident: range and page. -/
def State.absentPages (s : State) (k : Kernel) : List (Nat × Nat) :=
  (List.range k.ranges.length).flatMap (fun r =>
    let ps := s.pagesOf k r
    ps.missing.map (fun va => (r, va)) ++ (ps.mapped.filter (fun p => !p.2)).map (fun p => (r, p.1.va)))

/-- Whether a page of the kernel's ranges lies in a group under reclass (R282). -/
def State.groupLocked (s : State) (k : Kernel) : Bool :=
  (List.range k.ranges.length).any (fun r => (s.pagesOf k r).mapped.any (fun p =>
    p.1.backings.any (fun a => s.classLocks.contains (a / 0x4000000))))

/-! ## Establishing a lease (R377, R395) -/

/-- The 64 KiB frames of a page, of both backings where it is a shadow page. -/
def Page.frames (p : Page) : List Nat :=
  if 0x8000000000 ≤ p.frame then []
  else (List.range ((if p.sh then 2 * p.size else p.size) / 0x10000)).map (fun i => p.frame + 0x10000 * i)

/-- The contents of a frame as they read under another key (R283): what was last written under that key reads as it was
written, and everything else as a free value of the keys, the place and the data. -/
def State.rekey (s : State) (a old new : Nat) : State :=
  if old == new then s
  else (List.range 4096).foldl (fun s i =>
    let b := a + 16 * i
    let bs := (List.range 16).map (fun j => Memory.read s.mem (b + j))
    let w := match mfind (s.frame a).under i with
      | some w => if w.shown == bs then w else ⟨old, bs, bs⟩
      | none => ⟨old, bs, bs⟩
    let now := if w.key == new then w.bytes else toBytes 16 (Config.crossKey w.key new b w.bytes % 2 ^ 128)
    { s with mem := Memory.writeAll s.mem b now }.modFrame a (fun f => { f with
      under := if w.key == new then mdel f.under i else mset f.under i { w with shown := now } })) s

/-- Makes a frame one of a context's instance: a clean one is zeroed first (R395); one that the instance has already
keeps its contents, as they read under the key that its entry names now (R283). -/
def State.ownFrame (s : State) (k : Kernel) (p : Page) (a : Nat) : State :=
  let f := s.frame a
  let key := ((mfind s.mp.keySlots p.key).map (·.2)).getD 0
  let s1 := if f.state == 1 then s.rekey a f.keyVal key else if f.state == 3 then s.zero a 0x10000 else s
  let e := s1.readNum .bank p.leaf 8
  s1.modFrame a (fun f => { f with
    state := 1
    fn := k.fn
    ctx := k.ctx
    tag := (s.ctx k.fn k.ctx).tag
    key := p.key
    pr := bitOf e 61
    pw := bitOf e 62
    part := k.part
    under := if f.state == 1 then f.under else []
    keyVal := key })

/-- Abandons the ready gangs of a partition that no longer fit (R383). -/
def State.dropUnfit (s : State) (p : Nat) : State :=
  let n := 4 * s.nclus p
  match s.part? p with
  | none => s
  | some v =>
    let gone := v.ready.filter (fun r => decide (n < r.tasks.length))
    let s1 := gone.foldl (fun s r => s.modKernel r.kernel (fun k => { k with abandoned := k.abandoned + r.tasks.length })) s
    let s2 := s1.modPart p (fun v => { v with ready := v.ready.filter (fun r => decide (r.tasks.length ≤ n)) })
    ((gone.map (·.kernel)).eraseDups).foldl (fun s k => s.abandonIdle k) s2

/-- The members of a gang of the initial task table (R236, R375). -/
def initialGang (kid : Nat) (k : Kernel) (g c : Nat) : List Task :=
  let b := k.table.drop (32 * g)
  (List.range k.gangSize).map (fun m =>
    { kernel := kid
      tcb := none
      gang := 0
      member := m
      entry := k.entry
      args := [blockNum b 0 8, blockNum b 8 8, blockNum b 16 8].map (BitVec.ofNat 64)
      status := 2
      rsub := 2 ^ k.ranges.length - 1
      seqNo := blockNum b 24 8
      rdyc := c
      prio := k.prio
      tickets := k.tickets
      reqm := k.reqm
      reqa := k.reqa
      reqr := k.reqr
      succ := []
      handler := false
      index := 64 * g + m })

/-- Sets HEAD of a kernel's queue to the record after it (R377, R381). -/
def State.takeRecord (s : State) (k : Kernel) : State :=
  match s.launchQueue k.fn k.ctx k.queue with
  | some q => s.poke .bank none q.at_ (toBytes 8 (k.index + 1))
  | none => s

/-- Ends a launch that did not run, with a status (R377). -/
def State.failLaunch (s : State) (kid status detail : Nat) : State :=
  s.modKernel kid (fun k => { k with phase := 2, status := status, detail := detail })

/-- Establishes the lease of a kernel whose every page is resident (R377); gangs that no longer fit are abandoned
(R383). -/
def State.establish (s : State) (kid : Nat) (k : Kernel) : State :=
  let ps := (List.range k.ranges.length).flatMap (fun r => (s.pagesOf k r).mapped.map (·.1))
  let s1 := ps.foldl (fun s p => p.frames.foldl (fun s a => s.ownFrame k p a) s) s
  let c := s.partCycle k.part
  let s2 := s1.takeRecord k
  let s3 := s2.modKernel kid (fun k => { k with phase := 1, pages := ps, asked := [] })
  ((List.range k.gangs).foldl (fun s g =>
    let ts := initialGang kid k g c
    s.addReady k.part { level := k.prio, rdyc := c, seqNo := ((ts.head?).map (·.seqNo)).getD 0, since := s.now, kernel := kid,
                        tasks := ts }) s3).dropUnfit k.part

/-! ## Page requests (R378) -/

/-- Sends a page request for a page of a kernel, if the function has a group free (R378). -/
def State.askPage (s : State) (kid : Nat) (k : Kernel) (range page : Nat) : State :=
  let f := s.fn k.fn
  if 512 ≤ f.groups.length then s
  else
    let g := f.nextGroup
    let tag := (s.ctx k.fn k.ctx).tag
    let s1 := s.modFn k.fn (fun f => { f with
      groups := f.groups ++ [{ group := g, kernel := kid, page := page, ctx := k.ctx, tag := tag, range := range }]
      nextGroup := g + 1 })
    let s2 := s1.modKernel kid (fun k => { k with asked := mmod k.asked page 0 (· + 1) })
    s2.send 1 [k.fn, g, page, k.ctx, tag]

/-- Requests of a kernel that are outstanding. -/
def State.groupsOf (s : State) (kid : Nat) (k : Kernel) : List PageReq :=
  (s.fn k.fn).groups.filter (fun g => g.kernel == kid && g.ctx == k.ctx && g.tag == (s.ctx k.fn k.ctx).tag)

/-- Pages of a range whose entry names another class than their group has (R281). -/
def State.misclassed (s : State) (k : Kernel) (r : Nat) : List Page :=
  ((s.pagesOf k r).mapped.map (·.1)).filter (fun p => !s.classFits p)

/-- Fails a launch at a refused range; a class mismatch is told to system software (R281, R377, R425). -/
def State.refuseRange (s : State) (kid : Nat) (k : Kernel) (r : Nat) : State :=
  let s1 := match (s.misclassed k r).head? with
    | none => s
    | some p => s.tellMisclass k.part k.fn k.ctx p
  s1.failLaunch kid 3 r

/-- Some pages that are named more than once, each with the first range that names it. -/
def firstNamed : List (Nat × Nat) → List (Nat × Nat)
  | [] => []
  | x :: xs => x :: (firstNamed xs).filter (fun y => y.2 != x.2)

/-- Whether a partition is being reset (R432). -/
def State.partResetting (s : State) (p : Nat) : Bool := ((s.part? p).map (·.resetting)).getD false

/-- Whether launches of a kernel's context have stopped: its partition is being reset, the context is being killed, or the
device has met a fatal error (R405, R431, R441). -/
def State.launchHeld (s : State) (k : Kernel) : Bool :=
  s.fatal.isSome || s.partResetting k.part || (s.ctx k.fn k.ctx).state == 5

/-- Takes a waiting launch as far as it goes: it waits for a reclass of a group that it needs, fails at a range that is
refused, requests the pages that are not resident and not asked for, or establishes its lease (R377, R378, R282). -/
def State.settleLaunch (s : State) (kid : Nat) : State :=
  match mfind s.kernels kid with
  | none => s
  | some k =>
    if k.phase != 0 || s.launchHeld k then s
    else match k.refused with
    | some r => if (s.groupsOf kid k).isEmpty then s.failLaunch kid 2 r else s
    | none =>
      if s.groupLocked k then s
      else match s.firstBadRange k with
      | some r => s.refuseRange kid k r
      | none =>
        let absent := firstNamed (s.absentPages k)
        if absent.isEmpty then s.establish kid k
        else
          let out := (s.groupsOf kid k).map (·.page)
          let worn := absent.filter (fun x => decide (3 ≤ mget k.asked x.2 0) && !out.contains x.2)
          match worn.head? with
          | some x =>
            let s1 := s.modKernel kid (fun k => { k with refused := some x.1 })
            if out.isEmpty then s1.failLaunch kid 2 x.1 else s1
          | none => (absent.filter (fun x => !out.contains x.2)).foldl (fun s x =>
              match mfind s.kernels kid with
              | some k => s.askPage kid k x.1 x.2
              | none => s) s

/-- Takes every waiting launch of a function as far as it goes. -/
def State.settleLaunches (s : State) (fn : Nat) : State :=
  ((s.kernels.filter (fun (k : Nat × Kernel) => k.2.fn == fn && k.2.phase == 0)).map (·.1)).foldl
    (fun s k => s.settleLaunch k) s

/-- PAGE_REQUEST_RESPONSE (R378, R384): an answer to a group. One that names a killed context is dropped and counted; a
failure fails the launch at the range concerned, and the answers after it are ignored. The group that it frees lets
another launch of the function ask. -/
def execPageRequestResponse (fn group : Nat) (ok : Bool) (s : State) : Out :=
  match (s.fn fn).groups.find? (fun g => g.group == group) with
  | none => .next s
  | some g =>
    let s1 := s.modFn fn (fun f => { f with groups := f.groups.filter (fun x => x.group != group) })
    if g.tag != (s.ctx fn g.ctx).tag || (s.ctx fn g.ctx).state == 0 || (s.ctx fn g.ctx).state == 5 then
      .next ((s1.countReg fn 0x1040 16 16).settleLaunches fn)
    else
      let s2 := if ok then s1 else s1.modKernel g.kernel (fun k => { k with refused := some (k.refused.getD g.range) })
      .next (s2.settleLaunches fn)

/-! ## Starting a launch (R376, R377, R382) -/

/-- The queues of a partition from which a launch may begin: function, context and queue (R376). -/
def State.startable (s : State) (p : Nat) : List (Nat × Nat × Nat) :=
  (s.fns.filter (fun (f : Nat × Fn) => f.2.part == some p)).flatMap (fun f =>
    (List.range 8).flatMap (fun c =>
      if (s.ctx f.1 c).state != 1 then []
      else (List.range 8).filterMap (fun q =>
        match s.launchQueue f.1 c q with
        | some lq =>
          if lq.en && decide (lq.head < lq.tail)
              && !s.kernels.any (fun (k : Nat × Kernel) => k.2.fn == f.1 && k.2.ctx == c && k.2.queue == q)
          then some (f.1, c, q) else none
        | none => none)))

/-- A kernel in place of a record that could not be read. -/
def unreadKernel (p fn c q i : Nat) : Kernel :=
  { (default : Kernel) with
    part := p
    fn := fn
    ctx := c
    queue := q
    index := i
    phase := 2
    status := 4 }

/-- The HEAD that a partition reset found in a queue that replays (R382). -/
def Part.replayTo (v : Part) (fn c q : Nat) : Nat :=
  ((v.replay.find? (fun x => x.1 == fn && x.2.1 == c && x.2.2.1 == q)).map (·.2.2.2)).getD 0

/-- Whether a record that a partition reset found in progress, or ended, must not run again (R382): its RPL is 0. -/
def State.mayNotReplay (s : State) (v : Part) (fn c q i at_ : Nat) : Bool :=
  decide (i < v.replayTo fn c q) && (match s.ctxRead fn c at_ 64 with
    | some b => !bitOf (blockNum b 53 1) 2
    | none => false)

/-- Where the record of a launch and its tables lie, as far as they can be read. -/
def State.launchPages (s : State) (fn c at_ : Nat) : List Nat :=
  match s.ctxRead fn c at_ 64 with
  | some b => [at_, blockNum b 24 8, blockNum b 16 8]
  | none => [at_]

/-- LAUNCH_START (R377): the scheduler takes the next record of one queue, any that may begin, and makes its checks. -/
def execLaunchStart (p : Nat) (s : State) : Out :=
  match s.part? p with
  | none => .next s
  | some v =>
    let qs := s.startable p
    if v.resetting || v.paused || s.fatal.isSome || qs.isEmpty then .next s
    else
      let x := qs.getD (Config.freeBits s.fresh % max 1 qs.length) (0, 0, 0)
      match s.launchQueue x.1 x.2.1 x.2.2 with
      | none => .next s
      | some lq =>
        let i := lq.head
        let kid := s.nextKernel
        let s0 := { s with fresh := s.fresh + 1, nextKernel := kid + 1 }
        let begin_ (k : Kernel) : State := { s0 with kernels := mset s0.kernels kid k }
        let unread := unreadKernel p x.1 x.2.1 x.2.2 i
        if s.mayNotReplay v x.1 x.2.1 x.2.2 i (lq.record i) then .next (begin_ { unread with status := 6 })
        else match s.parseLaunch p x.1 x.2.1 x.2.2 i (lq.record i) with
        | none => .next ((s.launchPages x.1 x.2.1 (lq.record i)).foldl (fun s va => s.tellRefused p x.1 x.2.1 va) (begin_ unread))
        | some k =>
          if 4 * s.nclus p < k.gangSize then .next (begin_ { k with phase := 2, status := 5 })
          else .next ((begin_ k).settleLaunch kid)

/-! ## Completion (R380, R381) -/

/-- The completion entry of a kernel, bytes 0 to 7 and 8 to 31 (R381). -/
def completionEntry (k : Kernel) (status cycle : Nat) : List Byte × List Byte :=
  (toBytes 8 (status + (if status == 2 || status == 3 then k.detail * 256 else 0) + k.index % 2 ^ 32 * 2 ^ 32),
   toBytes 8 k.index ++ toBytes 4 k.failed ++ toBytes 4 k.abandoned ++ toBytes 8 cycle)

/-- Writes the completion entry, bytes 8 to 31 first, then the future word (R381); one that cannot be written is lost. -/
def State.writeCompletion (s : State) (k : Kernel) (q : LaunchQueue) (status : Nat) : State :=
  let va := q.entry k.index
  let b := completionEntry k status (s.partCycle k.part)
  match s.residentPage k.fn k.ctx va 0 with
  | none => (s.tellRefused k.part k.fn k.ctx va).countReg k.fn 0x1040 32 16
  | some p =>
    if p.bk then s.countReg k.fn 0x1040 32 16
    else
      let a := s.backing .bank p.frame p.size p.shadow (va - p.va)
      ((((s.poke .bank none (a + 8) b.2).poke .bank none a b.1).setFull a true)).settleReady k.part

/-- KERNEL_COMPLETION (R380, R381): of a kernel that is complete, or of a launch that did not run. -/
def execKernelCompletion (k : Nat) (s : State) : Out :=
  match mfind s.kernels k with
  | none => .next s
  | some x =>
    if decide (x.phase ≤ 1) || s.launchHeld x || !(s.groupsOf k x).isEmpty then .next s
    else
      let s1 := if x.phase == 2 then s.takeRecord x else s
      let s2 := { s1 with kernels := mdel s1.kernels k }
      let status := if x.phase == 2 then x.status else if x.failed != 0 then 1 else 0
      match s2.launchQueue x.fn x.ctx x.queue with
      | none => .next s2
      | some q =>
        let s3 := s2.writeCompletion x q status
        .next (if x.lf && decide (status ≤ 1) then s3.poke .bank none (q.at_ + 40) (toBytes 8 x.index) else s3)

end Sys2Proof.Machine
end

