-- ==== Sys2Proof/Machine/Image.lean ====
section
/-!
DEFINITION. Slot images (spec/21, R400 to R404): the parts whose place R401 and R402 fix are bytes of the save area, written
at a save and read back as they then stand; the rest is held beside them (log entry 29). The spill areas of matrix
registers lie in pinned areas too (R239).
-/

namespace Sys2Proof.Machine

/-- The partition that a function is bound to. -/
def State.partOfFn (s : State) (fn : Nat) : Nat := ((s.fn fn).part).getD 0

/-- Address of a slot's image in its context's save area (R400). -/
def State.imageVa (s : State) (fn c : Nat) (sl : SlotId) : Nat := (s.ctx fn c).saveBase + 0x480000 * identity sl

/-- The memory after bytes are written in a context's pinned areas (R390). -/
def State.writePinned (s : State) (fn c va : Nat) (bs : List Byte) : State :=
  { s with mem := bs.zipIdx.foldl (fun m (x : Byte × Nat) =>
      match s.pinnedPhys fn c (va + x.2) with
      | some a => Memory.write m a x.1
      | none => m) s.mem }

/-- Bytes of a context's pinned areas. -/
def State.readPinned (s : State) (fn c va n : Nat) : List Byte :=
  (List.range n).map (fun i => match s.pinnedPhys fn c (va + i) with
    | some a => s.readByte .bank a
    | none => 0)

/-- A number in a context's pinned areas. -/
def State.pinnedNum (s : State) (fn c va n : Nat) : Nat := ofBytes (s.readPinned fn c va n)

/-- Makes 64 KiB pages of a context's pinned areas read zero. -/
def State.clearPinned (s : State) (fn c va pages : Nat) : State :=
  (List.range pages).foldl (fun s i => match s.pinnedPhys fn c (va + 0x10000 * i) with
    | some a => s.zero a 0x10000
    | none => s) s

/-- Writes cells of a region into its place of an image. -/
def State.writeCells (s : State) (fn c va : Nat) (cs : List Host.Cell) : State :=
  { s with mem := cs.foldl (fun m (x : Host.Cell) =>
      match s.pinnedPhys fn c (va + x.1) with
      | some a => Memory.write m a x.2
      | none => m) s.mem }

/-- Reads a region's cells back from its place of an image. -/
def State.readCells (s : State) (fn c va : Nat) : List Host.Cell :=
  (List.range 4).flatMap (fun i => match s.pinnedPhys fn c (va + 0x10000 * i) with
    | some a => (s.mem.filter (fun x => decide (a ≤ x.1) && decide (x.1 < a + 0x10000))).map (fun x =>
        (x.1 - a + 0x10000 * i, x.2))
    | none => [])

/-- Bits of a list of conditions. -/
def maskOf (n : Nat) (f : Nat → Bool) : Nat := sumOf ((List.range n).map (fun i => if f i then 2 ^ i else 0))

/-- The regions that a slot holds, from storage or from its spilled copies (R401). -/
def State.heldRegions (s : State) (sl : SlotId) : List SavedRegion :=
  (List.range 16).filterMap (fun k =>
    let r := s.region sl k
    if r.owner == some sl.slot then
      let a := s.localPhys sl (k * 0x40000)
      let here (x : Nat) : Bool := decide (a ≤ x) && decide (x < a + 0x40000)
      some { num := k
             cells := (s.mem.filter (fun c => here c.1)).map (fun c => (c.1 - a, c.2))
             poison := (s.poison.filter (fun g => here (64 * g))).map (fun g => g - a / 64)
             cls := r.cls
             pinned := r.pinned
             ralloc := r.ralloc }
    else (r.spilled.find? (fun c => c.slot == sl.slot)).map (fun c =>
      { num := k
        cells := c.cells
        poison := c.poison
        cls := c.cls
        pinned := false
        ralloc := c.ralloc }))

/-- The header of an image (R402), with its STATE. -/
def imageHeader (st ident tag cycle : Nat) (t : Task) (v : Slot) (rs : List SavedRegion) : List Byte :=
  toBytes 2 1 ++ toBytes 1 st ++ toBytes 1 0 ++ toBytes 4 ident ++ toBytes 8 (t.tcb.getD 0) ++ toBytes 2 tag
    ++ toBytes 2 (maskOf 16 (fun k => rs.any (fun r => r.num == k)))
    ++ toBytes 2 (maskOf 16 (fun k => rs.any (fun r => r.num == k && r.pinned)))
    ++ toBytes 2 (maskOf 16 (fun m => v.regs.mbound.contains m))
    ++ toBytes 4 (sumOf (rs.map (fun r => r.cls * 4 ^ r.num)))
    ++ toBytes 1 t.reqa
    ++ toBytes 1 (maskOf 5 (fun i => (v.seq ((Engine.ofCode (i + 1)).getD .v)).reserve))
    ++ toBytes 2 0 ++ toBytes 8 cycle

/-- Numbers of the scalar registers in the order of an image: s0 to s63, the shadows, the kernel copies (R401). -/
def imageScalars : List Nat :=
  List.range 64 ++ (List.range 8).map (· + 120) ++ (List.range 8).map (· + 184)

/-- A handle in its saved form (R262). -/
def Handle.image (h : Handle) : List Byte :=
  toBytes 16 (h.va % 2 ^ 57 + h.frame % 2 ^ 52 * 2 ^ 64 + h.size % 4 * 2 ^ 116 + (if h.r then 2 ^ 118 else 0)
    + (if h.w then 2 ^ 119 else 0) + (if h.bank then 2 ^ 120 else 0) + h.cls % 4 * 2 ^ 121 + (if h.valid then 2 ^ 123 else 0))

/-- A handle from its saved form; its translation is made anew (R263). -/
def Handle.ofImage (x : Nat) : Handle :=
  { va := field x 0 57
    frame := field x 64 52
    size := field x 116 2
    r := bitOf x 118
    w := bitOf x 119
    bank := bitOf x 120
    cls := field x 121 2
    valid := bitOf x 123 }

/-- Numbers of the handles in the order of an image: h0 to h15, then the kernel handles h12 to h15 (R401). -/
def imageHandles : List Nat := List.range 16 ++ [28, 29, 30, 31]

/-- The control core's part of an image (R401): its parts fill 0x800 bytes when the generators, the guard, the mask depth,
mask entries and predicates take 4 bytes each. -/
def imageCore (v : Slot) : List Byte :=
  let c := v.csr
  let r (n : Nat) : Nat := if n == 0 then 0 else (mget v.regs.s n 0).toNat
  (imageScalars.flatMap (fun n => toBytes 8 (r n))) ++ toBytes 8 (if v.level then 1 else 0) ++ toBytes 8 v.pc.toNat
    ++ ([c.fpcsr, c.rngseed, c.cktolAbs, c.cktolRel, c.tickets, c.cone, c.conecfg, c.segsig, c.uivec, c.uistat,
         if c.evlatch then 1 else 0, c.errinj, c.trapcause, c.trappc.toNat, c.trapval.toNat].flatMap (toBytes 8))
    ++ (List.range 4).flatMap (fun k => toBytes 4 (c.gen k))
    ++ imageHandles.flatMap (fun n => (mget v.regs.h n {}).image)
    ++ toBytes 4 v.regs.g ++ toBytes 4 v.regs.mask.length
    ++ (List.range 8).flatMap (fun i => toBytes 4 (v.regs.mask.reverse.getD i 0).toNat)
    ++ (List.range 96).flatMap (fun i => toBytes 4 (v.readP i).toNat)
    ++ (List.range 64).flatMap (fun f => toBytes 8 (mget v.ready f 0 + mget v.issuer f noIdentity * 2 ^ 32))

/-- The distribution registers and the frame counter of an image (R401, R216). -/
def imageDist (v : Slot) : List Byte :=
  (List.range 16).flatMap (fun n => (mget v.regs.d n {}).image) ++ toBytes 2 v.regs.frameCounter

/-- An accumulator tile in an image (R401): values and checksum vectors, then mode, valid, CKV and the number of its
command window's entries, a byte each, and the entries as R130 lays them out. -/
def imageAcc (t : Acc) : List Byte :=
  (List.range 16384).flatMap (fun k => toBytes 5 (mget t.el k 0).toNat)
    ++ [t.cr, t.mr, t.cc, t.mc].flatMap (fun m => (List.range 128).flatMap (fun i => toBytes 4 (mget m i 0).toNat))
    ++ toBytes 1 t.mode ++ toBytes 1 (if t.valid then 1 else 0) ++ toBytes 1 (if t.ckv then 1 else 0)
    ++ toBytes 1 (min 16 t.window.length) ++ toBytes 4 0
    ++ (t.window.take 16).flatMap (fun w => toBytes 8 w.word ++ toBytes 8 w.cap1.toNat ++ toBytes 8 w.cap2.toNat)

/-- A bound stream in an image (R200, R401): the pattern block, then the kind (1 for a write-stream), the bound flag and
the next position. -/
def imageStream (t : Stream) : List Byte :=
  toBytes 8 t.base ++ t.ext.flatMap (toBytes 2) ++ t.str.flatMap (fun d => toBytes 4 (wrapTo 32 d))
    ++ toBytes 1 (if t.write then 1 else 0) ++ toBytes 1 1 ++ toBytes 6 0 ++ toBytes 8 t.next

/-- The word of a queue entry in an image, with its captured values (R130, R214, R401). A marker's and a RENQ entry's is the
core word that pushed it, its register fields zero: a KSET captures its value, an XSET value and step, LOOPB and LOOPE the
number of the bundle, RENQ the block's address and its issuer (log entry 29). -/
def Entry.imageWord (e : Engine) (x : Entry) : Nat × Nat × Nat :=
  let at_ : Nat := e.code * 2 ^ 19
  match x.kind with
  | .word => (x.word, x.cap1.toNat, x.cap2.toNat)
  | .kset n v => (0xC8000000 + at_ + n * 2 ^ 16, v, 0)
  | .xset n v st d => (0xC8400000 + at_ + n * 2 ^ 16 + ((d.map (· + 4)).getD 0), v, st)
  | .loopOpen k b => (0xC8800000 + at_ + k * 2 ^ 16, b, 0)
  | .loopClose b => (0xC8C00000, b, 0)
  | .renq a iss => (0xCAC00000 + e.code, a, identity iss)

/-- A queue entry in an image (R130, R401): word, prefix payload, captured values. -/
def Entry.image (e : Engine) (x : Entry) : List Byte :=
  let w := x.imageWord e
  toBytes 4 w.1 ++ toBytes 4 (x.pre.getD 0) ++ toBytes 8 w.2.1 ++ toBytes 8 w.2.2

/-- What a sequencer's part holds beside its registers and queue (R401): the STAT bits for MBAR of M, the chain position and
the blocks still allowed of X. -/
def imageExtra (e : Engine) (v : Slot) : List Byte :=
  match e, v.chain with
  | .m, _ => toBytes 8 v.mstat
  | .x, some c => toBytes 8 c.next ++ toBytes 8 ((c.left.map (· + 1)).getD 0)
  | _, _ => []

/-- A sequencer in an image (R401): index registers (value, step, base, binding; 2 bytes each), trip counts, the loop stack
from its outermost loop (count, completed iterations, position, run; 4 bytes each), the queue header with the number of
entries and the next one's position, and 33 entries. -/
def imageSeq (e : Engine) (v : Slot) : List Byte :=
  let q := v.seq e
  (List.range 8).flatMap (fun n =>
      let x := mget q.x n {}
      [x.val, x.step, x.base, (x.depth.map (· + 1)).getD 0].flatMap (toBytes 2))
    ++ (List.range 8).flatMap (fun n => toBytes 4 (mget q.k n 0))
    ++ (List.range 4).flatMap (fun i => match q.loops.reverse[i]? with
      | some l => [l.count, l.iters, l.start, l.run].flatMap (toBytes 4)
      | none => List.replicate 16 0)
    ++ toBytes 1 (min 33 q.q.length) ++ toBytes 1 q.pos ++ List.replicate 6 0
    ++ (List.range 33).flatMap (fun i => match q.q[i]? with
      | some x => x.image e
      | none => List.replicate 24 0)
    ++ imageExtra e v

/-- The five sequencers in the order of an image (R401). -/
def imageEngines : List Engine := [.v, .m, .x, .d, .b]

/-- The matrix registers of an image (R401). -/
def imageMatrix (v : Slot) : List Byte :=
  (List.range (16 * 1024)).flatMap (fun i => toBytes 4 (mget v.regs.m i 0).toNat)

/-- Writes a slot's image: STATE 2 first, the contents, then STATE 1 (R400). -/
def State.writeImage (s : State) (fn c : Nat) (sl : SlotId) (t : Task) (v : Slot) (rs : List SavedRegion) : State :=
  let va := s.imageVa fn c sl
  let hd (st : Nat) : List Byte := imageHeader st (identity sl) (s.ctx fn c).tag (s.partCycle sl.part) t v rs
  let s1 := (s.clearPinned fn c va 72).writePinned fn c va (hd 2)
  let s2a := (s1.writePinned fn c (va + 0x100) (imageCore v)).writePinned fn c (va + 0x2000) (imageMatrix v)
  let s2 := imageEngines.zipIdx.foldl (fun s x => s.writePinned fn c (va + 0x900 + 0x400 * x.2) (imageSeq x.1 v)) s2a
  let s3 := v.regs.streams.foldl (fun s (q : Nat × Stream) => s.writePinned fn c (va + 0x1D00 + 48 * q.1) (imageStream q.2)) s2
  let s4 := s3.writePinned fn c (va + 0x12000) (imageDist v)
  let s5 := (List.range 4).foldl (fun s n => s.writePinned fn c (va + 0x1C000 + 0x15000 * n) (imageAcc (mget v.regs.a n {}))) s4
  let s6 := rs.foldl (fun s r => s.writeCells fn c (va + 0x80000 + 0x40000 * r.num) r.cells) s5
  s6.writePinned fn c va (hd 1)

/-- The listed values of a run of numbers in a context's pinned areas, n of w bytes each. -/
def State.pinnedMap (s : State) (fn c va w n : Nat) (k : Nat) : Map Nat (BitVec k) :=
  (List.range n).filterMap (fun i =>
    let x := s.pinnedNum fn c (va + w * i) w
    if x == 0 then none else some (i, BitVec.ofNat k x))

/-- An accumulator tile as an image holds it. -/
def State.readAcc (s : State) (fn c va : Nat) (t : Acc) : Acc :=
  let vec (i : Nat) := s.pinnedMap fn c (va + 0x14000 + 512 * i) 4 128 32
  let b := s.readPinned fn c (va + 0x14800) 392
  { t with
    mode := blockNum b 0 1 % 4
    valid := bitOf (blockNum b 1 1) 0
    ckv := bitOf (blockNum b 2 1) 0
    window := t.window.zipIdx.map (fun x =>
      if x.2 < 16 then { x.1 with
        word := blockNum b (8 + 24 * x.2) 4
        cap1 := BitVec.ofNat 64 (blockNum b (16 + 24 * x.2) 8)
        cap2 := BitVec.ofNat 64 (blockNum b (24 + 24 * x.2) 8) } else x.1)
    el := s.pinnedMap fn c va 5 16384 40
    cr := vec 0
    mr := vec 1
    cc := vec 2
    mc := vec 3 }

/-- A bound stream as an image holds it. -/
def State.readStream (s : State) (fn c va : Nat) (t : Stream) : Stream :=
  let b := s.readPinned fn c va 48
  { t with
    write := bitOf (blockNum b 32 1) 0
    next := blockNum b 40 8
    base := blockNum b 0 4
    ext := (List.range 4).map (fun i => blockNum b (8 + 2 * i) 2)
    str := (List.range 4).map (fun i => toSigned 32 (blockNum b (16 + 4 * i) 4)) }

/-- What an entry of an image is. A task whose identity has changed meanwhile (R434) is known by the entry held beside. -/
def kindOfImage (p : Nat) (was : EntryKind) (w c1 c2 : Nat) : EntryKind :=
  match w / 2 ^ 22 with
  | 800 => .kset (field w 16 3) (c1 % 2 ^ 32)
  | 801 => .xset (field w 16 3) (c1 % 2 ^ 16) (c2 % 2 ^ 16) (if bitOf w 2 then some (field w 0 2) else none)
  | 802 => .loopOpen (field w 16 3) c1
  | 803 => .loopClose c1
  | 811 => .renq c1 (match was with | .renq _ iss => iss | _ => slotOfIdentity p c2)
  | _ => .word

/-- A queue entry as an image holds it; x is what is held beside it. -/
def Entry.ofImage (p : Nat) (x : Entry) (b : List Byte) : Entry :=
  let w := blockNum b 0 4
  let pre := blockNum b 4 4
  match kindOfImage p x.kind w (blockNum b 8 8) (blockNum b 16 8) with
  | .word => { x with
      kind := .word
      word := w
      pre := if pre != 0 || x.pre.isSome then some pre else none
      cap1 := BitVec.ofNat 64 (blockNum b 8 8)
      cap2 := BitVec.ofNat 64 (blockNum b 16 8) }
  | k => { x with kind := k, word := 0 }

/-- A queue with its reserve entry as the header's bit has it (R256, R402). -/
def reserveAs (rsv : Bool) (q : List Entry) : List Entry :=
  if !rsv then q.map (fun x => { x with held := false })
  else if q.any (·.held) then q
  else q.zipIdx.map (fun y => { y.1 with held := y.2 + 1 == q.length })

/-- The loop stack of an image's four places, innermost first, with the bundles held beside. -/
def loopsOfImage (n : Nat → Nat → Nat) (was : List Loop) : List Loop :=
  ((List.range 4).filterMap (fun i =>
    let o := 96 + 16 * i
    if n o 4 == 0 then none
    else some {
      count := n o 4
      iters := n (o + 4) 4
      start := n (o + 8) 4
      run := n (o + 12) 4
      bundle := ((was.reverse[i]?).map (·.bundle)).getD 0 })).reverse

/-- A sequencer as an image holds it, its reserve entry as rsv says. -/
def State.readSeq (s : State) (fn c va : Nat) (rsv : Bool) (q : Sequencer) : Sequencer :=
  let b := s.readPinned fn c va 0x400
  let n (o k : Nat) : Nat := blockNum b o k
  { q with
    x := (List.range 8).map (fun i => (i, {
      val := n (8 * i) 2
      step := n (8 * i + 2) 2
      base := n (8 * i + 4) 2
      depth := if n (8 * i + 6) 2 == 0 then none else some (n (8 * i + 6) 2 - 1) }))
    k := (List.range 8).map (fun i => (i, n (64 + 4 * i) 4))
    loops := loopsOfImage n q.loops
    q := reserveAs rsv ((List.range (min 33 (n 160 1))).map (fun i =>
      Entry.ofImage (s.partOfFn fn) (q.q.getD i {}) (b.drop (168 + 24 * i))) ++ q.q.drop 33)
    pos := n 161 1 }

/-- The chain position as an image holds it. -/
def readChain (b : List Byte) (x : Chain) : Chain :=
  { x with
    next := blockNum b 960 8
    left := if blockNum b 968 8 == 0 then none else some (blockNum b 968 8 - 1) }

/-- A slot as an image holds it, where R401 fixes the place (R403: restored as written). -/
def State.readCore (s : State) (fn c va : Nat) (v : Slot) : Slot :=
  let w (i : Nat) : Nat := s.pinnedNum fn c (va + 0x100 + 8 * i) 8
  let four (o : Nat) : Nat := s.pinnedNum fn c (va + o) 4
  let flag (f : Nat) : Nat := s.pinnedNum fn c (va + 0x700 + 8 * f) 8
  { v with
    level := bitOf (w 80) 0
    seqs := imageEngines.zipIdx.map (fun x =>
      (x.1, s.readSeq fn c (va + 0x900 + 0x400 * x.2) (bitOf (s.pinnedNum fn c (va + 29) 1) (x.1.code - 1)) (v.seq x.1)))
    mstat := s.pinnedNum fn c (va + 0xD00 + 960) 8
    chain := v.chain.map (readChain (s.readPinned fn c (va + 0x1100) 0x400))
    ready := (List.range 64).map (fun f => (f, flag f % 4))
    issuer := (List.range 64).filterMap (fun f =>
      let x := field (flag f) 32 32
      if x == noIdentity then none else some (f, x))
    pc := BitVec.ofNat 64 (w 81 / 4 * 4)
    csr := { v.csr with
      fpcsr := w 82 % 2 ^ 15 &&& 0x5F7F
      rngseed := w 83 % 2 ^ 32
      gens := (List.range 4).map (fun k => (k, four (0x408 + 4 * k)))
      cktolAbs := w 84 % 2 ^ 32
      cktolRel := w 85 % 2 ^ 32
      tickets := w 86 % 2 ^ 16
      cone := w 87 % 2 ^ 16
      conecfg := w 88 % 16
      segIdx := field (w 89) 0 16
      segOpen := bitOf (w 89) 16
      segEng := field (w 89) 17 3
      segBeat := bitOf (w 89) 20
      segLast := field (w 89) 32 32
      uivec := field (w 90) 2 55 * 4
      xdone := field (w 91) 0 8
      bdone := field (w 91) 8 8
      topo := bitOf (w 91) 16
      ovf := bitOf (w 91) 17
      en := bitOf (w 91) 18
      inh := bitOf (w 91) 19
      evlatch := bitOf (w 92) 0
      errinj := w 93
      trapcause := w 94 % 256
      trappc := BitVec.ofNat 64 (w 95)
      trapval := BitVec.ofNat 64 (w 96) }
    regs := { v.regs with
      s := (imageScalars.zipIdx.filter (fun x => x.1 != 0)).map (fun x => (x.1, BitVec.ofNat 64 (w x.2)))
      m := s.pinnedMap fn c (va + 0x2000) 4 (16 * 1024) 32
      mbound := (List.range 16).filter (bitOf (s.pinnedNum fn c (va + 22) 2))
      h := imageHandles.zipIdx.map (fun x => (x.1, Handle.ofImage (s.pinnedNum fn c (va + 0x418 + 16 * x.2) 16)))
      g := four 0x558 % 128
      mask := ((List.range (min 8 (four 0x55C))).map (fun i => BitVec.ofNat 32 (four (0x560 + 4 * i)))).reverse
      p := (List.range 95).map (fun i => (i + 1, BitVec.ofNat 32 (four (0x584 + 4 * i))))
      d := (List.range 16).map (fun n => (n, Dist.ofImage (s.readPinned fn c (va + 0x12000 + 2112 * n) 2112)))
      frameCounter := s.pinnedNum fn c (va + 0x1A400) 2
      a := (List.range 4).map (fun n => (n, s.readAcc fn c (va + 0x1C000 + 0x15000 * n) (mget v.regs.a n {})))
      streams := ((List.range 16).filter (fun q => bitOf (s.pinnedNum fn c (va + 0x1D00 + 48 * q + 33) 1) 0)).map (fun q =>
        (q, s.readStream fn c (va + 0x1D00 + 48 * q) (mget v.regs.streams q default))) } }

/-- The regions that an image's header gives its task, with what is held beside their contents (R401, R402). -/
def State.imageRegions (s : State) (fn c va : Nat) (xs : List SavedRegion) : List SavedRegion :=
  let held := s.pinnedNum fn c (va + 18) 2
  let pinned := s.pinnedNum fn c (va + 20) 2
  let cls := s.pinnedNum fn c (va + 24) 4
  ((List.range 16).filter (bitOf held)).map (fun k =>
    { ((xs.find? (fun r => r.num == k)).getD ⟨k, [], [], 0, false, false⟩) with
      cls := field cls (2 * k) 2
      pinned := bitOf pinned k })

/-- A saved task with its TCB address, its accumulator tiles and its regions as its image's header has them (R402, R403). -/
def State.asWritten (s : State) (fn c : Nat) (x : Saved) : Saved :=
  let va := s.imageVa fn c ⟨s.partOfFn fn, x.tile, x.slotNo⟩
  let tcb := s.pinnedNum fn c (va + 8) 8
  { x with
    regions := s.imageRegions fn c va x.regions
    slot := { x.slot with task := x.slot.task.map (fun t =>
      { t with tcb := if tcb == 0 then none else some tcb, reqa := min 4 (s.pinnedNum fn c (va + 28) 1) }) } }

/-- Whether the image of a saved task may be read (R403). -/
def State.imageValid (s : State) (fn c : Nat) (x : Saved) (p : Nat) : Bool :=
  let va := s.imageVa fn c ⟨p, x.tile, x.slotNo⟩
  s.pinnedNum fn c (va + 2) 1 == 1 && s.pinnedNum fn c (va + 16) 2 == (s.ctx fn c).tag

/-- Marks the images of a context's saved tasks as invalid (R405, R409). -/
def State.dropImages (s : State) (p fn c : Nat) : State :=
  (s.ctx fn c).saved.foldl (fun s x => s.writePinned fn c (s.imageVa fn c ⟨p, x.tile, x.slotNo⟩ + 2) [0]) s

/-! ## Spill areas (R239) -/

/-- Writes the registers that have left a tile's full backing store to the spill areas of their slots, register r at
0x1000 × r (R239, R390; log entry 96). -/
def State.settleArea (s : State) (t : TileId) : State :=
  let x := s.tile t
  let gone := x.backing.drop 64
  if decide (gone = x.area) then s
  else
    let s1 := (gone.filter (fun k => !x.area.contains k)).foldl (fun s k =>
      let sl : SlotId := ⟨t.part, t.tile, k.1⟩
      match s.kernelOf sl with
      | some kn => s.writePinned kn.fn kn.ctx ((s.ctx kn.fn kn.ctx).spillBase + 0x10000 * identity sl + 0x1000 * k.2)
          ((List.range 1024).flatMap (fun i => toBytes 4 (mget (s.slot sl).regs.m (1024 * k.2 + i) 0).toNat))
      | none => s) s
    s1.modTile t (fun y => { y with area := gone })

end Sys2Proof.Machine
end

