-- ==== Sys2Proof/Machine/Context.lean ====
section
/-!
DEFINITION. Contexts: creation, kill, pre-emption and resume, revocation and release, currencies (spec/21, R387 to R406).
-/

namespace Sys2Proof.Machine

/-! ## Commands of CTXCMD (R388, R389) -/

/-- Whether a command's event is a write of the host (log entry 97). -/
def State.hostWrote (s : State) : Bool := Config.freeBits s.fresh % 2 == 1

/-- Begins a command of a function, or goes on with the one in progress: none where another one is, or where the host
writes the same one again, and the write is ignored with OVR set. Whether a command's event is the host's write or the
device's going on is a free value (log entry 97). KILL ends a pre-emption or a resume that it meets (R409); while a context
is being killed no other command of the function runs (R405). -/
def State.beginCommand (s : State) (fn op c : Nat) : Option State :=
  let st := s.reg fn 0x1118
  if bitOf st 0 then
    if s.commandIs fn op c then (if s.hostWrote then none else some { s with fresh := s.fresh + 1 })
    else if op == 2 && (s.reg fn 0x1100 % 16 == 3 || s.reg fn 0x1100 % 16 == 4) && s.reg fn 0x1100 / 16 % 8 == c then
      some (((s.endCommand fn 3 0).setReg fn 0x1100 (op + 16 * c)).setReg fn 0x1118 (st / 2 % 2 * 2 + 0x31))
    else none
  else if (List.range 8).any (fun d => (s.ctx fn d).state == 5) then none
  else some ((s.setReg fn 0x1100 (op + 16 * c)).setReg fn 0x1118 (setField st 0 1 1))

/-- A write that found a command in progress (R388). -/
def State.overrun (s : State) (fn : Nat) : State :=
  { s.setReg fn 0x1118 (setField (s.reg fn 0x1118) 1 1 1) with fresh := s.fresh + 1 }

/-- Whether the partition of a function is being reset (R432). -/
def State.fnResetting (s : State) (fn : Nat) : Bool :=
  match (s.fn fn).part.bind (fun p => s.part? p) with
  | some v => v.resetting
  | none => false

/-- A command that a partition reset ignores, with OVR set (R432). -/
def unlessResetting (fn : Nat) (s : State) (run : Out) : Out := if s.fnResetting fn then .next (s.overrun fn) else run

/-- Runs a command: refused on the physical function where it is one of contexts, and for a context in another state than
those it starts from (R389). A function has 8 contexts (R387). -/
def contextCommand (fn op c : Nat) (from_ : Nat → Bool) (s : State) (run : State → State) : Out :=
  if 32 ≤ fn ∨ 8 ≤ c then .next s
  else match s.beginCommand fn op c with
  | none => .next (s.overrun fn)
  | some s1 =>
    if fn == 0 then .next (s1.endCommand fn 1 0)
    else if !from_ (s.ctx fn c).state && !s.commandIs fn op c then .next (s1.endCommand fn 2 0)
    else .next (run s1)

/-! ## CREATE (R390) -/

/-- The bytes of a function's CTXDESC. -/
def State.descriptor (s : State) (fn : Nat) : List Byte :=
  (List.range 16).flatMap (fun i => toBytes 8 (s.reg fn (0x1200 + 8 * i)))

/-- The 64 KiB pages of an area, by virtual page, with the frames behind them: none where one is not mapped to a class-P
frame of the function, or is a bank page (R390). -/
def State.pinArea (s : State) (fn ptroot base len : Nat) : Option (List (Nat × Nat)) :=
  if base % 0x10000 != 0 || 2 ^ 57 ≤ base + len then none
  else (List.range ((len + 0xFFFF) / 0x10000)).mapM (fun i =>
    let va := base + 0x10000 * i
    match s.walkRoot fn ptroot va with
    | .leaf a e size =>
      let p := pageOfLeaf va a e size 0
      let f := s.backing .bank p.frame p.size p.shadow (va - p.va)
      if p.bk || p.cls != 0 || !s.frameOf fn f then none else some (va / 0x10000, f)
    | _ => none)

/-- Depth of a node in the currency tree (R391). -/
def State.depthOf (s : State) : Nat → Nat → Nat
  | 0, _ => 0
  | f + 1, n => if n = 0 then 0 else s.depthOf f (mget s.currencies n default).parent + 1

/-- Whether a node exists: the root always does. -/
def State.hasNode (s : State) (n : Nat) : Bool := n == 0 || (mfind s.currencies n).isSome

/-- Whether a node lies in a subtree (R391). -/
def State.below (s : State) : Nat → Nat → Nat → Bool
  | 0, _, _ => false
  | f + 1, top, n => n == top || (n != 0 && s.below f top (mget s.currencies n default).parent)

/-- Whether a node lies in the subtree of a function. -/
def State.ownNode (s : State) (fn n : Nat) : Bool :=
  n != 0 && s.hasNode n && (match (s.fn fn).top with
    | some t => s.below 5 t n
    | none => false)

/-- Whether a descriptor passes the checks of R390, with the pinned pages of its areas. -/
def State.checkDescriptor (s : State) (fn : Nat) (b : List Byte) : Option (List (Nat × Nat)) :=
  let n (o k : Nat) : Nat := blockNum b o k
  match (s.fn fn).part with
  | none => none
  | some p =>
    let nl := s.nclus p
    if n 44 1 != p || n 45 3 != 0 || (b.drop 52).any (fun x => x != 0) || n 0 8 % 0x10000 != 0 || !s.frameOf fn (n 0 8)
      || !s.ownNode fn (n 40 2) then none
    else
      (s.pinArea fn (n 0 8) (n 8 8) 512).bind (fun a =>
        (s.pinArea fn (n 0 8) (n 16 8) (2048 * nl)).bind (fun e =>
          (s.pinArea fn (n 0 8) (n 24 8) (0x200000 * nl)).bind (fun x =>
            (s.pinArea fn (n 0 8) (n 32 8) (0x480000 * 32 * nl)).map (fun y => a ++ e ++ x ++ y))))

/-- Tells of the descriptor areas' pages that CREATE refuses for their class (R281). -/
def State.tellAreas (s : State) (fn c : Nat) (b : List Byte) : State :=
  match (s.fn fn).part with
  | none => s
  | some p =>
    let root := blockNum b 0 8
    let pages (base len : Nat) : List Page :=
      (List.range ((len + 0xFFFF) / 0x10000)).filterMap (fun i => s.misclassAt fn root (base + 0x10000 * i))
    let n := s.nclus p
    ([(8, 512), (16, 2048 * n), (24, 0x200000 * n), (32, 0x480000 * 32 * n)].flatMap (fun x => pages (blockNum b x.1 8) x.2)).foldl
      (fun s g => s.tellMisclass p fn c g) s

/-- CREATE (R390). -/
def execCreate (fn ctx : Nat) (s : State) : Out :=
  contextCommand fn 1 ctx (· == 0) s (fun s =>
    let b := s.descriptor fn
    match s.checkDescriptor fn b with
    | none => (s.tellAreas fn ctx b).endCommand fn 1 0
    | some pins =>
      let tag := ((s.fn fn).lastTag + 1) % 65536
      let c : Ctx :=
        { state := 1
          tag := tag
          ptroot := blockNum b 0 8
          lqBase := blockNum b 8 8
          errBase := blockNum b 16 8
          spillBase := blockNum b 24 8
          saveBase := blockNum b 32 8
          node := blockNum b 40 2
          pdeadline := blockNum b 42 2
          slice := blockNum b 48 4
          pinned := pins
          ran := s.now }
      ((s.modFn fn (fun f => { f with lastTag := tag, ctxs := mset f.ctxs ctx c })).revalue).endCommand fn 0 tag)

/-! ## Kill (R405) -/

/-- Starts killing a context (R405): what was in progress on it is abandoned, split stops and every queued entry goes. -/
def State.startKill (s : State) (fn c : Nat) : State :=
  let s0 := if s.commandIs fn 3 c || s.commandIs fn 4 c then s.endCommand fn 3 0 else s
  let st := (s.ctx fn c).state
  let s1 := (if st == 2 || st == 4 then s0.dropImages (s.partOfFn fn) fn c else s0).modCtx fn c (fun x =>
    { x with state := 5, saved := [], modes := [] })
  ((s1.slotsOf fn c).foldl (fun s sl => (s.dropQueues sl).modSlot sl (fun v => { v with
    wait := none
    stall := none
    traps := []
    conex := none
    chain := none })) s1).revalue

/-- KILL (R405): starts it, after a partition reset that runs (R432); every acknowledgement of the dropped writes completes
it. -/
def execKill (fn ctx : Nat) (s : State) : Out :=
  contextCommand fn 2 ctx (fun st => st != 0) s (fun s =>
    if (s.ctx fn ctx).state == 5 || s.fnResetting fn then s else s.startKill fn ctx)

/-- Returns frames to quarantine (R397). -/
def State.quarantine (s : State) (f : Frame → Bool) : State :=
  { s with frames := s.frames.map (fun (x : Nat × Frame) => (x.1, if f x.2 then { x.2 with state := 2 } else x.2)) }

/-- Disables the launch queues of a context in their headers (R371, R405). -/
def State.disableQueues (s : State) (fn c : Nat) : State :=
  (List.range 8).foldl (fun s q => match s.launchQueue fn c q with
    | some lq => if lq.en then s.poke .bank none (lq.at_ + 17) [if lq.feed then 2 else 0] else s
    | none => s) s

/-- Frees everything of a context that is being killed (R405): no write of it performs afterwards (R406). -/
def State.finishKill (s : State) (fn c : Nat) : State :=
  let x := s.ctx fn c
  let ks := (s.kernels.filter (fun (k : Nat × Kernel) => k.2.fn == fn && k.2.ctx == c)).map (·.1)
  let sls := s.slotsOf fn c
  let s1 := { s with
    cmds := s.cmds.filter (fun d => !sls.contains d.slot)
    vis := s.vis.filter (fun (v : Nat × Vis) => !(sls.contains v.2.slot && v.2.done.isNone)) }
  let s2 := sls.foldl (fun s sl => (s.leaveGang sl).emptySlot sl) s1
  let s3 := (s2.modPart (s.partOfFn fn) (fun v => { v with
    ready := v.ready.filter (fun r => !ks.contains r.kernel)
    spawned := v.spawned.filter (fun w => !ks.contains w.kernel)
    replay := v.replay.filter (fun r => !(r.1 == fn && r.2.1 == c)) })).disableQueues fn c
  let s4 := { s3 with kernels := s3.kernels.filter (fun (k : Nat × Kernel) => !ks.contains k.1) }
  let s5 := s4.quarantine (fun f => f.state == 1 && f.fn == fn && f.ctx == c && f.tag == x.tag)
  (s5.modFn fn (fun f => { f with ctxs := mdel f.ctxs c })).revalue

/-- Deletes the currency nodes of a function's subtree (R408). -/
def State.dropSubtree (s : State) (fn : Nat) : State :=
  let own := (s.currencies.filter (fun (c : Nat × Currency) => s.ownNode fn c.1)).map (·.1)
  { s with currencies := s.currencies.filter (fun (c : Nat × Currency) => !own.contains c.1) }.modFn fn
    (fun f => { f with top := none })

/-- Erases key slots (R419). -/
def State.eraseKeys (s : State) (f : Nat → Bool) : State :=
  { s with mp := { s.mp with keySlots := s.mp.keySlots.filter (fun (k : Nat × (Nat × Nat)) => !f k.1) } }

/-- The TDI of a function is in ERROR (R416, R419): the key slots that it loaded are erased, its IDE stream's keys
discarded. -/
def State.inError (s : State) (fn : Nat) : State :=
  let mine (k : Nat) : Bool := match mfind s.mp.keySlots k with
    | some x => x.1 == fn
    | none => false
  (s.modFn fn (fun f => { f with tdi := 3, ide := none })).eraseKeys mine

/-- A function-level reset completes once no context of the function is left (R408): every register returns to its reset
value; outstanding groups are freed; a TDI that was locked is in ERROR (R416). -/
def State.settleReset (s : State) (fn : Nat) : State :=
  if !(s.fn fn).flr || (s.fn fn).ctxs.any (fun (c : Nat × Ctx) => c.2.state != 0) then s
  else
    let s1 := (if (s.fn fn).tdi == 0 then s else s.inError fn).dropSubtree fn
    let f := s1.fn fn
    let g : Fn :=
      { part := f.part
        lastTag := f.lastTag
        tdi := f.tdi
        everLocked := f.everLocked
        ide := f.ide }
    ({ s1 with fns := mset s1.fns fn g }).revalue

/-- KILL_ACKNOWLEDGED (R405). -/
def execKillAcknowledged (fn ctx : Nat) (s : State) : Out :=
  if (s.ctx fn ctx).state != 5 then .next s
  else
    let s1 := s.finishKill fn ctx
    let s2 := if s.commandIs fn 2 ctx then s1.endCommand fn 0 0 else s1
    .next (s2.settleReset fn)

/-! ## Pre-emption (R398 to R401) -/

/-- Image bytes of a task for the choice of a mode (R399). -/
def State.imageBytes (s : State) (sl : SlotId) : Nat := 0x80000 + 0x40000 * (s.heldRegions sl).length

/-- The mode that a cluster chooses for its tasks (R399): 1 drain, 2 save, 3 discard. The cycles still to run are the
device's estimate (log entry 15). -/
def State.chooseMode (s : State) (ts : List SlotId) (cl deadline : Nat) (mayDrain : Bool) : Nat :=
  let q := Config.remainingCycles (64 * s.fresh + cl)
  let tiles := ((ts.map (·.tile)).eraseDups).filter (fun t => t / 4 == cl)
  let most := tiles.foldl (fun m t => max m (sumOf ((ts.filter (fun x => x.tile == t)).map s.imageBytes))) 0
  let done (sl : SlotId) : Bool := match (s.slot sl).wait with
    | some w => (match w.kind with | .tdone => true | _ => false)
    | none => false
  let discardable (sl : SlotId) : Bool := match (s.slot sl).task with
    | some t => t.status / 8 % 8 == 0
    | none => true
  if mayDrain && ts.all done && decide (q ≤ deadline) then 1
  else if decide (q + most / 256 ≤ deadline) || !ts.all discardable then 2
  else 3

/-- Ends the grants that a slot holds as it is pre-empted, each charged with its used time (R309, R310). -/
def State.endGrants (s : State) (sl : SlotId) : State :=
  [Engine.v, .m, .x, .d].foldl (fun s e =>
    if ((s.kiln sl.tileId e).grant.map (·.slot)) == some sl.slot then s.endGrant sl.tileId e else s) s

/-- Starts a pre-emption of a context (R398, R399): each cluster that holds tasks of it chooses a mode; a slot that does
not drain loses its grants. -/
def State.startPreempt (s : State) (fn c us : Nat) (mayDrain auto : Bool) : State :=
  let x := s.ctx fn c
  let d := 2100 * (if us != 0 then us else if x.pdeadline != 0 then x.pdeadline else 200)
  let sls := s.slotsOf fn c
  let cls := (sls.map s.modeCluster).eraseDups
  let modes := cls.flatMap (fun k =>
    let ts := sls.filter (fun sl => s.modeCluster sl == k)
    let m := s.chooseMode ts k d mayDrain
    ((ts.map s.gangNo).eraseDups).map (fun g => (g, (m, k))))
  let s1 := { s with fresh := s.fresh + 1 }.modCtx fn c (fun x => { x with
    state := 2
    started := s.now
    deadline := d
    modes := modes
    nSaved := 0
    nDiscarded := 0
    overran := []
    auto := auto
    restored := 0
    saved := [] })
  let s2 := (sls.filter (fun sl => (mget modes (s.gangNo sl) (1, 0)).1 != 1)).foldl (fun s sl => s.endGrants sl) s1
  (s2.revalue).settlePreempt fn c

/-- PREEMPT (R389, R399). -/
def execPreempt (fn ctx : Nat) (s : State) : Out :=
  if s.commandIs fn 3 ctx then
    .next (if s.hostWrote then s.overrun fn else { s with fresh := s.fresh + 1 }.settlePreempt fn ctx)
  else unlessResetting fn s (contextCommand fn 3 ctx (· == 1) s (fun s => s.startPreempt fn ctx (s.reg fn 0x1108 % 65536) true false))

/-- SLICE_TIMER (R398). -/
def execSliceTimer (fn ctx : Nat) (s : State) : Out :=
  let x := s.ctx fn ctx
  let p := s.partOfFn fn
  let starved := match s.part? p with
    | some v => v.ready.any (fun r => (match r.unfit with | some c => decide (c + 21000 ≤ s.now) | none => false) &&
        (s.place p r.tasks 0).isNone && (match mfind s.kernels r.kernel with
          | some k => !(k.fn == fn && k.ctx == ctx)
          | none => false))
    | none => false
  if x.state == 1 && x.slice != 0 && decide (x.ran + 2100 * x.slice ≤ s.now) && starved then
    .next (s.startPreempt fn ctx 0 true false)
  else .next s

/-- The pre-emption that concerns a slot: function, context, and the mode of its cluster. -/
def State.preempting (s : State) (sl : SlotId) : Option (Nat × Nat × Nat) :=
  match s.kernelOf sl with
  | some k =>
    let x := s.ctx k.fn k.ctx
    if x.state == 2 then some (k.fn, k.ctx, (x.modeOf (s.gangNo sl)).1) else none
  | none => none

/-- A slot whose cluster drains past the deadline: its cluster overruns, and its tasks are saved (R400). -/
def State.drainOver (s : State) (sl : SlotId) : State :=
  match s.preempting sl with
  | some (fn, c, 1) =>
    let x := s.ctx fn c
    if x.started + x.deadline ≤ s.now then
      let cl := (x.modeOf (s.gangNo sl)).2
      s.modCtx fn c (fun x => { x with
        modes := x.modes.map (fun (y : Nat × (Nat × Nat)) => if y.2 == (1, cl) then (y.1, (2, cl)) else y)
        overran := if x.overran.contains cl then x.overran else cl :: x.overran })
    else s
  | _ => s

/-- DRAIN_DEADLINE (R400): a task that has not retired by the deadline is saved, and its cluster overruns. -/
def execDrainDeadline (sl : SlotId) (s : State) : Out := .next (s.drainOver sl)

/-- The slots of a slot's gang that still hold its tasks; the slot alone where it has none. -/
def State.gangSlots (s : State) (sl : SlotId) : List SlotId :=
  match s.gangOf sl with
  | some g => (g.members.map (·.2)).filter (fun m => (s.slot m).task.isSome && ((s.slot m).task.map (·.gang)) == ((s.slot sl).task.map (·.gang)))
  | none => [sl]

/-- Whether nothing of a gang is in flight, so that its images may be written (R214, R400). The reply of a word that is
still queued is saved with the word. -/
def State.settled (s : State) (sl : SlotId) : Bool :=
  (s.gangSlots sl).all (fun m => (s.inflight m).isEmpty && (s.slot m).drained
    && (match (s.slot m).chain with | some c => !c.begun | none => true))

/-- What a saved slot keeps (R214, R243, R302): the core splits its blocking word again, buffered stream elements are read
again, and the issuers on their way to its ready flags are recorded. -/
def Slot.atSave (v : Slot) : Slot :=
  { v.arriveBy (fun _ => true) with
    wait := none
    stall := none
    yield := []
    regs := { v.regs with streams := v.regs.streams.map (fun (x : Nat × Stream) => (x.1, { x.2 with filled := [] })) } }

/-- Saves a slot (R400): its image is written and it is free; its gang keeps its place. -/
def State.saveSlot (s0 : State) (sl : SlotId) (fn c : Nat) (t : Task) : State :=
  let s := (List.range 16).foldl (fun s k =>
    if (s.region sl k).owner == some sl.slot then s.settle ⟨sl.part, sl.tile, 8⟩ 0 (s.localPhys sl (k * 0x40000)) 0x40000 else s)
    (s0.endGrants sl)
  let v := (s.slot sl).atSave
  let rs := s.heldRegions sl
  let ks := (s.tile sl.tileId).kilns
  let x : Saved :=
    { tile := sl.tile
      slotNo := sl.slot
      slot := v
      regions := rs
      gang := t.gang
      loss := ks.map (fun (k : Engine × Kiln) => (k.1, mget k.2.loss sl.slot 0))
      factor := ks.map (fun (k : Engine × Kiln) => (k.1, k.2.factorOf sl.slot)) }
  let cl := ((s.ctx fn c).modeOf t.gang).2
  let s1 := s.writeImage fn c sl t v rs
  let s2 := s1.emptySlot sl
  s2.modCtx fn c (fun y => { y with
    saved := y.saved ++ [x]
    nSaved := y.nSaved + 1
    overran := if decide (y.started + y.deadline < s.now) && !y.overran.contains cl then cl :: y.overran else y.overran })

/-- The saved tasks of a gang. -/
def savedGang (xs : List Saved) (g : Nat) : List Saved := xs.filter (fun x => x.gang == g)

/-- The saved members of a gang are saved no more: their images are marked invalid (R434). -/
def State.dropSaved (s : State) (fn c g : Nat) : State :=
  let xs := savedGang (s.ctx fn c).saved g
  (xs.foldl (fun s x => s.writePinned fn c (s.imageVa fn c ⟨s.partOfFn fn, x.tile, x.slotNo⟩ + 2) [0]) s).modCtx fn c
    (fun y => { y with saved := y.saved.filter (fun x => x.gang != g), nSaved := y.nSaved - xs.length })

/-- Tasks of a gang in member order. -/
def byMember (ts : List Task) : List Task := (List.range 64).flatMap (fun m => ts.filter (fun t => t.member == m))

/-- A discarded gang goes back to the ready list as one entry (R400), with the members that were saved already (R434); one
larger than its partition has become is abandoned (R383). -/
def State.discardGang (s0 : State) (sl : SlotId) (fn c : Nat) (k : Kernel) : State :=
  let g := s0.gangNo sl
  let xs := savedGang (s0.ctx fn c).saved g
  let s := s0.dropSaved fn c g
  let ms := s.gangSlots sl
  let ts := byMember (ms.filterMap (fun m => (s.slot m).task) ++ xs.filterMap (fun x => x.slot.task))
  let back (t : Task) : Task := { t with status := t.status / 64 % 4 * 64 + 2 }
  let s1 := ts.foldl (fun s t => (s.writeStatus k (back t)).writeHome k t 0xFFFFFFFF) s
  let s2 := ms.foldl (fun s m => (s.leaveGang m).emptySlot m) s1
  match ts.head? with
  | none => s2
  | some t =>
    let r : Ready :=
      { level := t.prio
        rdyc := t.rdyc
        seqNo := t.seqNo
        since := s.now
        kernel := t.kernel
        tasks := ts.map back }
    ((s2.addReady k.part r).modCtx fn c (fun y => { y with nDiscarded := y.nDiscarded + ts.length })).dropUnfit k.part

/-- TASK_SAVE (R400): a task that is pre-empted is saved once its work in flight has completed, or discarded with its
gang. -/
def execTaskSave (sl : SlotId) (s : State) : Out :=
  match s.preempting sl, (s.slot sl).task, s.kernelOf sl with
  | some (fn, c, m), some t, some k =>
    let discard := (s.slot sl).ending == some .discard
    if ((s.slot sl).ending.isSome && !discard) || (m == 1 && !discard) then .next s
    else if m == 2 && !discard then
      if !s.settled sl then .next s else .next ((s.saveSlot sl fn c t).settlePreempt fn c)
    else
      let s1 := (s.gangSlots sl).foldl (fun s m => (s.dropQueues m).dropEpi m) s
      if (s.gangSlots sl).any (fun m => !(s1.inflight m).isEmpty) then
        .next ((s.gangSlots sl).foldl (fun s m => s.modSlot m (fun v => { v with chain := none })) s1)
      else .next ((s1.discardGang sl fn c k).settlePreempt fn c)
  | _, _, _ => .next s

/-! ## Resume (R404) -/

/-- Whether a saved task may be restored to a slot: the slot is free, the image valid, and its reservations fit, with its
own regions (R404). -/
def State.mayRestore (s : State) (fn c : Nat) (x : Saved) (sl : SlotId) : Bool :=
  let on := s.tasksOn sl.tileId
  match x.slot.task with
  | none => false
  | some k => (s.slot sl).task.isNone && s.imageValid fn c x sl.part
      && decide (sumOf (on.map (·.reqm)) + k.reqm ≤ 64) && decide (sumOf (on.map (·.reqa)) + k.reqa ≤ 8)
      && x.regions.all (fun r => s.regionFree sl.tileId r.num)

/-- The state with a slot and the regions of a saved task taken, for the choice of the others' places. -/
def State.occupied (s : State) (x : Saved) (sl : SlotId) : State :=
  (s.setSlot sl { (default : Slot) with task := x.slot.task }).modTile sl.tileId (fun t =>
    { t with regions := x.regions.foldl (fun m r => mmod m r.num {} (fun g => { g with owner := some sl.slot })) t.regions })

/-- Where the saved tasks of a gang go: each to its own slot, or where its cluster is gone to the first slot of a remaining
tile that fits and that no other member takes, or where every tile has a member of a gang larger than the partition has
become, to one that has one already (R404, R434, R383). None unless all of them find a place. -/
def State.restorePlaces (s : State) (p fn c : Nat) (used : List Nat) : List Saved → Option (List (Saved × SlotId))
  | [] => some []
  | x :: xs =>
    let n := 4 * s.nclus p
    let own : SlotId := ⟨p, x.tile, x.slotNo⟩
    let free := (List.range n).filter (fun t => !used.contains t)
    let cands := if x.tile < n then [own]
      else (if free.isEmpty then List.range n else free).flatMap (fun t => (List.range 8).map (fun i => ⟨p, t, i⟩))
    match cands.find? (fun sl => s.mayRestore fn c x sl) with
    | none => none
    | some sl => ((s.occupied x sl).restorePlaces p fn c (sl.tile :: used) xs).map (fun r => (x, sl) :: r)

/-- The places of a whole saved gang, as its images have it: those whose cluster is left take theirs first. -/
def State.gangPlaces (s : State) (p fn c : Nat) (ys : List Saved) : Option (List (Saved × SlotId)) :=
  let zs := ys.map (s.asWritten fn c)
  let stays (x : Saved) : Bool := decide (x.tile < 4 * s.nclus p)
  s.restorePlaces p fn c ((zs.filter stays).map (·.tile)) (zs.filter stays ++ zs.filter (fun x => !stays x))

/-- A queue entry after a slot has another name. -/
def Entry.rename (a b : SlotId) (e : Entry) : Entry :=
  match e.kind with
  | .renq k x => if decide (x = a) then { e with kind := .renq k b } else e
  | _ => e

/-- A slot's queues after a slot has another name. -/
def Slot.rename (a b : SlotId) (v : Slot) : Slot :=
  { v with seqs := v.seqs.map (fun (q : Engine × Sequencer) => (q.1, { q.2 with q := q.2.q.map (Entry.rename a b) })) }

/-- An agent of a slot after the slot has another name. -/
def renameAgent (a b : SlotId) : Agent → Agent
  | .core x => .core (if decide (x = a) then b else x)
  | .eng x e => .eng (if decide (x = a) then b else x) e
  | g => g

/-- A task takes the identity of another slot (R434): its gang, the visibility of its writes and the entries that answer it
know it there. -/
def State.rename (s : State) (a b : SlotId) : State :=
  if decide (a = b) then s
  else { s with
    gangs := s.gangs.map (fun (g : Nat × Gang) => (g.1, { g.2 with
      members := g.2.members.map (fun (m : Nat × SlotId) => (m.1, if decide (m.2 = a) then b else m.2)) }))
    vis := s.vis.map (fun (v : Nat × Vis) => (v.1, if decide (v.2.slot = a) then { v.2 with slot := b } else v.2))
    hist := s.hist.map (fun (r : Rec) => { r with by_ := renameAgent a b r.by_, seen := r.seen.map (fun x => (renameAgent a b x.1, x.2)) })
    pubs := s.pubs.map (fun (p : Pub) => { p with
      agents := p.agents.map (fun x => (renameAgent a b x.1, x.2))
      fences := p.fences.map (fun x => if decide (x = a) then b else x) })
    slots := s.slots.map (fun (e : SlotId × Slot) => (e.1, e.2.rename a b))
    fns := s.fns.map (fun (f : Nat × Fn) => (f.1, { f.2 with ctxs := f.2.ctxs.map (fun (c : Nat × Ctx) =>
      (c.1, { c.2 with saved := c.2.saved.map (fun x => { x with slot := x.slot.rename a b }) })) })) }

/-- A handle as it is after a resume (R263): translated again, and valid only where its page still lies in a declared
range with the same rights and class. -/
def State.revalidate (s : State) (sl : SlotId) (h : Handle) : Handle :=
  if !h.valid then h
  else match s.leaseHandle sl h.va with
    | some n => if n.r == h.r && n.w == h.w && n.bank == h.bank && n.cls == h.cls then n else { h with valid := false }
    | none => { h with valid := false }

/-- Restores one saved task (R404, R302): its handles are translated again, and the kernel handles are invalid (R69). -/
def State.restoreTask (s0 : State) (fn c : Nat) (x : Saved) (sl : SlotId) : State :=
  let old : SlotId := ⟨sl.part, x.tile, x.slotNo⟩
  let s := s0.rename old sl
  let va := s.imageVa fn c old
  let v := s.readCore fn c va x.slot
  let s1 := x.regions.foldl (fun s r =>
    let a := s.localPhys sl (r.num * 0x40000)
    let s1 := s.zero a 0x40000
    let s2 := { s1 with
      mem := (s.readCells fn c (va + 0x80000 + 0x40000 * r.num)).foldl (fun m (y : Host.Cell) => Memory.write m (a + y.1) y.2)
        s1.mem
      poison := r.poison.map (· + a / 64) ++ s1.poison }
    s2.modTile sl.tileId (fun t => { t with regions := mmod t.regions r.num {} (fun g => { g with
      owner := some sl.slot
      cls := r.cls
      pinned := r.pinned
      ralloc := r.ralloc
      immune := 0 }) })) s
  let topo := v.csr.topo || (s.ctx fn c).topo
  let latch := v.csr.evlatch || ((s.ctx fn c).topo && !v.csr.en)
  let s2 := (s1.writePinned fn c (va + 2) [0]).setSlot sl { (v.rename old sl) with
    resumed := true
    recSeq := (s.slot sl).recSeq
    csr := { v.csr with topo := topo, evlatch := latch } }
  let s3 := s2.modRegs sl (fun r => { r with h := r.h.map (fun (y : Nat × Handle) =>
    (y.1, if decide (28 ≤ y.1) then { y.2 with valid := false } else s2.revalidate sl y.2)) })
  let s4 := s3.modTile sl.tileId (fun t => { t with
    kilns := [Engine.v, .m, .x, .d].foldl (fun ks e => mmod ks e {} (fun (k : Kiln) => { k with
      loss := mset k.loss sl.slot (mget x.loss e 0)
      factor := mset k.factor sl.slot (mget x.factor e 0x10000) })) t.kilns })
  let mine := (s4.vis.filter (fun (e : Nat × Vis) => decide (e.2.slot = sl))).map (·.1)
  let s5 := ((s4.see sl mine).fenceM sl 5).fenceI sl 5
  s5.modSlot sl (fun v => { v with lastOrd := s5.seqT })

/-- The identity of member 0 of a saved gang, or of the lowest member that is saved (R404). -/
def gangOrder (xs : List Saved) (g : Nat) : Nat :=
  let ys := savedGang xs g
  match ys.find? (fun x => ((x.slot.task.map (·.member)).getD 0) == 0) with
  | some x => x.tile * 8 + x.slotNo
  | none => ys.foldl (fun m x => min m (x.tile * 8 + x.slotNo)) 65536

/-- Restores the next saved gang that finds its place, or ends the resume (R404). -/
def State.continueResume (s : State) (fn c : Nat) : State :=
  let x := s.ctx fn c
  let p := s.partOfFn fn
  if x.saved.isEmpty then
    let s1 := (s.modCtx fn c (fun y => { y with
      state := 1
      ran := s.now
      auto := false
      topo := false })).revalue
    if s.commandIs fn 4 c then s1.endCommand fn 0 x.restored else s1
  else
    let gs := (x.saved.map (·.gang)).eraseDups
    let ok := gs.filter (fun g => (s.gangPlaces p fn c (savedGang x.saved g)).isSome)
    match ok with
    | [] => s
    | g0 :: _ =>
      let g := ok.foldl (fun b g => if gangOrder x.saved g < gangOrder x.saved b then g else b) g0
      let ys := (s.gangPlaces p fn c (savedGang x.saved g)).getD []
      let s1 := ys.foldl (fun s y => s.restoreTask fn c y.1 y.2) s
      let s2 := (s1.modCtx fn c (fun y => { y with
        saved := y.saved.filter (fun z => z.gang != g)
        restored := y.restored + ys.length })).revalue
      ys.foldl (fun s y => s.installFor y.2) s2

/-- Whether a partition takes no task now: it is being reset or a layout commit has paused it (R431, R436). -/
def State.held (s : State) (p : Nat) : Bool :=
  match s.part? p with
  | some v => v.resetting || v.paused
  | none => true

/-- A context begins to resume. -/
def State.startResume (s : State) (fn ctx : Nat) : State := s.modCtx fn ctx (fun y => { y with state := 4, restored := 0 })

/-- The host's RESUME (R389): it starts the restoring, and is ignored with OVR set where a command is in progress. -/
def hostResume (fn ctx : Nat) (s : State) : Out :=
  if bitOf (s.reg fn 0x1118) 0 then .next (s.overrun fn)
  else contextCommand fn 4 ctx (· == 3) s (·.startResume fn ctx)

/-- RESUME (R389, R404): the host's write starts it, and the device restores the saved gangs one by one; which of the two
an event is, is a free value where both can be (log entry 97). -/
def execResume (fn ctx : Nat) (s : State) : Out :=
  let x := s.ctx fn ctx
  let own := x.state == 4 || (x.auto && x.state == 3)
  let s1 := { s with fresh := s.fresh + (if own then 1 else 0) }
  if own && !s.hostWrote then
    .next (if s.held (s.partOfFn fn) then s1 else if x.state == 4 then s1.continueResume fn ctx else s1.startResume fn ctx)
  else hostResume fn ctx s1

/-! ## Revocation, release and scrubbing (R396, R397) -/

/-- Whether a span of 64 KiB multiples meets a range. -/
def meetsSpan (base len lo n : Nat) : Bool := decide (0 < len) && decide (base < lo + n) && decide (lo < base + len)

/-- Whether a command in flight still has to write to frames that satisfy a test. -/
def State.busyOn (s : State) (f : Nat → Bool) : Bool :=
  s.cmds.any (fun c => c.moves.any (fun m => f (s.moveAddr m)) || c.dst.any (fun d => f d.1) || c.src.any (fun d => f d.1)
    || (!c.executed && f c.phys))

/-- Copies in flight whose source is being revoked (R197): whether a read of each was still to come, and is refused, is
a free pick; the copy then writes nothing more and fails. -/
def State.refuseReads (s : State) (f : Nat → Bool) : State :=
  { s with
    fresh := s.fresh + 1
    cmds := s.cmds.map (fun c =>
      if c.engine == .x && c.src.any (fun d => f d.1) && Config.pick s.fresh c.id % 2 == 1 then
        { c with moves := [], regMoves := [], stat := c.stat ||| stFAIL }
      else c) }

/-- REVOKE (R396, R379): every declared range of the context's kernels that meets the span leaves its lease, once every
access that passed its check has performed. -/
def execRevoke (fn ctx : Nat) (s : State) : Out :=
  unlessResetting fn s (contextCommand fn 5 ctx (fun st => st == 1 || st == 3) s (fun s =>
    let base := s.reg fn 0x1108
    let len := s.reg fn 0x1110
    if base % 0x10000 != 0 || len % 0x10000 != 0 then s.endCommand fn 1 0
    else
      let hits (k : Kernel) : List Nat :=
        if k.fn == fn && k.ctx == ctx && k.phase != 2 then
          (List.range k.ranges.length).filter (fun r => !k.revoked.contains r && (match k.ranges[r]? with
            | some x => meetsSpan base len x.base x.len
            | none => false))
        else []
      let all := s.kernels.map (fun (k : Nat × Kernel) => (k.1, hits k.2))
      let frames (a : Nat) : Bool := s.kernels.any (fun (k : Nat × Kernel) => k.2.pages.any (fun p =>
        (hits k.2).contains p.range && decide (p.frame ≤ a) && decide (a < p.frame + (if p.sh then 2 else 1) * p.size)))
      if s.busyOn frames then s.refuseReads frames
      else
        let s1 := all.foldl (fun s x => if x.2.isEmpty then s else s.modKernel x.1 (fun k =>
          if k.phase == 0 then { k with phase := 2, status := 3, detail := x.2.headD 0 }
          else { k with revoked := x.2 ++ k.revoked })) s
        let gone (sl : SlotId) (h : Handle) : Bool := match s.kernelOf sl with
          | some k => k.fn == fn && k.ctx == ctx && (hits k).any (fun r => k.inRange r h.va)
          | none => false
        let s2 := { s1 with slots := s1.slots.map (fun (e : SlotId × Slot) => (e.1, { e.2 with
          regs := { e.2.regs with h := e.2.regs.h.map (fun (y : Nat × Handle) =>
            (y.1, if gone e.1 y.2 then { y.2 with valid := false } else y.2)) } })) }
        s2.endCommand fn 0 (sumOf (all.map (fun x => x.2.length)))))

/-- RELEASE (R397): the frames mapped in the span go to quarantine; refused where a page of it, or a frame (R409), lies
in an established lease. -/
def execRelease (fn ctx : Nat) (s : State) : Out :=
  unlessResetting fn s (contextCommand fn 6 ctx (fun st => st == 1 || st == 3) s (fun s =>
    let base := s.reg fn 0x1108
    let len := s.reg fn 0x1110
    let leased := s.kernels.any (fun (k : Nat × Kernel) => k.2.fn == fn && k.2.ctx == ctx && (k.2.phase == 1 || k.2.phase == 3) &&
      k.2.pages.any (fun p => !k.2.revoked.contains p.range && meetsSpan base len p.va p.size))
    let ps := (s.pagesFrom fn ctx 0 (base + len) (len / 0x10000) base).mapped.map (·.1)
    let alias_ := s.kernels.any (fun (k : Nat × Kernel) => (k.2.phase == 1 || k.2.phase == 3) && k.2.pages.any (fun p =>
      !k.2.revoked.contains p.range && ps.any (fun q => q.frames.any p.frames.contains)))
    if base % 0x10000 != 0 || len % 0x10000 != 0 || leased || alias_ then s.endCommand fn 1 0
    else
      let mine (a : Nat) : Bool :=
        let f := s.frame a
        ((f.state == 0 || f.state == 3) && Config.poolOf (a / 0x10000) == fn)
          || (f.state == 1 && f.fn == fn && f.ctx == ctx && f.tag == (s.ctx fn ctx).tag)
      let fs := ((ps.flatMap Page.frames).filter (fun a => mine a && !s.pinnedFrame a)).eraseDups
      let s1 := fs.foldl (fun s a => s.modFrame a (fun f => { f with state := 2, part := s.partOfFn fn })) s
      let s2 := { s1 with parts := s1.parts.map (fun (p : Nat × Part) => (p.1, { p.2 with
        tiles := p.2.tiles.map (fun (t : Nat × Tile) => (t.1, { t.2 with
          cache := t.2.cache.filter (fun e => !fs.contains (e.table / 0x10000 * 0x10000)) })) })) }
      s2.endCommand fn 0 fs.length))

/-- FRAME_SCRUB (R397): a quarantined frame whose writes are over and that no bank queue concerns reads zero, no cached
copy and no handle maps it, and it is clean. -/
def execFrameScrub (f : Nat) (s : State) : Out :=
  let a := f * 0x10000
  let here (x : Nat) : Bool := decide (a ≤ x) && decide (x < a + 0x10000)
  if (s.frame a).state != 2 || s.busyOn here then .next s
  else
    let s0 := (s.zero a 0x10000).modFrame a (fun x => { x with state := 3, under := [] })
    let maps (h : Handle) : Bool := decide (h.frame < a + 0x10000) && decide (a < h.frame + pageBytes h.size)
    let s1 := { s0 with slots := s0.slots.map (fun (e : SlotId × Slot) => (e.1, { e.2 with regs := { e.2.regs with
      h := e.2.regs.h.map (fun (y : Nat × Handle) => (y.1, if maps y.2 then { y.2 with valid := false } else y.2)) } })) }
    .next { s1 with parts := s1.parts.map (fun (p : Nat × Part) => (p.1, { p.2 with
      tiles := p.2.tiles.map (fun (t : Nat × Tile) => (t.1, { t.2 with cache := t.2.cache.filter (fun e => !here e.table) })) })) }

/-! ## Currencies (R391) -/

/-- Runs a command that names no context. -/
def plainCommand (fn op : Nat) (s : State) (run : State → State) : Out :=
  if 32 ≤ fn then .next s
  else match s.beginCommand fn op 0 with
  | none => .next (s.overrun fn)
  | some s1 => .next (run s1)

/-- Node numbers that are free. -/
def State.freeNodes (s : State) : List Nat := (List.range 1024).filter (fun n => !s.hasNode n)

/-- CURNEW: which free number the node takes is a free value (log entry 20). -/
def execCurnew (fn _ctx : Nat) (s : State) : Out :=
  plainCommand fn 7 s (fun s =>
    let a := s.reg fn 0x1108
    let parent := a % 1024
    let vf := s.reg fn 0x1110 % 32
    let tops := fn == 0 && parent == 0
    let ns := s.freeNodes
    if !s.hasNode parent || decide (3 < s.depthOf 5 parent + 1) || (fn != 0 && !s.ownNode fn parent) || ns.isEmpty
      || (tops && vf == 0) then s.endCommand fn 1 0
    else
      let n := ns.getD (Config.freeBits s.fresh % max 1 ns.length) 0
      let s1 := { s with
        fresh := s.fresh + 1
        currencies := mset s.currencies n { parent := parent, funding := field a 32 32, topOf := if tops then vf else 0 } }
      let s2 := if tops then s1.modFn vf (fun f => { f with top := some n }) else s1
      (s2.revalue).endCommand fn 0 n)

/-- Whether a caller may fund or delete a node: below its own top, or any node for the physical function. -/
def State.mayChange (s : State) (fn n : Nat) : Bool :=
  n != 0 && s.hasNode n && (fn == 0 || (s.ownNode fn n && (s.fn fn).top != some n))

/-- CURFUND. -/
def execCurfund (fn _ctx : Nat) (s : State) : Out :=
  plainCommand fn 8 s (fun s =>
    let a := s.reg fn 0x1108
    let n := a % 1024
    if !s.mayChange fn n then s.endCommand fn 1 0
    else
      ({ s with currencies := mmod s.currencies n default (fun c => { c with funding := field a 32 32 }) }.revalue).endCommand
        fn 0 0)

/-- CURDEL: refused while the node has children or a context names it; a function whose top it is has none then. -/
def execCurdel (fn _ctx : Nat) (s : State) : Out :=
  plainCommand fn 9 s (fun s =>
    let n := s.reg fn 0x1108 % 1024
    let used := s.currencies.any (fun (c : Nat × Currency) => c.2.parent == n) ||
      s.fns.any (fun (f : Nat × Fn) => f.2.ctxs.any (fun (c : Nat × Ctx) => c.2.state != 0 && c.2.node == n))
    if !s.mayChange fn n || used then s.endCommand fn 1 0
    else
      let top := (mget s.currencies n default).topOf
      let s1 := { s with currencies := mdel s.currencies n }
      ((if top != 0 && (s.fn top).top == some n then s1.modFn top (fun f => { f with top := none }) else s1).revalue).endCommand
        fn 0 0)

end Sys2Proof.Machine
end

