-- ==== Sys2Proof/Machine/Partition.lean ====
section
/-!
DEFINITION. Partitions (spec/21, R385, R386, R392 to R394, R407), layout commits (spec/23, R435, R436), and reclassing
(spec/10, R282).
-/

namespace Sys2Proof.Machine

/-! ## Commands of PMCMD (R392, R393) -/

/-- The end of a command of PMCMD: result, value, and MSI-X vector 4 of the physical function. -/
def State.endPm (s : State) (result value : Nat) : State :=
  let ovr := s.reg 0 0x1818 / 2 % 2
  (s.setReg 0 0x1818 (ovr * 2 + result * 16 + value * 2 ^ 32)).msix 0 4

/-- Whether a command of PMCMD is in progress. -/
def State.pmIs (s : State) (op p : Nat) : Bool :=
  bitOf (s.reg 0 0x1818) 0 && s.reg 0 0x1800 % 16 == op && s.reg 0 0x1800 / 16 % 16 == p

/-- Begins a command, or goes on with the one in progress: none where another one is, or where the host writes the same one
again (log entry 97), and the write is ignored with OVR set. -/
def State.beginPm (s : State) (op p : Nat) : Option State :=
  let st := s.reg 0 0x1818
  if bitOf st 0 then (if s.pmIs op p && !s.hostWrote then some { s with fresh := s.fresh + 1 } else none)
  else some ((s.setReg 0 0x1800 (op + 16 * p)).setReg 0 0x1818 (setField st 0 1 1))

/-- A write that found a command in progress (R392). -/
def State.overrunPm (s : State) : State :=
  { s.setReg 0 0x1818 (setField (s.reg 0 0x1818) 1 1 1) with fresh := s.fresh + 1 }

/-- The event of a command that goes on by itself: nothing, or the host's write of it again, which is ignored. -/
def State.againPm (s : State) : State := if s.hostWrote then s.overrunPm else { s with fresh := s.fresh + 1 }

/-- Runs a command, once the management processor is up (R437): one whose partition must exist and does not, or the other
way round, gives STATE; one whose partition is being reset waits (R394). There are 16 partition numbers (R2). -/
def pmCommand (op p : Nat) (exists_ : Bool) (s : State) (run : State → State) : Out :=
  if 16 ≤ p then .next s
  else match s.beginPm op p with
  | none => .next s.overrunPm
  | some s1 =>
    if !s1.mp.up || s1.fatal.isSome then .next s1
    else
      let s2 := { s1 with mp := { s1.mp with beat := s1.now } }
      if (s2.part? p).isSome != exists_ then .next (s2.endPm 2 0)
      else if s2.partResetting p then .next s2
      else .next (run s2)

/-- The bytes of PMDESC. -/
def State.pmDescriptor (s : State) : List Byte := (List.range 32).flatMap (fun i => toBytes 8 (s.reg 0 (0x1900 + 8 * i)))

/-! ## Clusters and set groups (R386, R434) -/

/-- Compute dies of the variant (R445). -/
def State.ndie (s : State) : Nat := if s.variant == 0 then 4 else 2

/-- Whether a physical cluster is its die's spare. -/
def isSpare (c : Nat) : Bool := c % 16 == Config.spareCluster (c / 16) % 16

/-- Whether a physical cluster may be in use: its die works, it is not defective, and it is no spare still unused. -/
def State.usable (s : State) (c : Nat) : Bool :=
  decide (c / 16 < s.ndie) && !s.mp.deadDies.contains (c / 16) && !s.mp.dead.contains c
    && (!isSpare c || s.mp.spareUsed.contains (c / 16))

/-- The partition and logical index that hold a physical cluster. -/
def State.holder (s : State) (c : Nat) : Option (Nat × Nat) :=
  s.parts.findSome? (fun (e : Nat × Part) => (e.2.clusters.findIdx? (fun x => x == c)).map (fun i => (e.1, i)))

/-- The usable clusters that no partition but one holds, on permitted dies, ascending; 0 permits every die. -/
def State.freeClusters (s : State) (dies besides : Nat) : List Nat :=
  (List.range 64).filter (fun c => s.usable c && (dies == 0 || bitOf dies (c / 16)) && (match s.holder c with
    | some (p, _) => p == besides
    | none => true))

/-- The set groups of a die that no partition but one has (R393, R426). -/
def State.freeGroups (s : State) (die besides : Nat) : List Nat :=
  (List.range 64).filter (fun g => !s.parts.any (fun (e : Nat × Part) => e.1 != besides && e.2.groups.contains (die * 64 + g)))

/-- Set groups for a partition's clusters, as many on each die that holds one; none where a die has too few. -/
def State.takeGroups (s : State) (clusters : List Nat) (n besides : Nat) : Option (List Nat) :=
  ((clusters.map (· / 16)).eraseDups).foldl (fun b d => match b with
    | none => none
    | some gs =>
      let f := (s.freeGroups d besides).take n
      if f.length < n then none else some (gs ++ f.map (fun g => d * 64 + g))) (some [])

/-! ## The journal (R435, R436) -/

/-- A layout in the journal's bytes: number, whether it goes, cluster count, slice map (R386), keys, set groups, DRAWSEED
(log entry 42). -/
def Layout.bytes (l : Layout) : List Byte :=
  let map_ := (l.clusters.map (· + 128) ++ List.replicate 60 0).take 60
  toBytes 1 l.part ++ toBytes 1 (if l.gone then 1 else 0) ++ toBytes 2 l.clusters.length ++ map_.flatMap (toBytes 1)
    ++ toBytes 8 l.keys ++ toBytes 4 l.setGroups ++ l.groups.flatMap (toBytes 1) ++ toBytes 4 l.drawseed

/-- The partitions in the order of their numbers. -/
def State.partsInOrder (s : State) : Map Nat Part := (List.range 16).filterMap (fun p => (s.part? p).map (fun v => (p, v)))

/-- The journal's AFFECT. -/
def affectOf (ls : List Layout) : Nat := maskOf 16 (fun p => ls.any (fun l => l.part == p))

/-- DIGEST of a journal record: over bytes 0 to 7 and 12 to 4,095. -/
def journalDigest (lseq : Nat) (ls : List Layout) : Nat :=
  (Config.sha256 (toBytes 8 lseq ++ toBytes 2 (affectOf ls) ++ toBytes 2 0
    ++ (ls.flatMap Layout.bytes ++ List.replicate 4080 0).take 4080)).toNat

/-- The contexts of the functions bound to a partition, by function and number. -/
def State.ctxsOf (s : State) (p : Nat) : List (Nat × Nat) :=
  (s.fnsOf p).flatMap (fun fn => ((List.range 8).filter (fun c => (s.ctx fn c).state != 0)).map (fun c => (fn, c)))

/-- Pauses a partition by save (R436): every running context is pre-empted, drain apart, and will resume by itself. -/
def State.pausePart (s : State) (p : Nat) : State :=
  let s1 := s.modPart p (fun v => { v with paused := true })
  (s1.ctxsOf p).foldl (fun s x =>
    if (s.ctx x.1 x.2).state == 1 then s.startPreempt x.1 x.2 0 false true else s) s1

/-- Phase one of a commit (R436): the journal is written, JSTATE ← 1 locks DRVFEAT (R447), and the affected partitions are
paused. -/
def State.beginCommit (s : State) (ls : List Layout) : State :=
  let n := s.mp.lseq + 1
  let s1 := { s with mp := { s.mp with
    lseq := n
    jstate := 1
    layout := ls
    digest := journalDigest n ls
    lockedAt := if bitOf (s.reg 0 0x1708) 2 then s.mp.lockedAt else some s.now } }
  let s2 := s1.setReg 0 0x1708 (setField (s1.reg 0 0x1708) 2 1 1)
  ls.foldl (fun s l => s.pausePart l.part) s2

/-- Whether a commit may begin: none is in progress, no reset of an affected partition runs (R394), and none of its contexts
is being resumed (log entry 43). -/
def State.mayCommit (s : State) (ps : List Nat) : Bool :=
  s.mp.jstate != 1 && ps.all (fun p => match s.part? p with
    | some v => !v.resetting && !(s.ctxsOf p).any (fun x => (s.ctx x.1 x.2).state == 4)
    | none => true)

/-- The layout of a partition as it is. -/
def Part.layout (v : Part) (p : Nat) : Layout :=
  { part := p
    gone := false
    clusters := v.clusters
    keys := v.keys
    dies := v.dies
    setGroups := v.setGroups
    groups := v.groups
    drawseed := v.drawseed }

/-- Whether the pause of the affected partitions is complete: none is being reset (R432), no slot holds a task, and no context
is being pre-empted, resumed or killed; a partition that goes has no context left. -/
def State.commitReady (s : State) : Bool :=
  s.mp.layout.all (fun l =>
    !s.partResetting l.part && !s.slots.any (fun (e : SlotId × Slot) => e.1.part == l.part && e.2.task.isSome)
      && (s.ctxsOf l.part).all (fun x => !l.gone && ((s.ctx x.1 x.2).state == 1 || (s.ctx x.1 x.2).state == 3)))

/-! ## Phase two -/

/-- A tile as a partition start leaves it (R312, R313, R319). -/
def freshTile (seed t : Nat) : Tile :=
  { (default : Tile) with
    kilns := [Engine.v, .m, .x, .d].map (fun e => (e, { (default : Kiln) with gen := seedOf seed t e.code }))
    resGen := seedOf seed t 7 }

/-- A partition as it is created. -/
def newPart (l : Layout) : Part :=
  { (default : Part) with
    clusters := l.clusters
    keys := l.keys
    dies := l.dies
    setGroups := l.setGroups
    groups := l.groups
    drawseed := l.drawseed
    tiles := (List.range (4 * l.clusters.length)).map (fun t => (t, freshTile l.drawseed t)) }

/-- Moves the TDI of a function to ERROR (R416, R419): its contexts are killed, the key slots that it loaded
erased, its IDE stream's keys discarded, and what its copies still have to write to host memory refused. -/
def State.tdiError (s : State) (fn : Nat) : State :=
  let dma (d : Cmd) : Bool := match s.kernelOf d.slot with
    | some k => k.fn == fn
    | none => false
  let s0 := { s with cmds := s.cmds.map (fun d =>
    if dma d then { d with moves := d.moves.filter (fun m => !isHostAperture (s.moveAddr m)) } else d) }
  let s1 := s0.inError fn
  (List.range 8).foldl (fun s c => if (s.ctx fn c).state == 0 || (s.ctx fn c).state == 5 then s else s.startKill fn c) s1

/-- Whether the TDI of a function is CONFIG_LOCKED or RUN. -/
def State.locked (s : State) (fn : Nat) : Bool := (s.fn fn).tdi == 1 || (s.fn fn).tdi == 2

/-- Deletes a partition (R393, R434): its functions are bound to none, and its key slots are erased. -/
def State.deletePart (s : State) (p : Nat) : State :=
  let keys := ((s.part? p).map (·.keys)).getD 0
  let s1 := (s.fnsOf p).foldl (fun s fn =>
    (if s.locked fn then s.tdiError fn else s).modFn fn (fun f => { f with part := none })) s
  { s1.eraseKeys (bitOf keys) with parts := mdel s1.parts p }

/-- Writes one partition's layout in absolute values (R436): the state of its logical tiles stays with them (R314), and
DRAWSEED is PSEED's alone (R393). -/
def State.writeLayout (s : State) (l : Layout) : State :=
  if l.gone then s.deletePart l.part
  else match s.part? l.part with
    | none => { s with parts := mset s.parts l.part (newPart l) }
    | some v =>
      let n := l.clusters.length
      let s1 := (s.eraseKeys (fun k => bitOf v.keys k && !bitOf l.keys k)).modPart l.part (fun v => { v with
        clusters := l.clusters
        keys := l.keys
        dies := l.dies
        setGroups := l.setGroups
        groups := l.groups
        tiles := v.tiles.filter (fun (t : Nat × Tile) => decide (t.1 < 4 * n)) })
      if n == v.clusters.length then s1
      else
        let s2 := (s1.ctxsOf l.part).foldl (fun s x =>
          s.modCtx x.1 x.2 (fun c => { c with topo := c.topo || c.auto })) s1
        s2.dropUnfit l.part

/-- Saved tasks of a partition that will resume by themselves. -/
def State.movedTasks (s : State) (p : Nat) : Nat :=
  sumOf ((s.ctxsOf p).map (fun x => if (s.ctx x.1 x.2).auto then (s.ctx x.1 x.2).saved.length else 0))

/-- What a commit's end tells: the end of the command that asked for it, or the record of a repair (R394, R434). -/
def State.commitDone (s : State) (ls : List Layout) (old : State) : State :=
  match s.mp.repairing with
  | some c =>
    let l := ls.headD default
    let s1 := s.deviceEvent
      { src := 6
        kind := 3
        inst := c / 16 * 2 ^ 14 + c % 16
        pmap := 2 ^ l.part
        aux := l.clusters.length } (old.fnsOf l.part)
    { s1 with mp := { s1.mp with repairing := none } }
  | none =>
    let op := s.reg 0 0x1800 % 16
    if !bitOf (s.reg 0 0x1818) 0 then s
    else if op == 1 then s.endPm 0 ((ls.headD default).clusters.length)
    else if op == 2 || op == 5 then s.endPm 0 0
    else if op == 6 then { s with mp := { s.mp with moved := s.movedTasks ((ls.headD default).part) + 1 } }
    else s

/-- LAYOUT_COMMIT_PHASE_TWO (R436): from the journal alone, once its digest is right and the pause is complete. -/
def execLayoutCommitPhaseTwo (s : State) : Out :=
  let m := s.mp
  if m.jstate != 1 || !m.up || m.digest != journalDigest m.lseq m.layout || s.fatal.isSome || !s.commitReady then .next s
  else
    let s1 := m.layout.foldl (fun s l => s.writeLayout l) s
    let s2 := { s1 with mp := { s1.mp with jstate := 2, beat := s.now } }
    let s3 := m.layout.foldl (fun s l => s.modPart l.part (fun v => { v with paused := false })) s2
    .next ((s3.commitDone m.layout s).revalue)

/-! ## The commands (R393) -/

/-- PCREATE. -/
def execPcreate (p : Nat) (s : State) : Out :=
  if s.pmIs 1 p && s.mp.jstate == 1 then .next s.againPm
  else pmCommand 1 p false s (fun s =>
    let b := s.pmDescriptor
    let n (o k : Nat) : Nat := blockNum b o k
    let nl := n 0 1
    let ill := nl == 0 || decide (60 < nl) || decide (16 ≤ n 1 1) || n 2 1 == 0 || decide (64 < n 2 1) || n 3 5 != 0
      || (b.drop 20).any (fun x => x != 0) || s.parts.any (fun (e : Nat × Part) => e.2.keys &&& n 8 8 != 0)
    if ill then s.endPm 1 0
    else if !s.mayCommit [p] then s
    else
      let cs := (s.freeClusters (n 1 1) p).take nl
      match (if cs.length < nl then none else s.takeGroups cs (n 2 1) p) with
      | none => s.endPm 3 0
      | some gs => s.beginCommit
          [{ part := p
             gone := false
             clusters := cs
             keys := n 8 8
             dies := n 1 1
             setGroups := n 2 1
             groups := gs
             drawseed := n 16 4 }])

/-- Whether a TDI of a partition is CONFIG_LOCKED or RUN. -/
def State.frozen (s : State) (p : Nat) : Bool := (s.fnsOf p).any s.locked

/-- PDELETE: refused too while a TDI is frozen (R416). -/
def execPdelete (p : Nat) (s : State) : Out :=
  if s.pmIs 2 p && s.mp.jstate == 1 then .next s.againPm
  else pmCommand 2 p true s (fun s =>
    if !(s.ctxsOf p).isEmpty || s.frozen p then s.endPm 1 0
    else if !s.mayCommit [p] then s
    else match s.part? p with
      | some v => s.beginCommit [{ v.layout p with gone := true, clusters := [] }]
      | none => s)

/-- Whether a function holds a context. -/
def State.holdsCtx (s : State) (fn : Nat) : Bool := (List.range 8).any (fun c => (s.ctx fn c).state != 0)

/-- A command that binds a virtual function, or unbinds it. -/
def bindCommand (op p : Nat) (tgt : Option Nat) (s : State) : Out :=
  pmCommand op p true s (fun s =>
    let vf := s.reg 0 0x1808 % 32
    if vf == 0 || s.holdsCtx vf || (s.fn vf).tdi != 0 then s.endPm 1 0
    else (s.modFn vf (fun f => { f with part := tgt })).endPm 0 0)

/-- PBIND. -/
def execPbind (p : Nat) (s : State) : Out := bindCommand 3 p (some p) s

/-- PUNBIND. -/
def execPunbind (p : Nat) (s : State) : Out := bindCommand 4 p none s

/-- Whether an established lease of a partition names a key slot. -/
def State.leasedKey (s : State) (p key : Nat) : Bool :=
  s.kernels.any (fun (k : Nat × Kernel) => k.2.part == p && (k.2.phase == 1 || k.2.phase == 3) && k.2.pages.any (fun g =>
    g.key == key && !k.2.revoked.contains g.range))

/-- PKEYS. -/
def execPkeys (p : Nat) (s : State) : Out :=
  if s.pmIs 5 p && s.mp.jstate == 1 then .next s.againPm
  else pmCommand 5 p true s (fun s =>
    match s.part? p with
    | none => s
    | some v =>
      let m := s.reg 0 0x1808
      let bad (k : Nat) : Bool := (bitOf v.keys k && !bitOf m k && s.leasedKey p k)
        || (bitOf m k && s.parts.any (fun (e : Nat × Part) => e.1 != p && bitOf e.2.keys k))
      if (List.range 64).any bad || s.frozen p then s.endPm 1 0
      else if !s.mayCommit [p] then s
      else s.beginCommit [{ v.layout p with keys := m }])

/-- PMOVE (R407): the partition moves to the lowest-indexed clusters that it may have (log entry 44); it ends once every
context that was running has resumed. -/
def execPmove (p : Nat) (s : State) : Out :=
  if s.pmIs 6 p && s.mp.jstate == 1 then .next s.againPm
  else if s.pmIs 6 p && s.mp.moved != 0 then
    if (s.ctxsOf p).any (fun x => (s.ctx x.1 x.2).auto) then .next s.againPm
    else if s.hostWrote then .next s.overrunPm
    else .next ({ s with fresh := s.fresh + 1, mp := { s.mp with moved := 0 } }.endPm 0 (s.mp.moved - 1))
  else pmCommand 6 p true s (fun s =>
    match s.part? p with
    | none => s
    | some v =>
      if !s.mayCommit [p] then s
      else
        let cs := (s.freeClusters v.dies p).take v.clusters.length
        match (if cs.length < v.clusters.length then none else s.takeGroups cs v.setGroups p) with
        | none => s.endPm 3 0
        | some gs => s.beginCommit [{ v.layout p with clusters := cs, groups := gs }])

/-- PSEED (R104, R312): DRAWSEED, for the next partition start. -/
def execPseed (p : Nat) (s : State) : Out :=
  pmCommand 7 p true s (fun s => (s.modPart p (fun v => { v with drawseed := s.reg 0 0x1808 % 2 ^ 32 })).endPm 0 0)

/-- Whether a partition's handler may not change. -/
def State.handlerBusy (s : State) (p : Nat) : Bool := !(s.ctxsOf p).isEmpty || s.frozen p

/-- Where the first byte of a partition's handler image lies (R70; log entry 22). -/
def handlerBase (p : Nat) : Nat := handlerPhys p 0x1FFFFFFB0000000

/-- PHANDLER (R393, R70): the image comes from host memory and is measured. -/
def execPhandler (p : Nat) (s : State) : Out :=
  pmCommand 8 p true s (fun s =>
    let len := s.reg 0 0x1810
    if s.handlerBusy p || len == 0 || len % 4 != 0 || decide (0x800000 < len) then s.endPm 1 0
    else
      let img := s.readBytes .bank (0x10000000000 + s.reg 0 0x1808) len
      let s1 := s.zero (handlerBase p) 0x800000
      let s2 := s1.poke .bank none (handlerBase p) img
      (s2.modPart p (fun v => { v with hasHandler := true, handlerHash := (Config.sha256 img).toNat })).endPm 0 0)

/-- PHCLEAR (R393). -/
def execPhclear (p : Nat) (s : State) : Out :=
  pmCommand 10 p true s (fun s =>
    if s.handlerBusy p then s.endPm 1 0
    else
      ((s.zero (handlerBase p) 0x800000).modPart p (fun v =>
        { v with hasHandler := false, handlerHash := 0 })).endPm 0 0)

/-! ## Blast sets (R426, R427) -/

/-- A port. -/
def State.port (s : State) (n : Nat) : Port := mget s.ports n {}

/-- Changes a port. -/
def State.modPort (s : State) (n : Nat) (f : Port → Port) : State := { s with ports := mmod s.ports n {} f }

/-- The partitions that a port's key table names (R426). -/
def Port.bitmap (p : Port) : Nat := maskOf 16 (fun x => p.keys.any (fun (k : Nat × Nat) => k.2 % 65536 != 0 && k.2 / 65536 == x))

/-- Whether a partition's bit is set for an instance of a shared structure. -/
def State.blast (s : State) (src inst p : Nat) : Bool :=
  match s.part? p with
  | none => false
  | some v =>
    let die := inst / 2 ^ 14
    let n := inst % 2 ^ 14
    match src with
    | 1 => v.groups.contains (die * 64 + n)
    | 2 => v.clusters.any (fun c => c / 16 == die) || Config.crossesDie v.clusters die
    | 3 => s.frames.any (fun (f : Nat × Frame) => (f.2.state == 1 || f.2.state == 2) && f.2.part == p
        && hbmChannel (f.1 * 0x10000) == inst)
    | 4 => bitOf (s.port inst).bitmap p
    | 5 => v.clusters.any (fun c => c / 16 == die)
    | _ => false

/-- The ownership bitmap of an instance of a shared structure (R426). -/
def State.blastMap (s : State) (src inst : Nat) : Nat := maskOf 16 (s.blast src inst)

/-- The functions bound to the partitions of a bitmap. -/
def State.fnsOfMap (s : State) (m : Nat) : List Nat := ((List.range 16).filter (bitOf m)).flatMap s.fnsOf

/-- The die-cache set group that holds a line of the frame at an address (R426): one that its partition has; which of them
is a free value (log entry 41). -/
def State.setGroup (s : State) (a : Nat) : Nat :=
  let gs := ((s.part? (s.frame a).part).map (·.groups)).getD []
  let x := Config.setGroupOf (a / 0x800)
  let g := if gs.isEmpty then x % 256 else gs.getD (x % gs.length) 0
  g / 64 * 2 ^ 14 + g % 64

/-- Delivers an error found in HBM (source 3) or the die cache (1): kind 0 corrected, 1 detected, at an address (R425,
R427). -/
def State.tellFound (s : State) (x : Nat × Nat × Nat) : State :=
  let inst := if x.1 == 3 then hbmChannel x.2.2 else s.setGroup x.2.2
  let m := s.blastMap x.1 inst
  s.deviceEvent { src := x.1, kind := x.2.1, inst := inst, pmap := m, paddr := x.2.2 } (s.fnsOfMap m)

/-- The die whose storage an error was found in: the stack's, the set group's, or the tile's. -/
def State.dieOf (s : State) (x : Nat × Nat × Nat) : Nat :=
  match x.1 with
  | 1 => s.setGroup x.2.2 / 2 ^ 14
  | 3 => hbmChannel x.2.2 / 64
  | _ => match s.tileOfPhys x.2.2 with
    | some (t, _) => (((s.part? t.part).map (·.clusters)).getD []).getD (t.tile / 4) 0 / 16
    | none => 0

/-- Counts an error of a die: corrected or detected (R443). -/
def State.countError (s : State) (x : Nat × Nat × Nat) : State :=
  { s with dieErrors := mmod s.dieErrors (s.dieOf x) (0, 0) (fun n =>
      if x.2.1 == 0 then (n.1 + 1, n.2) else (n.1, n.2 + 1)) }

/-- Counts every error found in the turn, and delivers those of shared structures. -/
def State.tellAll (s : State) : State :=
  { s.found.foldl (fun s x => if x.1 == 6 then s.countError x else (s.countError x).tellFound x) s with found := [] }

/-! ## Reclassing (R282) -/

/-- Every leaf of a page-table tree that is not ignored (R266): virtual address, address of the entry, entry, page size. -/
def State.leavesFrom (s : State) (fn : Nat) :
    List (Nat × Nat × Bool × Bool × Nat × Nat) → Nat → Nat → List (Nat × Nat × Nat × Nat)
  | [], _, _ => []
  | (lo, n, tab, lf, next, size) :: ls, t, va =>
    (List.range (2 ^ n)).flatMap (fun i =>
      let a := t + 8 * i
      let e := s.readNum .bank a 8
      if !bitOf e 0 then []
      else if bitOf e 1 then
        let nx := field e 8 44 * 256
        if !tab || field e 2 6 != 0 || field e 52 12 != 0 || nx % next != 0 || !s.frameOf fn nx then []
        else s.leavesFrom fn ls nx (va + i * 2 ^ lo)
      else if !lf || leafBad e size || decide (0x1FFFFFFB0000000 ≤ va + i * 2 ^ lo) then [] else [(va + i * 2 ^ lo, a, e, size)])

/-- The pages that a context's tables map, ascending. -/
def State.mappedPages (s : State) (fn c : Nat) : List Page :=
  (s.leavesFrom fn walkLevels (s.ctx fn c).ptroot 0).map (fun x => pageOfLeaf x.1 x.2.1 x.2.2.1 x.2.2.2 0)

/-- Bytes of HBM that a page takes. -/
def Page.span (p : Page) : Nat := if p.sh then 2 * p.size else p.size

/-- Whether a page has a frame in a range of addresses. -/
def Page.meets (p : Page) (lo hi : Nat) : Bool := decide (p.frame < hi) && decide (lo < p.frame + p.span)

/-- RECLASS (R282, steps 1 to 3): refused, or the group is locked and its re-encoding begins. -/
def execReclass (p : Nat) (s : State) : Out :=
  if s.pmIs 9 p && s.mp.reclass.isSome then .next s.againPm
  else pmCommand 9 p true s (fun s =>
    let g := s.reg 0 0x1808 % 8192
    let cls := field (s.reg 0 0x1808) 16 2
    let lo := g * 0x4000000
    let leased := s.kernels.any (fun (k : Nat × Kernel) => (k.2.phase == 1 || k.2.phase == 3) && k.2.pages.any (fun q =>
      !k.2.revoked.contains q.range && q.meets lo (lo + 0x4000000)))
    let kept := granules cls
    let lost := decide (kept < granules (s.classOf lo)) && s.fns.any (fun (f : Nat × Fn) =>
      (List.range 8).any (fun c => (s.ctx f.1 c).state != 0 && (s.mappedPages f.1 c).any (fun q =>
        q.meets (lo + kept * 0x200000) (lo + 0x4000000))))
    if cls == 3 || !s.physOk lo || leased || s.classLocks.contains g || lost then s.endPm 1 0
    else { s with
      classLocks := g :: s.classLocks
      mp := { s.mp with reclass := some (g, cls) } })

/-- A soft error met while a group is re-encoded (R282): corrected or reported under the old class (R427). -/
def State.reencode (s : State) (f : Flip) : State :=
  let s0 := { s with flips := s.flips.filter (fun x => decide (x ≠ f)) }
  let bad := s0.flipped f f.bits
  let tell (s : State) (kind : Nat) : State := s.tellFound (3, kind, f.seg * 64)
  match findHbm (s.classOf (f.seg * 64)) f.seg f.bits with
  | .corrected => tell s0 0
  | .silent => s0
  | .detected => tell (bad.setPoison (f.seg * 64) 64) 1
  | .undetected => bad
  | .miscorrected counted =>
    let s1 := s0.flipped f (Config.miscorrected f.seg f.bits)
    if counted then tell s1 0 else s1

/-- RECLASS_COMPLETION (R282, steps 4 to 6): every retained byte is kept; slots that become frames read zero and are clean;
slots that stop being frames are gone; waiting launches proceed. -/
def execReclassCompletion (p : Nat) (s : State) : Out :=
  match s.mp.reclass with
  | none => .next s
  | some (g, cls) =>
    if !s.pmIs 9 p || !s.mp.up then .next s
    else
      let lo := g * 0x4000000
      let old := granules (s.classOf lo)
      let new := granules cls
      let here (a : Nat) : Bool := decide (lo ≤ a) && decide (a < lo + 0x4000000)
      let s1 := (s.flips.filter (fun f => here (f.seg * 64))).foldl (fun s f => s.reencode f) s
      let a := lo + min old new * 0x200000
      let n := (max old new - min old new) * 0x200000
      let s2 := s1.zero a n
      let clean : List (Nat × Frame) := if old < new then
          (List.range (n / 0x10000)).map (fun i => (a / 0x10000 + i, { (default : Frame) with state := 3 })) else []
      let out (f : Nat) : Bool := decide (f * 0x10000 < a) || decide (a + n ≤ f * 0x10000)
      let s3 := { s2 with
        frames := clean ++ s2.frames.filter (fun (f : Nat × Frame) => out f.1)
        classes := mset s2.classes g cls
        classLocks := s2.classLocks.filter (· != g)
        mp := { s2.mp with reclass := none } }
      let waiting := (s3.kernels.filter (fun (k : Nat × Kernel) => k.2.phase == 0)).map (·.1)
      .next ((waiting.foldl (fun s k => s.settleLaunch k) s3).endPm 0 0)

end Sys2Proof.Machine
end

