-- ==== Sys2Proof/Machine/Fabric.lean ====
section
/-!
DEFINITION. The Nagil fabric (spec/22, R420 to R423): flits, packets received, and the answers of peers.
-/

namespace Sys2Proof.Machine

/-! ## Flits (R421) -/

/-- One byte of a CRC-64, most significant bit first (log entry 45). -/
def crc64Byte (r : Nat) (b : Byte) : Nat :=
  (List.range 8).foldl (fun x _ =>
    if 2 ^ 63 ≤ x then (x * 2 % 2 ^ 64) ^^^ 0x42F0E1EBA9EA3693 else x * 2) (r ^^^ (b.toNat * 2 ^ 56))

/-- The CRC-64 of bytes: initial value and final XOR all ones. -/
def crc64 (bs : List Byte) : Nat := (bs.foldl crc64Byte (2 ^ 64 - 1)) ^^^ (2 ^ 64 - 1)

/-- A request of a command is over with STAT bits: a read that failed writes nothing for what it asked (R422, R423). -/
def Cmd.answered (c : Cmd) (r : PeerRequest) (bits : Nat) : Cmd :=
  let els := r.pieces.map (·.1)
  { c with
    stat := c.stat ||| bits
    remote := c.remote.filter (fun x => x.index != r.index)
    moves := if bits == 0 then c.moves else c.moves.filter (fun m => !els.contains m.draw) }

/-- Takes a port down: the requests over it end with PEER and FAIL, and the partitions of its table are told (R421, R423,
R425). -/
def State.portDown (s : State) (n : Nat) : State :=
  let s1 := s.modPort n (fun p => { p with up := false })
  { s1 with cmds := s1.cmds.map (fun c =>
      (c.remote.filter (fun r => r.port == n)).foldl (fun c r => c.answered r (stPEER ||| stFAIL)) c) }

/-- FLIT_RECEIVE (R421): a flit that fails its CRC is refused and sent again; after the sixteenth failed resend the port
goes down. -/
def execFlitReceive (port : Nat) (f : Flit) (s : State) : Out :=
  let p := s.port port
  if !p.up then .next s
  else
    let ok := f.bytes.length == 256 && crc64 (f.bytes.take 248) == blockNum f.bytes 248 8
    let seq := blockNum f.bytes 240 4
    if !ok then
      let n := p.resends + 1
      let s1 := s.modPort port (fun p => { p with resends := n })
      if 17 ≤ n then
        let m := p.bitmap
        .next ((s1.portDown port).deviceEvent { src := 4, kind := 4, inst := port, pmap := m } (s.fnsOfMap m))
      else .next (s1.send 42 [port, p.expect])
    else if seq != p.expect then .next (s.send 42 [port, p.expect])
    else .next ((s.modPort port (fun p => { p with expect := (p.expect + 1) % 2 ^ 32, resends := 0 })).send 43 [port, seq])

/-! ## Packets (R421, R422) -/

/-- A field of a packet's header. -/
def packetNum (p : Packet) (o n : Nat) : Nat := blockNum p.bytes o n

/-- The payload: what is between the header and the tag. -/
def packetPayload (p : Packet) : List Byte := (p.bytes.drop 64).take (p.bytes.length - 80)

/-- What a packet carries: the LEN first bytes of its payload (R421; log entry 46). -/
def packetData (p : Packet) : List Byte := (packetPayload p).take (packetNum p 16 4)

/-- Whether a packet keeps its form: its length, and a payload of 0 to 4,096 bytes in multiples of 32. -/
def packetFormed (p : Packet) : Bool :=
  decide (80 ≤ p.bytes.length) && (p.bytes.length - 80) % 32 == 0 && decide (p.bytes.length ≤ 4176)

/-- The entry of a port's table that a packet's key names (R422). -/
def Port.entry (p : Port) (key : Nat) : Option (Nat × Nat) :=
  if key == 0 then none
  else (p.keys.find? (fun (k : Nat × Nat) => k.2 % 65536 == key)).map (fun k => (k.1, k.2 / 65536))

/-- Steps 1 and 2 of R422: the entry that the packet's key names, with its partition, or the state with the drop counted. -/
def State.admitPacket (s : State) (port op : Nat) (k : Packet) (go : Nat → Nat → Out) : Out :=
  let p := s.port port
  if !p.up || s.fatal.isSome || !packetFormed k || packetNum k 6 1 != op || packetNum k 0 2 % 4096 != s.devNumber then .next s
  else
    match p.entry (packetNum k 4 2) with
    | none => .next (s.modPort port (fun p => { p with keyDrop := p.keyDrop + 1 }))
    | some (e, part) =>
      let n := k.bytes.length
      if (Config.gcmTag (mget p.gcm e 0) (packetNum k 20 12) (k.bytes.take (n - 16))).toNat != packetNum k (n - 16) 16 then
        .next (s.modPort port (fun p => { p with macDrop := p.macDrop + 1 }))
      else go e part

/-- Answers a packet over its port, under the key that it came with (R422, R423). -/
def State.answer (s : State) (port e : Nat) (k : Packet) (op stat : Nat) (payload : List Byte) : State :=
  let p := s.port port
  let n := mget p.counters 0 0
  (s.modPort port (fun p => { p with counters := mset p.counters 0 (n + 1) })).send 41 [port]
    (packetBytes (mget p.gcm e 0) (packetNum k 2 2 % 4096) s.devNumber (packetNum k 4 2) op 0 (packetNum k 8 8) payload.length n (packetNum k 32 8) stat
      0 payload)

/-- The 64 KiB frames of n bytes. -/
def framesIn (a n : Nat) : List Nat :=
  (List.range ((a + max 1 n - 1) / 0x10000 + 1 - a / 0x10000)).map (fun i => (a / 0x10000 + i) * 0x10000)

/-- Whether a peer may reach bytes (R422): frames owned by a context of the partition, with PR or PW. -/
def State.peerMay (s : State) (part a n : Nat) (write : Bool) : Bool :=
  (framesIn a n).all (fun x =>
    let f := s.frame x
    s.isHbm x && f.state == 1 && f.part == part && (if write then f.pw else f.pr))

/-- Whether bytes belong to a context that is being killed, whose incoming writes are dropped (R405). -/
def State.peerKilled (s : State) (a n : Nat) : Bool :=
  (framesIn a n).any (fun x =>
    let f := s.frame x
    f.state == 1 && (s.ctx f.fn f.ctx).state == 5)

/-- The slot that stands for a peer's writes. -/
def peerSlot : SlotId := ⟨65536, 0, 0⟩

/-- The earlier writes of peers, whose completion has been sent, are visible to every agent (R301). -/
def State.peerOrder (s : State) : State :=
  { s with vis := s.vis.map (fun (v : Nat × Vis) =>
      if decide (v.2.slot = peerSlot) && v.2.fences.isEmpty then (v.1, { v.2 with fences := [s.fenceHere 9 peerSlot] }) else v) }

/-- Performs the element writes of a peer's packet (R292, R423): each is indivisible, asynchronous, and complete when the
answer is sent. -/
def State.peerWrites (s : State) (xs : List (Nat × List Byte)) : State :=
  let id := s.nextCmd
  let s1 := { s.peerOrder with nextCmd := id + 1 }
  let s2 := xs.foldl (fun s x => s.poke .peer (some id) x.1 x.2) s1
  let v : Vis :=
    { slot := peerSlot
      matrix := false
      done := some s.now
      place := s2.seqT
      seenAt := none
      fences := [] }
  { s2 with vis := mset s2.vis id v }

/-- Bytes cut into units with their addresses. -/
def unitsOf (n : Nat) (a : Nat) : Nat → List Byte → List (Nat × List Byte)
  | 0, _ => []
  | f + 1, bs => if bs.isEmpty then [] else (a, bs.take n) :: unitsOf n (a + n) f (bs.drop n)

/-- Steps 3 and 4 of R422 for a packet that writes. -/
def State.peerStore (s : State) (port e part : Nat) (k : Packet) (go : Nat → State → State) : Out :=
  let a := packetNum k 8 8 % 2 ^ 39
  let n := (packetData k).length
  if s.peerKilled a n then .next s
  else if !s.peerMay part a n true then .next (s.answer port e k 6 stPEER [])
  else if (framesIn a n).any (fun x => decide (s.classOf x < packetNum k 44 1 % 4)) then .next (s.answer port e k 6 stCLASS [])
  else .next ((go a s).answer port e k 5 0 [])

/-- NAGIL_WRITE (R422): indivisible units of 96 bytes from ADDR, the least multiple of 32 that no element of any format
straddles (R292, R423; log entry 46). -/
def execNagilWrite (port : Nat) (p : Packet) (s : State) : Out :=
  s.admitPacket port 1 p (fun e part => s.peerStore port e part p (fun a s =>
    (s.peerWrites (unitsOf 96 a 64 (packetData p))).clearPoison a (packetData p).length))

/-- NAGIL_READ_REQUEST (R422): LEN bytes. Earlier writes of the peer are seen (R301; log entry 46). -/
def execNagilReadRequest (port : Nat) (p : Packet) (s : State) : Out :=
  s.admitPacket port 2 p (fun e part =>
    let a := packetNum p 8 8 % 2 ^ 39
    let n := packetNum p 16 4 % 4097
    if !s.peerMay part a n false then .next (s.answer port e p 6 stPEER [])
    else
      let s1 := s.peerOrder.settle peerSlot 0 a n
      let bad := s1.poisonedIn a n
      .next (s1.answer port e p 3 (if bad then stPOIS ||| stFAIL else 0) (s1.readBytes .peer a n)))

/-- NAGIL_REDUCE (R422, R203): each element is read, combined and written as one indivisible access. The packet carries no
rounding mode: it is a free value (log entry 46). -/
def execNagilReduce (port : Nat) (p : Packet) (s : State) : Out :=
  s.admitPacket port 4 p (fun e part =>
    let code := packetNum p 7 1 / 8 + 1
    let op := packetNum p 7 1 % 8
    let size := match formatOf code with
      | some f => if reducible f then f.size / 8 else 0
      | none => 0
    if size == 0 || 3 ≤ op then .next (s.answer port e p 6 (stPEER ||| stFMT) [])
    else s.peerStore port e part p (fun a s =>
      let s0 := s.settle peerSlot 0 a (packetData p).length
      (unitsOf size a 4096 ((packetData p).take ((packetData p).length / size * size))).foldl (fun s x =>
        let rm := Config.freeBits s.fresh % 5
        let y := redValue code op rm (Config.freeBits (s.fresh + 1) % 2 ^ 32)
          (ofBytes ((List.range size).map (fun i => Memory.read s.mem (x.1 + i)))) (ofBytes x.2)
        { s with fresh := s.fresh + 2 }.peerWrites [(x.1, toBytes size y.1)]) s0))

/-! ## Answers (R422, R423) -/

/-- The command and request that a packet's tag names. -/
def State.asked (s : State) (port : Nat) (p : Packet) : Option (Cmd × PeerRequest) :=
  (s.cmds.find? (fun c => c.id % 2 ^ 32 == packetNum p 32 8 / 2 ^ 32)).bind (fun c =>
    (c.remote.find? (fun r => r.index == packetNum p 32 8 % 2 ^ 32 && r.port == port)).map (fun r => (c, r)))

/-- Puts a piece of a peer's data into the element writes that wait for it. -/
def fillPiece (ms : List Move) (el bit width shift : Nat) (data : Nat) : List Move :=
  let v := data / 2 ^ bit % 2 ^ width * 2 ^ shift
  ms.map (fun m =>
    if m.draw == el then
      let w := if m.width == 0 then 8 * m.bytes.length else m.width
      { m with bytes := toBytes m.bytes.length (ofBytes m.bytes ||| v / 2 ^ m.rm % 2 ^ w) }
    else m)

/-- Puts the data of a reply into a command's element writes, piece by piece: a piece begins at a byte of the data. -/
def fillPieces (ps : List (Nat × Nat × Nat × Nat × Nat)) (bs : List Byte) (ms : List Move) : List Move :=
  ps.foldl (fun ms p => fillPiece ms p.1 p.2.1 p.2.2.1 p.2.2.2.1 (ofBytes ((bs.drop p.2.2.2.2).take 9))) ms

/-- NAGIL_READ_REPLY (R422): the data of an XGET. What it brings was written at the peer after the peer's earlier fenced
writes had performed here, so those are visible (R301; log entry 46). -/
def execNagilReadReply (port : Nat) (p : Packet) (s : State) : Out :=
  s.admitPacket port 3 p (fun _ _ => .next (match s.asked port p with
    | none => s
    | some (c, r) => s.peerOrder.modCmd c.id (fun c =>
        ({ c with moves := fillPieces r.pieces (packetPayload p) c.moves }).answered r 0 |> fun d =>
          { d with stat := d.stat ||| (packetNum p 40 4 &&& (stPOIS ||| stFAIL)) })))

/-- NAGIL_COMPLETION (R423): the request has been performed. -/
def execNagilCompletion (port : Nat) (p : Packet) (s : State) : Out :=
  s.admitPacket port 5 p (fun _ _ => .next (match s.asked port p with
    | none => s
    | some (c, r) => s.modCmd c.id (fun c =>
        { c.answered r (packetNum p 40 4 % 256) with bits := c.bits + sumOf (r.pieces.map (fun x => x.2.2.1)) })))

/-- NAGIL_ERROR (R422): PEER and FAIL, and CLASS where the reply says so. -/
def execNagilError (port : Nat) (p : Packet) (s : State) : Out :=
  s.admitPacket port 6 p (fun _ _ => .next (match s.asked port p with
    | none => s
    | some (c, r) => s.modCmd c.id (fun c => c.answered r (packetNum p 40 4 % 256 ||| stPEER ||| stFAIL))))

/-- PEER_TIMEOUT (R422): 2 ms have passed without an answer. -/
def execPeerTimeout (id : Nat) (s : State) : Out :=
  .next (match s.cmd? id with
    | some c =>
      if c.remote.isEmpty || decide (s.now < c.started + 4200000) then s
      else s.modCmd id (fun c => c.remote.foldl (fun c r => c.answered r (stPEER ||| stFAIL)) c)
    | none => s)

end Sys2Proof.Machine
end

