-- ==== Sys2Proof/Machine/Faults.lean ====
section
/-!
DEFINITION. Shared structures, the watchdog and partition resets, repairs, the management processor's resets, fatal errors
and the dump (spec/23, R426 to R437, R441 to R444), and soft errors (spec/13, R323).
-/

namespace Sys2Proof.Machine

/-! ## Partition resets (R430 to R432) -/

/-- The slots of a partition that hold tasks. -/
def State.slotsIn (s : State) (p : Nat) : List SlotId :=
  (s.slots.filter (fun (e : SlotId × Slot) => e.1.part == p && e.2.task.isSome)).map (·.1)

/-- Starts a partition reset, unless one runs: split stops and every queued entry goes. -/
def State.startPartReset (s : State) (p : Nat) : State :=
  match s.part? p with
  | none => s
  | some v =>
    if v.resetting then s
    else
      let s1 := s.modPart p (fun v => { v with resetting := true })
      (s1.slotsIn p).foldl (fun s sl => (s.dropQueues sl).modSlot sl (fun v => { v with
        wait := none
        stall := none
        traps := []
        conex := none
        chain := none })) s1

/-- Sets HEAD of a launch queue to LFENCE + 1 (R382, R431), and notes the HEAD that it had. -/
def State.rewindQueue (s : State) (p fn c q : Nat) : State :=
  match s.launchQueue fn c q with
  | none => s
  | some lq => (s.poke .bank none lq.at_ (toBytes 8 ((lq.lfence + 1) % 2 ^ 64))).modPart p (fun v => { v with
      replay := (fn, c, q, max lq.head (v.replayTo fn c q)) :: v.replay.filter (fun r =>
        !(r.1 == fn && r.2.1 == c && r.2.2.1 == q)) })

/-- A context after a partition reset: a pre-empting or resuming one runs, and its command is abandoned (R431). -/
def State.rerun (s : State) (p fn c : Nat) : State :=
  let x := s.ctx fn c
  let s1 := (s.dropImages p fn c).modCtx fn c (fun y => { y with
    state := 1
    saved := []
    modes := []
    auto := false
    topo := false })
  let s2 := if x.state == 2 && s.commandIs fn 3 c then s1.endCommand fn 3 0
    else if x.state == 4 && s.commandIs fn 4 c then s1.endCommand fn 3 0 else s1
  (List.range 8).foldl (fun s q => s.rewindQueue p fn c q) s2

/-- Completes a partition reset (R431); the kills and function-level resets that waited for it go on (R432). -/
def State.finishPartReset (s : State) (p : Nat) (v : Part) : State :=
  let xs := (s.ctxsOf p).filter (fun x => (s.ctx x.1 x.2).state == 1 || (s.ctx x.1 x.2).state == 2 || (s.ctx x.1 x.2).state == 4)
  let sls := s.slotsIn p
  let dead (k : Kernel) : Bool := xs.contains (k.fn, k.ctx)
  let ks := (s.kernels.filter (fun (k : Nat × Kernel) => dead k.2)).map (·.1)
  let s1 := { s with
    cmds := s.cmds.filter (fun d => !sls.contains d.slot)
    vis := s.vis.filter (fun (x : Nat × Vis) => !(sls.contains x.2.slot && x.2.done.isNone)) }
  let s2 := sls.foldl (fun s sl => (s.leaveGang sl).emptySlot sl) s1
  let s3 := { s2 with kernels := s2.kernels.filter (fun (k : Nat × Kernel) => !ks.contains k.1) }
  let s4 := s3.modPart p (fun w => { w with
    tiles := (List.range (4 * w.clusters.length)).map (fun t => (t, freshTile w.drawseed t))
    ready := w.ready.filter (fun r => !ks.contains r.kernel)
    spawned := w.spawned.filter (fun x => !ks.contains x.kernel)
    loans := []
    wdResets := min (v.wdResets + 1) 65535
    resetting := false })
  let s5 := xs.foldl (fun s x => s.rerun p x.1 x.2) s4
  ((s.fnsOf p).foldl (fun s fn =>
    let s1 := if (s.fn fn).flr && s.locked fn then s.tdiError fn else s
    ((List.range 8).foldl (fun s c =>
      if ((s.fn fn).flr || s.commandIs fn 2 c) && !((s.ctx fn c).state == 0 || (s.ctx fn c).state == 5) then s.startKill fn c
      else s) s1).settleReset fn) s5).revalue

/-- PARTITION_RESET (R431): every write dropped has been acknowledged. -/
def execPartitionReset (p : Nat) (s : State) : Out :=
  match s.part? p with
  | some v => .next (if v.resetting then s.finishPartReset p v else s)
  | none => .next s

/-- SHARED_STRUCTURE_EVENT (R427): KIND 0 or 1 is told to the partitions of the bitmap; 2, an event that the structure
cannot contain, resets each of them too, and takes out the HBM channel that it strikes (R428); 4 takes a Nagil port down. -/
def execSharedStructureEvent (e : SharedEvent) (s : State) : Out :=
  let known := decide (1 ≤ e.src) && decide (e.src ≤ 5) && (decide (e.kind ≤ 2) || (e.kind == 4 && e.src == 4))
  if !known then .next s
  else
    let m := s.blastMap e.src e.inst
    let s1 := s.deviceEvent
      { src := e.src
        kind := e.kind
        inst := e.inst
        pmap := m
        paddr := e.addr } (s.fnsOfMap m)
    let s2 := if e.kind == 2 && e.src == 3 then { s1 with channelsOut := e.inst :: s1.channelsOut.filter (· != e.inst) } else s1
    if e.kind == 2 then .next (((List.range 16).filter (bitOf m)).foldl (fun s p => s.startPartReset p) s2)
    else .next (if e.kind == 4 then s1.portDown e.inst else s1)

/-! ## The watchdog (R429, R430) -/

/-- A watchdog register: LIMIT and EN, at reset 31 and 1 (R429). -/
def State.watchdog (s : State) (p : Nat) : Nat := mget s.regs (0x1500 + 8 * p) 95

/-- Since when a slot is stalled: its core blocks or is stalled at split, and none of its engines has completed an entry. -/
def Slot.stalledSince (v : Slot) : Option Nat :=
  match v.wait, v.stall with
  | some w, _ => some (max w.since v.lastDone)
  | none, some x => some (max x.since v.lastDone)
  | none, none => none

/-- Since when the scheduler leaves a ready entry unadmitted that fits. -/
def Part.schedulerSince (v : Part) : Option Nat := (v.ready.filterMap (·.fitting)).min?

/-- What a firing finds stalled for 2^LIMIT cycles: a slot's identity, or all ones for the scheduler. -/
def State.stalledFor (s : State) (p : Nat) (v : Part) (limit : Nat) : Option Nat :=
  let old (t : Nat) : Bool := decide (t + 2 ^ limit ≤ s.now)
  match (s.slotsIn p).find? (fun sl => match (s.slot sl).stalledSince with
    | some t => old t
    | none => false) with
  | some sl => some (identity sl)
  | none => match v.schedulerSince with
    | some t => if old t then some 0xFFFFFFFF else none
    | none => none

/-- WATCHDOG_FIRE (R430). -/
def execWatchdogFire (p : Nat) (s : State) : Out :=
  match s.part? p with
  | none => .next s
  | some v =>
    let r := s.watchdog p
    if v.resetting || s.fatal.isSome || !bitOf r 6 then .next s
    else match s.stalledFor p v (r % 64) with
      | none => .next s
      | some who => .next ((s.deviceEvent
          { src := 7
            kind := 2
            inst := p
            pmap := 2 ^ p
            aux := who } (s.fnsOf p)).startPartReset p)

/-! ## Repair (R434) -/

/-- PERIODIC_BUILT_IN_TEST (R434): the idle clusters that failed are defective. -/
def execPeriodicBuiltInTest (bad : List Nat) (s : State) : Out :=
  if !s.mp.up || s.fatal.isSome || decide (s.now < s.mp.lastBist + 126000000000) then .next s
  else
    let idle (c : Nat) : Bool := match s.holder c with
      | none => true
      | some (p, k) => (s.slotsIn p).all (fun sl => sl.tile / 4 != k)
    let new := (List.range 64).filter (fun c => bad.contains c && idle c && !s.mp.dead.contains c)
    .next { s with mp := { s.mp with
      dead := new ++ s.mp.dead
      lastBist := s.now } }

/-- Whether a region of a slot holds poison, or errors that a read would detect, or a spilled copy of it poison (R434). -/
def State.regionUnreadable (s : State) (sl : SlotId) (k : Nat) : Bool :=
  let r := s.region sl k
  let a := s.localPhys sl (k * 0x40000)
  let here (g : Nat) : Bool := decide (a ≤ 64 * g) && decide (64 * g < a + 0x40000)
  if r.owner == some sl.slot then
    s.poison.any here || s.flips.any (fun f => here f.seg && decide (findScratch r.cls f.seg f.bits = .detected))
  else r.spilled.any (fun c => c.slot == sl.slot && !c.poison.isEmpty)

/-- Whether a task's state cannot be read without a detected error (R434). -/
def State.unreadable (s : State) (sl : SlotId) : Bool :=
  let r := (s.slot sl).regs
  !r.spoison.isEmpty || !r.mpoison.isEmpty || !r.modd.isEmpty
    || r.a.any (fun (a : Nat × Acc) => !a.2.poison.isEmpty || !a.2.odd.isEmpty) || (List.range 16).any (s.regionUnreadable sl)

/-- The saved members of a gang that fails are saved no more (R434): each fails in its slot, or is counted as failed where
another task has the slot by now. -/
def State.failSaved (s : State) (p fn c g : Nat) : State :=
  let xs := savedGang (s.ctx fn c).saved g
  xs.foldl (fun s x =>
    let sl : SlotId := ⟨p, x.tile, x.slotNo⟩
    if (s.slot sl).task.isNone then
      s.setSlot sl { x.slot with recSeq := (s.slot sl).recSeq, ending := some (.fail { cause := 0x07, val := 0 }) }
    else s.countFailure ((x.slot.task.map (·.kernel)).getD 0)) (s.dropSaved fn c g)

/-- A gang with an unreadable member is discarded, or fails with cause POISON (R434). -/
def State.giveUp (s : State) (sl : SlotId) : State :=
  let ms := s.gangSlots sl
  let g := s.gangNo sl
  let k := (s.kernelOf sl).getD default
  let free (t : Option Task) : Bool := match t with
    | some t => t.status / 8 % 8 == 0
    | none => true
  let ok := ms.all (fun m => free (s.slot m).task) && (savedGang (s.ctx k.fn k.ctx).saved g).all (fun x => free x.slot.task)
  let s1 := ms.foldl (fun s m => s.startEnding m (if ok then .discard else .fail { cause := 0x07, val := 0 })) s
  if ok then s1 else s1.failSaved sl.part k.fn k.ctx g

/-- The clusters of a partition after its k-th is replaced, and the die whose spare it took; none left where it shrinks to
nothing (R434). Which free cluster it takes is a free value (log entry 41). -/
def State.replacement (s : State) (c k : Nat) (cs : List Nat) : List Nat × Option Nat :=
  let die := c / 16
  let spare := die * 16 + Config.spareCluster die % 16
  let free := (s.freeClusters 0 16).filter (fun x => !isSpare x)
  if !s.mp.spareUsed.contains die && !s.mp.dead.contains spare && spare != c then (cs.set k spare, some die)
  else if !free.isEmpty then (cs.set k (free.getD (Config.freeBits s.fresh % free.length) 0), none)
  else ((cs.set k (cs.getLastD 0)).take (cs.length - 1), none)

/-- CLUSTER_REPAIR (R434): the management processor declares a cluster defective and repairs its partition by a commit. -/
def execClusterRepair (c : Nat) (s : State) : Out :=
  if !s.mp.up || s.fatal.isSome || decide (64 ≤ c) then .next s
  else
    let s1 := { s with mp := { s.mp with dead := if s.mp.dead.contains c then s.mp.dead else c :: s.mp.dead } }
    match s1.holder c with
    | none => .next s1
    | some (p, k) =>
      match s1.part? p with
      | none => .next s1
      | some v =>
        if !s1.mayCommit [p] || s1.mp.repairing.isSome then .next s1
        else
          let r := s1.replacement c k v.clusters
          let s2 := { s1 with
            fresh := s1.fresh + 1
            mp := { s1.mp with
              repairing := some c
              spareUsed := match r.2 with
                | some d => d :: s1.mp.spareUsed
                | none => s1.mp.spareUsed } }
          let bad := (s2.slotsIn p).filter s2.unreadable
          let heads := bad.filter (fun sl => bad.find? (fun x => s2.gangNo x == s2.gangNo sl) == some sl)
          let s3 := heads.foldl (fun s sl => s.giveUp sl) s2
          let gone := r.1.isEmpty
          let groups := (s3.takeGroups r.1 v.setGroups p).getD v.groups
          let s4 := if gone then (s3.ctxsOf p).foldl (fun s x =>
              if (s.ctx x.1 x.2).state == 5 then s else s.startKill x.1 x.2) s3 else s3
          .next (s4.beginCommit [{ v.layout p with gone := gone, clusters := r.1, groups := groups }])

/-! ## Fatal errors and the dump (R441 to R444) -/

/-- A fatal error: split and launches stop everywhere, and every write in flight is dropped. -/
def State.fatalStop (s : State) (cause die : Nat) : State :=
  if s.fatal.isSome then s
  else { s with
    fatal := some { cause := cause, die := die, cycle := s.deviceCycle }
    cmds := [] }

/-- FATAL_ERROR (R441). -/
def execFatalError (cause info : Nat) (s : State) : Out :=
  .next (if 1 ≤ cause ∧ cause ≤ 6 then s.fatalStop cause (info % 256) else s)

/-- MP_WATCHDOG_RESET (R437, R449): sessions end, and what it had begun beside a commit is begun anew; the retention SRAM
stays. A third reset within 60 s is fatal. -/
def execMpWatchdogReset (s : State) : Out :=
  let m := s.mp
  if !m.up || decide (s.now < m.beat + 1050000000) then .next s
  else
    let ts := s.now :: m.resetAt.filter (fun t => decide (s.now < t + 126000000000))
    let s1 := { s with
      mp := { m with
        up := false
        resetAt := ts
        sessions := []
        reclass := none
        moved := 0 }
      classLocks := match m.reclass with
        | some x => s.classLocks.filter (· != x.1)
        | none => s.classLocks }
    .next (if 3 ≤ ts.length then s1.fatalStop 4 0xFF else s1)

/-- MP_RESTART (R437): a prepared journal with a right digest is finished by phase two; one with a wrong digest is
empty, and its partitions go on under their old layout. -/
def execMpRestart (s : State) : Out :=
  let m := s.mp
  if m.up || m.startStep == 0 then .next s
  else
    let s1 := { s with mp := { m with up := true, beat := s.now } }
    if m.jstate == 1 && m.digest != journalDigest m.lseq m.layout then
      let s2 := m.layout.foldl (fun s l => s.modPart l.part (fun v => { v with paused := false })) s1
      .next { s2 with mp := { s2.mp with
        jstate := 0
        repairing := none } }
    else .next s1

/-- Pads bytes to a multiple of 64. -/
def pad64 (bs : List Byte) : List Byte := bs ++ List.replicate ((64 - bs.length % 64) % 64) 0

/-- The sections of the dump (R443): what each holds is as the rule says, its form the model's (log entry 19). -/
def State.dumpSections (s : State) : List (List Byte) :=
  let parts := s.partsInOrder
  let fns := s.fns.flatMap (fun (f : Nat × Fn) => f.2.ctxs.map (fun (c : Nat × Ctx) => (f.1, c)))
  [s.devRecords.flatten,
   (List.range s.ndie).flatMap (fun d => toBytes 1 d ++ toBytes 8 (mget s.dieErrors d (0, 0)).1 ++ toBytes 8 (mget s.dieErrors d (0, 0)).2
     ++ (List.range 64).flatMap (fun g => toBytes 2 (s.blastMap 1 (d * 2 ^ 14 + g)))
     ++ (List.range 20).flatMap (fun g => toBytes 2 (s.blastMap 2 (d * 2 ^ 14 + g))) ++ toBytes 2 (s.blastMap 5 (d * 2 ^ 14))),
   parts.flatMap (fun (p : Nat × Part) => toBytes 1 p.1
     ++ (((p.2.clusters.map (· + 128)) ++ List.replicate 60 0).take 60).flatMap (toBytes 1) ++ toBytes 8 p.2.keys)
     ++ (List.range 256).flatMap (fun i => toBytes 2 (s.blastMap 3 i)) ++ (List.range 24).flatMap (fun i => toBytes 2 (s.blastMap 4 i)),
   toBytes 8 s.mp.lseq ++ toBytes 1 s.mp.jstate ++ toBytes 3 0 ++ toBytes 2 (affectOf s.mp.layout) ++ toBytes 2 0
     ++ (s.mp.layout.flatMap Layout.bytes ++ List.replicate 4080 0).take 4080 ++ toBytes 32 s.mp.digest,
   fns.flatMap (fun x => toBytes 1 x.1 ++ toBytes 1 x.2.1 ++ toBytes 1 x.2.2.state ++ toBytes 1 0 ++ toBytes 2 x.2.2.tag
     ++ toBytes 2 0 ++ toBytes 8 x.2.2.lqBase ++ toBytes 8 x.2.2.errBase ++ toBytes 8 x.2.2.spillBase
     ++ toBytes 8 x.2.2.saveBase ++ toBytes 2 x.2.2.node ++ toBytes 2 x.2.2.pdeadline ++ toBytes 4 x.2.2.slice
     ++ (List.range 8).flatMap (fun q => toBytes 8 (((s.launchQueue x.1 x.2.1 q).map (·.head)).getD 0))),
   s.slots.flatMap (fun (e : SlotId × Slot) => toBytes 4 (identity e.1) ++ toBytes 8 e.2.pc.toNat
     ++ toBytes 4 e.2.csr.trapcause ++ toBytes 4 ((e.2.task.map (·.status)).getD 0)
     ++ [Engine.v, .m, .x, .d, .b].flatMap (fun g => toBytes 4 (e.2.seq g).occupancy)),
   s.ports.flatMap (fun (p : Nat × Port) => toBytes 4 p.1 ++ toBytes 4 p.2.keyDrop ++ toBytes 4 p.2.macDrop
     ++ toBytes 4 (if p.2.up then 1 else 0) ++ toBytes 4 p.2.resends)]

/-- Section table entries, from the unit where the first begins (R443). -/
def sectionTable : Nat → Nat → List (List Byte) → List Byte
  | _, _, [] => []
  | ty, at_, b :: bs =>
    let n := (b.length + 63) / 64
    toBytes 2 ty ++ toBytes 6 0 ++ toBytes 4 at_ ++ toBytes 4 n ++ sectionTable (ty + 1) (at_ + n) bs

/-- The dump of a fatal error (R443). -/
def State.dumpBytes (s : State) (f : Fatal) : List Byte :=
  let xs := s.dumpSections
  let body := pad64 (sectionTable 1 3 xs) ++ xs.flatMap pad64
  toBytes 4 0x5A39D0D0 ++ toBytes 2 1 ++ toBytes 2 xs.length ++ toBytes 8 f.cycle ++ toBytes 1 f.cause ++ toBytes 1 f.die
    ++ toBytes 2 0 ++ toBytes 8 s.devErrSeq ++ toBytes 4 0 ++ toBytes 32 (Config.sha256 body).toNat ++ body

/-- DUMP_DONE (R442, R453): the dump is in its area, and the host is told; after a thermal trip the power goes. -/
def execDumpDone (s : State) : Out :=
  match s.fatal with
  | none => .next s
  | some f =>
    if bitOf (mget s.regs 0x1608 0) 0 then .next s
    else
      let b := s.dumpBytes f
      let cut := decide (0x10000000 < b.length)
      let s1 := { s with
        dump := b.take 0x10000000
        regs := mset s.regs 0x1608 (1 + (if cut then 2 else 0) + f.cause * 16)
        power := { s.power with powered := s.power.powered && f.cause != 5 } }
      .next ((s1.msix 0 0).send 3 [1])

/-- DUMP_WINDOW_READ (R444). -/
def execDumpWindowRead (s : State) : Out :=
  let off := mget s.regs 0x1610 0
  if !bitOf (mget s.regs 0x1608 0) 0 || decide (0x10000000 ≤ off) then .next (s.send 50 [] (List.replicate 8 0xFF))
  else
    let b := (s.dump.drop off ++ List.replicate 8 0).take 8
    .next ({ s with regs := mset s.regs 0x1610 (off + 8) }.send 50 [] b)

/-! ## Soft errors (R323) -/

/-- Bytes with bits of them flipped. -/
def flipIn (bits : List Nat) (bs : List Byte) : List Byte :=
  bs.zipIdx.map (fun x => x.1 ^^^ BitVec.ofNat 8 (sumOf ((bits.filter (fun b => b / 8 == x.2)).map (fun b => 2 ^ (b % 8)))))

/-- A soft error in a gap between checks (R428): what a command in flight is to write, or a bank command has just written,
is wrong, with valid check bits. -/
def State.flightError (s : State) (id n : Nat) (bits : List Nat) : State :=
  match s.cmd? id with
  | none => s
  | some c =>
    match c.moves[n]?, (if c.executed then c.dst[n]? else none) with
    | some m, _ => s.modCmd id (fun c => { c with moves := c.moves.set n { m with bytes := flipIn bits m.bytes } })
    | none, some d => if c.bank.isSome then
        { s with mem := Memory.writeAll s.mem d.1 (flipIn bits ((List.range d.2).map (fun i => Memory.read s.mem (d.1 + i)))) }
      else s
    | none, none => s

/-- SOFT_ERROR (R323, R428): an element's parity is known at once, and found when it is read (log entry 47). -/
def execSoftError (t : ErrorTarget) (s : State) : Out :=
  match t with
  | .mem a bits => .next (if a < 0x8000000000 then s.addFlip (a / 64) bits none else s)
  | .cache a bits clean => .next (if a < 0x8000000000 then s.addFlip (a / 64) bits (some clean) else s)
  | .scratch sl a bits => .next (if s.localHeld sl a then s.addFlip (s.localPhys sl a / 64) bits none else s)
  | .matrix sl m e bits =>
    let bs := (bits.eraseDups).filter (fun b => decide (b < 32))
    if (s.slot sl).task.isNone || bs.isEmpty then .next s
    else
      let i := 1024 * m.val + e.val
      .next (s.modRegs sl (fun r => { r with
        m := mmod r.m i 0 (fun v => v ^^^ BitVec.ofNat 32 (sumOf (bs.map (2 ^ ·))))
        modd := if bs.length % 2 == 1 then flipParity r.modd i else r.modd }))
  | .vector sl m e bits =>
    let bs := (bits.eraseDups).filter (fun b => decide (b < 32))
    .next (if (s.slot sl).task.isNone then s else s.modRegs sl (fun r => { r with
      m := mmod r.m (1024 * m.val + e.val) 0 (fun v => v ^^^ BitVec.ofNat 32 (sumOf (bs.map (2 ^ ·)))) }))
  | .flight id n bits => .next (s.flightError id n bits.eraseDups)
  | .accum sl n e bits =>
    let bs := (bits.eraseDups).filter (fun b => decide (b < 40))
    if (s.slot sl).task.isNone || bs.isEmpty then .next s
    else .next (s.modRegs sl (fun r => { r with a := mmod r.a n.val {} (fun x => { x with
      el := mmod x.el e.val 0 (fun v => v ^^^ BitVec.ofNat 40 (sumOf (bs.map (2 ^ ·))))
      odd := if bs.length % 2 == 1 then flipParity x.odd e.val else x.odd }) }))
  | .scalar sl n bits =>
    let bs := (bits.eraseDups).filter (fun b => decide (b < 64))
    let i := (s.slot sl).sIndex n.val
    let flipped (bs : List Nat) (s : State) : State := s.modRegs sl (fun r => { r with
      s := mmod r.s i 0 (fun v => v ^^^ BitVec.ofNat 64 (sumOf (bs.map (2 ^ ·)))) })
    let flip := flipped bs
    let mark (s : State) : State := s.modRegs sl (fun r => { r with
      spoison := i :: r.spoison
      sflip := r.sflip.filter (· != i) })
    if (s.slot sl).task.isNone || bs.isEmpty || n.val == 0 then .next s
    else if bs.length == 1 && !(s.slot sl).regs.sflip.contains i then
      .next (s.modRegs sl (fun r => { r with sflip := i :: r.sflip }))
    else if bs.length ≤ 2 then .next (mark (flip s))
    else match beyond i bs with
      | .detected => .next (mark (flip s))
      | .miscorrected _ =>
        .next (flipped ((Config.miscorrected i bs).eraseDups.filter (fun b => decide (b < 64))) s)
      | _ => .next (flip s)

end Sys2Proof.Machine
end

