-- ==== Sys2Proof/Machine/Migration.lean ====
section
/-!
DEFINITION. Migration of a virtual function (spec/23, R438 to R440).
-/

namespace Sys2Proof.Machine

/-- Refuses a request or rejects a stream: ERR of MIGSTAT. -/
def State.migErr (s : State) (fn : Nat) : State := s.setReg fn 0x1408 8

/-- Sets the migration state of a function. -/
def State.setMig (s : State) (fn st : Nat) : State := s.modFn fn (fun f => { f with mig := st })

/-! ## The outgoing stream -/

/-- The header of a stream record (R439). -/
def streamHeader (ty ctx len va : Nat) : List Byte :=
  toBytes 2 ty ++ toBytes 1 ctx ++ toBytes 1 0 ++ toBytes 4 len ++ toBytes 8 va

/-- A record with its body padded to a multiple of 8. -/
def streamRecord (ty ctx va : Nat) (body : List Byte) : List Byte :=
  streamHeader ty ctx body.length va ++ body ++ List.replicate ((8 - body.length % 8) % 8) 0

/-- The 64 KiB pages that a function's contexts map, ascending by context and address: context, virtual address and page. -/
def State.migPages (s : State) (fn : Nat) : List (Nat × Nat × Page) :=
  (List.range 8).flatMap (fun c =>
    if (s.ctx fn c).state == 0 then []
    else (s.mappedPages fn c).flatMap (fun p =>
      if isPeer p.frame then []
      else (List.range (p.size / 0x10000)).map (fun i => (c, p.va + 0x10000 * i, p))))

/-- Physical address of a streamed page. -/
def State.migPhys (s : State) (va : Nat) (p : Page) : Nat :=
  s.backing .bank p.frame p.size p.shadow (va - p.va)

/-- Whether a page is still to be sent: never yet, or written since its last emission (R440), by an access in T or by a
save, a scrub or a publish, which the bytes then sent show. -/
def State.migDirty (s : State) (fn : Nat) (x : Nat × Nat × Page) : Bool :=
  match mfind (s.fn fn).migSent (x.1, x.2.1) with
  | none => true
  | some (t, b) =>
    let a := s.migPhys x.2.1 x.2.2
    s.hist.any (fun r => decide (t ≤ r.at_) && decide (a ≤ r.addr) && decide (r.addr < a + 0x10000))
      || decide (s.readBytes .bank a 0x10000 ≠ b)

/-- Pages still to be sent, while a stream is being made (R438). -/
def State.migLeft (s : State) (fn : Nat) : Nat :=
  if (s.fn fn).mig == 1 || (s.fn fn).mig == 2 then ((s.migPages fn).filter (fun x => s.migDirty fn x)).length else 0

/-- The page that goes next: first those never sent, then those written since. -/
def State.migNext (s : State) (fn : Nat) : Option (Nat × Nat × Page) :=
  let ps := s.migPages fn
  match ps.find? (fun x => (mfind (s.fn fn).migSent (x.1, x.2.1)).isNone) with
  | some x => some x
  | none => ps.find? (fun x => s.migDirty fn x)

/-- Appends bytes to the stream. -/
def State.migEmit (s : State) (fn : Nat) (b : List Byte) : State :=
  s.modFn fn (fun f => { f with migOut := f.migOut ++ b, migAll := f.migAll ++ b })

/-- The last records of a stream (R439, R440): CTX for each context, CURR, END. What a body holds is as R439 says, its form
the model's (log entry 48). -/
def State.migEnd (s : State) (fn : Nat) : State :=
  let cs := (List.range 8).filter (fun c => (s.ctx fn c).state != 0)
  let ctx (c : Nat) : List Byte :=
    let x := s.ctx fn c
    streamRecord 2 c 0 (toBytes 1 x.state ++ toBytes 1 0 ++ toBytes 2 x.pdeadline ++ toBytes 4 x.slice)
  let own := s.currencies.filter (fun (n : Nat × Currency) => s.ownNode fn n.1)
  let curr := streamRecord 3 0 0 (own.flatMap (fun n => toBytes 2 n.1 ++ toBytes 2 n.2.parent ++ toBytes 4 n.2.funding))
  let s1 := s.migEmit fn (cs.flatMap ctx ++ curr)
  let digest := Config.sha256 ((s1.fn fn).migAll ++ streamHeader 5 0 32 0)
  (s1.migEmit fn (streamRecord 5 0 0 (toBytes 32 digest.toNat))).modFn fn (fun f => { f with migStage := 2 })

/-- Whether every context of a function that was running has been saved. -/
def State.migStopped (s : State) (fn : Nat) : Bool :=
  (List.range 8).all (fun c => (s.ctx fn c).state == 0 || (s.ctx fn c).state == 3)

/-- Pre-empts every context of a function that runs, drain apart, and notes it for the resumption in place (R440). -/
def State.migPause (s : State) (fn : Nat) : State :=
  let run := (List.range 8).filter (fun c => (s.ctx fn c).state == 1)
  run.foldl (fun s c => s.startPreempt fn c 0 false false)
    (s.modFn fn (fun f => { f with migStates := run.foldl (fun m c => mset m c 1) f.migStates }))

/-- Makes more of the stream readable where nothing is (R440): FUNC first, then page after page, and in stopping, once the
contexts are saved and every page sent, the last records. A context that came to run meanwhile is pre-empted too. -/
def State.migFill (s : State) (fn : Nat) : State :=
  let f := s.fn fn
  if !f.migOut.isEmpty || !(f.mig == 1 || f.mig == 2) || f.migStage == 2 then s
  else if f.migStage == 0 then
    (s.migEmit fn (streamRecord 1 0 0 (toBytes 1 (maskOf 8 (fun c => (s.ctx fn c).state != 0))))).modFn fn (fun f =>
      { f with migStage := 1 })
  else if f.mig == 2 && !s.migStopped fn then s.migPause fn
  else match s.migNext fn with
    | some x =>
      let b := s.readBytes .bank (s.migPhys x.2.1 x.2.2) 0x10000
      (s.migEmit fn (streamRecord 4 x.1 x.2.1 b)).modFn fn (fun f =>
        { f with migSent := mset f.migSent (x.1, x.2.1) (s.seqT, b) })
    | none => if f.mig == 2 then s.migEnd fn else s

/-- Bytes of the stream that can be read now, MIGSTAT.AVAIL (R438, R439): those made, or that a read makes. -/
def State.migAvail (s : State) (fn : Nat) : Nat :=
  if (s.fn fn).mig == 0 || (s.fn fn).mig == 4 then 0 else ((s.migFill fn).fn fn).migOut.length

/-- Forgets a stream. -/
def State.migClear (s : State) (fn : Nat) : State :=
  s.modFn fn (fun f => { f with
    migOut := []
    migAll := []
    migStage := 0
    migIn := []
    migSent := [] })

/-! ## Requests (R438) -/

/-- MIGRATION_PRE_COPY: from running. -/
def execMigrationPreCopy (fn : Nat) (s : State) : Out :=
  if (s.fn fn).mig != 0 || fn == 0 then .next (s.migErr fn)
  else .next ((((s.migClear fn).setMig fn 1)).migFill fn)

/-- MIGRATION_STOPPING: from running or pre-copy; every running context is pre-empted, drain apart (R440). -/
def execMigrationStopping (fn : Nat) (s : State) : Out :=
  let m := (s.fn fn).mig
  if !(m == 0 || m == 1) || fn == 0 then .next (s.migErr fn)
  else
    let s1 := ((if m == 0 then s.migClear fn else s).modFn fn (fun f => { f with migStates := [] })).setMig fn 2
    .next ((s1.migPause fn).migFill fn)

/-- MIGRATION_RESUMING: from running, when the function has no context. -/
def execMigrationResuming (fn : Nat) (s : State) : Out :=
  if (s.fn fn).mig != 0 || s.holdsCtx fn || fn == 0 then .next (s.migErr fn)
  else .next (((s.migClear fn).modFn fn (fun f => { f with migStates := [] })).setMig fn 4)

/-- MIGRATION_RUNNING: from pre-copy, which it cancels, or from stopped, where the contexts resume in place. -/
def execMigrationRunning (fn : Nat) (s : State) : Out :=
  let f := s.fn fn
  if f.mig == 1 then .next ((s.migClear fn).setMig fn 0)
  else if f.mig == 3 then
    let s1 := f.migStates.foldl (fun s (x : Nat × Nat) =>
      if (s.ctx fn x.1).state == 3 && x.2 == 1 then s.modCtx fn x.1 (fun c => { c with auto := true }) else s) s
    .next (((s1.migClear fn).modFn fn (fun f => { f with migStates := [] })).setMig fn 0)
  else .next (s.migErr fn)

/-- MIGRATION_STREAM_READ (R439): the next 8 bytes, or all ones where AVAIL is 0; the last of END stops the function. -/
def execMigrationStreamRead (fn : Nat) (s : State) : Out :=
  let s1 := s.migFill fn
  let f := s1.fn fn
  if s.migAvail fn == 0 then .next (s1.send 51 [fn] (List.replicate 8 0xFF))
  else
    let s2 := s1.modFn fn (fun f => { f with migOut := f.migOut.drop 8 })
    let s3 := if f.mig == 2 && f.migStage == 2 && f.migOut.length ≤ 8 then s2.setMig fn 3 else s2.migFill fn
    .next (s3.send 51 [fn] (f.migOut.take 8))

/-! ## The incoming stream (R440) -/

/-- Rejects a stream: the function runs with ERR and no context. -/
def State.migReject (s : State) (fn : Nat) : State :=
  let s1 := ((s.migErr fn).migClear fn).setMig fn 0
  (List.range 8).foldl (fun s c => if (s.ctx fn c).state == 0 || (s.ctx fn c).state == 5 then s else s.startKill fn c) s1

/-- Whether a record's header keeps its limits. -/
def streamHeaderOk (h : List Byte) : Bool :=
  let n (o k : Nat) : Nat := blockNum h o k
  let len := n 4 4
  n 3 1 == 0 && (match n 0 2 with
    | 1 => len == 1 && n 2 1 == 0 && n 8 8 == 0
    | 2 => len == 8 && decide (n 2 1 < 8) && n 8 8 == 0
    | 3 => len % 8 == 0 && decide (len ≤ 8192) && n 2 1 == 0 && n 8 8 == 0
    | 4 => len == 0x10000 && decide (n 2 1 < 8) && n 8 8 % 0x10000 == 0 && decide (n 8 8 < 2 ^ 57)
    | 5 => len == 32 && n 2 1 == 0 && n 8 8 == 0
    | _ => false)

/-- Writes a PAGE: in a save area each image header takes the target context's tag (R402, R440). -/
def State.migPage (s : State) (fn c va : Nat) (b : List Byte) : Option State :=
  let x := s.ctx fn c
  if x.state == 0 then none
  else (s.ctxPhys fn c va).map (fun a =>
    let off := va - x.saveBase
    let hdr := decide (x.saveBase ≤ va) && decide (off < 0x480000 * 32 * s.nclus (s.partOfFn fn)) && off % 0x480000 == 0
    s.poke .host none a (if hdr then b.take 16 ++ toBytes 2 x.tag ++ b.drop 18 else b))

/-- The launch that a queue had in progress, by its header and rings (R371, R376, R381): the one before HEAD, unless its
completion entry is there. -/
def State.runningLaunch (s : State) (p fn c q : Nat) : Option Kernel :=
  (s.launchQueue fn c q).bind (fun lq =>
    let i := lq.head - 1
    let over_ := match s.ctxRead fn c (lq.entry i) 32 with
      | some b => blockNum b 8 8 == i && blockNum b 24 8 != 0
      | none => false
    if lq.head == 0 || over_ then none else s.parseLaunch p fn c q i (lq.record i))

/-- A saved task as its image and its block in memory give it, for a kernel and a gang; a task of the initial table is its
kernel's (log entry 48). -/
def State.savedFrom (s : State) (fn c kid : Nat) (k : Kernel) (g : Nat) (sl : SlotId) : Saved :=
  let va := s.imageVa fn c sl
  let tcb := s.pinnedNum fn c (va + 8) 8
  let t := if tcb == 0 then ((initialGang kid k 0 0).head?).getD default
    else taskOfTcb kid tcb ((s.ctxRead fn c tcb 128).getD [])
  { tile := sl.tile
    slotNo := sl.slot
    slot := { (default : Slot) with task := some { t with gang := g } }
    regions := s.imageRegions fn c va []
    gang := g
    loss := []
    factor := [] }

/-- Establishes the lease of a launch that came in progress (R377, R440). -/
def State.adoptLaunch (s : State) (k : Kernel) : State :=
  let ps := (List.range k.ranges.length).flatMap (fun r => (s.pagesOf k r).mapped.map (·.1))
  let s1 := ps.foldl (fun s p => p.frames.foldl (fun s a => s.ownFrame k p a) s) s
  { s1 with
    nextKernel := s1.nextKernel + 1
    kernels := mset s1.kernels s1.nextKernel { k with phase := 1, pages := ps } }

/-- Takes one image of a saved context's save area as a saved task of the kernel in whose ranges its PC lies. -/
def State.adoptImage (s : State) (fn c : Nat) (sl : SlotId) : State :=
  let pc := s.pinnedNum fn c (s.imageVa fn c sl + 0x100 + 8 * 81) 8
  match s.kernels.find? (fun (k : Nat × Kernel) => k.2.fn == fn && k.2.ctx == c &&
      k.2.ranges.any (fun r => decide (r.base ≤ pc) && decide (pc < r.base + r.len))) with
  | none => s
  | some k =>
    let g := s.nextGang
    { s with
      nextGang := g + 1
      gangs := mset s.gangs g { kernel := k.1, size := 1, members := [(0, sl)], arrived := [], completed := [] } }.modCtx fn c
        (fun x => { x with saved := x.saved ++ [s.savedFrom fn c k.1 k.2 g sl] })

/-- What waits for RESUME in a saved context that came in a stream (R440): the launches in progress, and the tasks whose
images are valid, each a gang of one (log entry 48). -/
def State.adoptContext (s : State) (fn c : Nat) : State :=
  let p := s.partOfFn fn
  let s1 := ((List.range 8).filterMap (s.runningLaunch p fn c)).foldl (fun s k => s.adoptLaunch k) s
  let valid (sl : SlotId) : Bool :=
    let va := s.imageVa fn c sl
    s.pinnedNum fn c (va + 2) 1 == 1 && s.pinnedNum fn c (va + 16) 2 == (s.ctx fn c).tag
  (((List.range (32 * s.nclus p)).map (slotOfIdentity p)).filter valid).foldl (fun s sl => s.adoptImage fn c sl) s1

/-- Accepts a stream: each context takes the state of its CTX record, and a saved one waits for RESUME. -/
def State.migAccept (s : State) (fn : Nat) : State :=
  let s1 := (s.fn fn).migStates.foldl (fun s (x : Nat × Nat) =>
    let s1 := s.modCtx fn x.1 (fun c => { c with state := x.2 })
    if x.2 == 3 then s1.adoptContext fn x.1 else s1) s
  (((s1.migClear fn).modFn fn (fun f => { f with migStates := [] })).setMig fn 0).revalue

/-- Applies one whole record of the incoming stream. -/
def State.migApply (s : State) (fn : Nat) (r : List Byte) : State :=
  let c := blockNum r 2 1
  let len := blockNum r 4 4
  let b := (r.drop 16).take len
  let kept := s.modFn fn (fun f => { f with migAll := f.migAll ++ r })
  match blockNum r 0 2 with
  | 2 =>
    let st := blockNum b 0 1
    if (s.ctx fn c).state == 0 || !(st == 1 || st == 3) then s.migReject fn
    else (kept.modFn fn (fun f => { f with migStates := mset f.migStates c st })).modCtx fn c (fun x => { x with
      pdeadline := blockNum b 2 2
      slice := blockNum b 4 4 })
  | 4 => match kept.migPage fn c (blockNum r 8 8) b with
    | some s1 => s1
    | none => s.migReject fn
  | 5 => if ofBytes b == (Config.sha256 ((s.fn fn).migAll ++ r.take 16)).toNat then s.migAccept fn else s.migReject fn
  | _ => kept

/-- MIGRATION_STREAM_WRITE (R439, R440): the next 8 bytes; a whole record takes effect. -/
def execMigrationStreamWrite (fn v : Nat) (s : State) : Out :=
  if (s.fn fn).mig != 4 then .next s
  else
    let b := (s.fn fn).migIn ++ toBytes 8 v
    let n := 16 + (blockNum b 4 4 + 7) / 8 * 8
    if b.length < 16 then .next (s.modFn fn (fun f => { f with migIn := b }))
    else if !streamHeaderOk (b.take 16) then .next (s.migReject fn)
    else if b.length < n then .next (s.modFn fn (fun f => { f with migIn := b }))
    else .next ((s.modFn fn (fun f => { f with migIn := [] })).migApply fn b)

end Sys2Proof.Machine
end

