-- ==== Sys2Proof/Machine/HostPort.lean ====
section
/-!
DEFINITION. What the host does to the device: register writes (R8), bias flips (spec/22, R413, R414), CXL.mem (R415), TDISP
(R416), SPDM and keys (R418, R419), the error log's base and feature negotiation (R424, R447), and function-level resets
(spec/21, R408).
-/

namespace Sys2Proof.Machine

/-! ## Bias flips (R414) -/

/-- The end of a flip or of a command that fails: RESULT, VALUE and MSI-X vector 2. -/
def State.endFlip (s : State) (fn result value : Nat) : State :=
  let ovr := s.reg fn 0x1158 / 2 % 2
  ((s.setReg fn 0x1158 (ovr * 2 + result * 16 + value * 2 ^ 32)).modFn fn (fun f => { f with flip := none })).msix fn 2

/-- Starts a flip of the span of BIASBASE and BIASLEN (R414): of its pages in HBM, since one of an aperture has no bias
of its own (R412, R413). -/
def State.startFlip (s : State) (fn ctx : Nat) (host : Bool) : State :=
  let base := s.reg fn 0x1148
  let len := s.reg fn 0x1150
  let st := (s.ctx fn ctx).state
  let ps := s.pagesFrom fn ctx 0 (base + len) (len / 0x10000) base
  if !(st == 1 || st == 3) then s.endFlip fn 2 0
  else if base % 0x10000 != 0 || len % 0x10000 != 0 || meetsSpan base len 0x1FFFFFFC0000000 0x40000000 || ps.bad
      || !ps.missing.isEmpty || ps.mapped.any (fun p => p.1.bk) then s.endFlip fn 1 0
  else
    let todo := (ps.mapped.filter (fun p => s.isHbm p.1.frame && p.1.bias != host)).map (fun p =>
      ({ leaf := p.1.leaf, frame := p.1.frame, span := p.1.span } : FlipPage))
    (s.setReg fn 0x1158 (setField (s.reg fn 0x1158) 0 1 1)).modFn fn (fun f => { f with
      flip := some { host := host, leaves := todo, count := 0 } })

/-- A write of BIASCMD. -/
def biasCommand (fn : Nat) (host : Bool) (s : State) : Out :=
  if bitOf (s.reg fn 0x1158) 0 then .next (s.setReg fn 0x1158 (setField (s.reg fn 0x1158) 1 1 1))
  else .next (s.startFlip fn (s.reg fn 0x1140 / 4 % 8) host)

/-- HOST_BIAS_FLIP (R414). -/
def execHostBiasFlip (fn : Nat) (s : State) : Out := biasCommand fn true s

/-- DEVICE_BIAS_FLIP (R414). -/
def execDeviceBiasFlip (fn : Nat) (s : State) : Out := biasCommand fn false s

/-- Whether an address lies in a page being flipped. -/
def FlipPage.has (p : FlipPage) (a : Nat) : Bool := decide (p.frame ≤ a) && decide (a < p.frame + p.span)

/-- The atomics of narrow scope on some words are over for the host: none of its writes falls between their read and their
write any more (R102, R300). -/
def State.pastAtomics (s : State) (here : Nat → Bool) : State :=
  { s with slots := s.slots.map (fun (e : SlotId × Slot) => (e.1, match e.2.narrow with
      | some w => if here w then { e.2 with narrow := none } else e.2
      | none => e.2)) }

/-- Drains a page at a bias flip (R300): every write of its bytes is visible on both sides. -/
def State.drainPages (s : State) (p : FlipPage) : State :=
  { s with hist := s.hist.map (fun (r : Rec) => if p.has r.addr then
      { r with weak := false, seen := if s.sees .host r then r.seen else (.host, s.seqT) :: r.seen } else r) }.pastAtomics p.has

/-- Writes the BIAS bit of a leaf, and of the pages of leases that it maps (R412), after the page is drained. -/
def State.flipLeaf (s : State) (p : FlipPage) (host : Bool) : State :=
  let b := s.readNum .bank (p.leaf + 7) 1
  let s1 := (s.drainPages p).poke .bank none (p.leaf + 7) (toBytes 1 (setField b 4 1 (if host then 1 else 0)))
  { s1 with kernels := s1.kernels.map (fun (k : Nat × Kernel) => (k.1, { k.2 with
      pages := k.2.pages.map (fun q => if q.leaf == p.leaf then { q with bias := host } else q) })) }

/-- BIAS_FLIP_COMPLETION (R300): the next page of a flip takes its place in T; after the last one BUSY clears. -/
def execBiasFlipCompletion (fn : Nat) (s : State) : Out :=
  match (s.fn fn).flip with
  | none => .next s
  | some x =>
    match x.leaves with
    | [] => .next (s.endFlip fn 0 x.count)
    | l :: ls =>
      let s1 := s.flipLeaf l x.host
      if ls.isEmpty then .next (s1.endFlip fn 0 (x.count + 1))
      else .next (s1.modFn fn (fun f => { f with flip := some { x with leaves := ls, count := x.count + 1 } }))

/-! ## CXL.mem (R415) -/

/-- The bytes that a host write leaves: where it falls between the read and the write of an atomic of a narrower scope, the
atomic's value may win (R102). It does not fall there once the host has read the word after the atomic. -/
def State.hostWrites (s : State) (a : Nat) (bs : List Byte) : List Byte :=
  let lost (x : Nat) : Bool := Config.freeBits s.fresh % 2 == 1 &&
    s.slots.any (fun (e : SlotId × Slot) => match e.2.narrow with
      | some w => decide (w ≤ x) && decide (x < w + 8)
      | none => false)
  bs.zipIdx.map (fun x => if lost (a + x.2) then Memory.read s.mem (a + x.2) else x.1)

/-- CXL_MEM_ACCESS (R415): admitted under the stream of the function that owns the frames, where its TDI is in RUN or was
never locked. An access that is not admitted performs nothing, and a read of it returns all ones; so does one of stacks
without power (R453). -/
def execCxlMemAccess (a : CxlAccess) (s : State) : Out :=
  let n := if a.write then a.data.length else a.size
  let fs := framesIn a.addr n
  let own (x : Nat) : Bool :=
    let f := s.frame x
    s.isHbm x && f.state == 1 && f.fn == a.stream
  let f := s.fn a.stream
  if !fs.all own || !(f.tdi == 2 || !f.everLocked) || !s.power.powered then
    .next ((s.send 3 [2, a.addr]).send 52 [a.addr, 0] (if a.write then [] else List.replicate n 0xFF))
  else
    let s1 := s.settle peerSlot 0 a.addr n
    if a.write then
      .next (({ s1 with fresh := s1.fresh + 1 }.poke .host none a.addr (s1.hostWrites a.addr a.data)).clearPoison a.addr n)
    else
      let s2 := s1.pastAtomics (fun w => decide (w < a.addr + n) && decide (a.addr < w + 8))
      .next (s2.send 52 [a.addr, if s1.poisonedIn a.addr n then 2 else 1] (s1.readBytes .host a.addr n))

/-! ## TDISP (R410, R416) -/

/-- A TDISP answer: function, request, whether it succeeded, and what it returns (log entry 19). -/
def State.tdisp (s : State) (fn req : Nat) (ok : Bool) (xs : List Nat) : State :=
  s.send 60 ([fn, req, if ok then 1 else 0] ++ xs)

/-- Whether a number is a virtual function's. -/
def isVf (fn : Nat) : Bool := decide (1 ≤ fn) && decide (fn ≤ 31)

/-- LOCK_INTERFACE (R416): from CONFIG_UNLOCKED. -/
def execLockInterface (fn nonce : Nat) (s : State) : Out :=
  if isVf fn && (s.fn fn).tdi == 0 then
    .next ((s.modFn fn (fun f => { f with tdi := 1, everLocked := true, nonce := nonce })).tdisp fn 1 true [nonce])
  else .next (s.tdisp fn 1 false [])

/-- START_INTERFACE (R416): from CONFIG_LOCKED, with the nonce of the lock (log entry 49). -/
def execStartInterface (fn nonce : Nat) (s : State) : Out :=
  if isVf fn && (s.fn fn).tdi == 1 && (s.fn fn).nonce == nonce then
    .next ((s.modFn fn (fun f => { f with tdi := 2, nonce := 0 })).tdisp fn 2 true [])
  else .next (s.tdisp fn 2 false [])

/-- STOP_INTERFACE (R416): to CONFIG_UNLOCKED (log entry 49). -/
def execStopInterface (fn : Nat) (s : State) : Out :=
  if isVf fn then .next ((s.modFn fn (fun f => { f with tdi := 0, nonce := 0 })).tdisp fn 3 true [])
  else .next (s.tdisp fn 3 false [])

/-- GET_VERSION (R410): TDISP 1.0. -/
def execGetVersion (fn : Nat) (s : State) : Out := .next (s.tdisp fn 4 (isVf fn) [0x10])

/-- GET_CAPABILITIES (R410): the messages supported. -/
def execGetCapabilities (fn : Nat) (s : State) : Out := .next (s.tdisp fn 5 (isVf fn) [0x7F])

/-- Measurement block 6 (R418): one hash per partition, in partition order. -/
def State.block6 (s : State) : List Byte :=
  s.partsInOrder.flatMap (fun (p : Nat × Part) => toBytes 1 p.1 ++ toBytes 32 (if p.2.hasHandler then p.2.handlerHash else 0))

/-- GET_DEVICE_INTERFACE_REPORT (R416): the BAR 0 range, partition, cluster count, key-slot mask and hash of measurement 6.
Where the host has put BAR 0 is a free value (log entry 20). -/
def execGetDeviceInterfaceReport (fn : Nat) (s : State) : Out :=
  match (s.fn fn).part with
  | none => .next (s.tdisp fn 6 false [])
  | some p =>
    if !s.locked fn then .next (s.tdisp fn 6 false [])
    else
      let keys := ((s.part? p).map (·.keys)).getD 0
      .next ({ s with fresh := s.fresh + 1 }.tdisp fn 6 true
        [Config.freeBits s.fresh % 2 ^ 48 * 0x10000, 0x10000, p, s.nclus p, keys, (Config.sha256 s.block6).toNat])

/-- GET_DEVICE_INTERFACE_STATE (R410). -/
def execGetDeviceInterfaceState (fn : Nat) (s : State) : Out := .next (s.tdisp fn 7 (isVf fn) [(s.fn fn).tdi])

/-! ## SPDM and keys (R418, R419) -/

/-- A measurement block of an identity (R418): 0 to 3 the dies, 4 the management processor. -/
def State.block (s : State) (id b : Nat) : Nat :=
  match b with
  | 3 => if id == 4 then Config.measured 4 3
    else (Config.sha256 (toBytes 32 (Config.measured id 3) ++ toBytes 1 (if s.mp.spareUsed.contains id then 1 else 0)
      ++ toBytes 2 (maskOf 16 (fun c => s.mp.dead.contains (16 * id + c))))).toNat
  | 4 => (Config.sha256 (s.partsInOrder.flatMap (fun (p : Nat × Part) => (p.2.layout p.1).bytes))).toNat
  | 5 => s.devfeat + s.drvfeat * 2 ^ 64
  | 6 => (Config.sha256 s.block6).toNat
  | _ => Config.measured id b

/-- Whether an identity answers: attestation requests wait while the management processor is down (R437), and a die that does
not work has no answer (R450). -/
def State.answers (s : State) (id : Nat) : Bool :=
  s.mp.up && (id == 4 || (decide (id < s.ndie) && !s.mp.deadDies.contains id && decide (2 ≤ s.mp.startStep)))

/-- An answer of an identity, signed under its key pair (R418). It reaches the requester through the identity's DOE mailbox on
the physical function, numbered as the identity is, or over MCTP (log entry 106). -/
def State.attest (s : State) (kind id : Nat) (fields : List Nat) (more : List Byte) : State :=
  s.send kind fields (more ++ Config.signature id fields)

/-- MEASUREMENTS (R418): the management processor answers for the package. -/
def execMeasurements (id nonce : Nat) (s : State) : Out :=
  if !s.answers id then .next s
  else
    let dies := (List.range 4).flatMap (fun d => if s.answers d then [1, 2, 3].map (fun b => s.block d b) else [0, 0, 0])
    .next (s.attest 61 id ([id, nonce] ++ (if id == 4 then (List.range 6).map (fun b => s.block 4 (b + 1)) ++ dies
      else [1, 2, 3].map (fun b => s.block id b))) [])

/-- KEY_EXCHANGE (R418): opens a secure session with an identity, which shows its certificates and signs. -/
def execKeyExchange (id : Nat) (s : State) : Out :=
  if !s.answers id then .next s
  else
    let n := s.mp.nextSession
    .next ({ s with mp := { s.mp with
      nextSession := n + 1
      sessions := (8 * n + id) :: s.mp.sessions } }.attest 62 id [id, 8 * n + id] (Config.certificates id))

/-- Answers a key write. -/
def State.keyAnswer (s : State) (w : KeyWrite) (ok : Bool) : State := s.send 63 [w.session, if ok then 1 else 0]

/-- Writes an encryption key slot (R419): one that an established lease uses is refused. -/
def State.writeKeySlot (s : State) (w : KeyWrite) (v : Part) : State :=
  let leased := s.kernels.any (fun (k : Nat × Kernel) => (k.2.phase == 1 || k.2.phase == 3) && k.2.pages.any (fun g =>
    g.key == w.index && !k.2.revoked.contains g.range))
  if decide (64 ≤ w.index) || !bitOf v.keys w.index || leased then s.keyAnswer w false
  else ({ s with mp := { s.mp with keySlots := mset s.mp.keySlots w.index (w.fn, w.key) } }).keyAnswer w true

/-- Writes an entry of a port's key table (R419, R422): the TDIs that are locked and whose partition it names, or named,
move to ERROR (R416). -/
def State.writePortKey (s : State) (w : KeyWrite) (p : Nat) : State :=
  let old := mget (s.port w.port).keys w.index 0
  let named := old % 65536 != 0
  if decide (24 ≤ w.port) || decide (16 ≤ w.index) || decide (65536 ≤ w.pkey) || (named && old / 65536 != p) then
    s.keyAnswer w false
  else
    let s1 := s.modPort w.port (fun x => { x with
      keys := mset x.keys w.index (w.pkey + 65536 * p)
      gcm := mset x.gcm w.index w.key })
    (((s1.fnsOf p).filter s1.locked).foldl (fun s fn => s.tdiError fn) s1).keyAnswer w true

/-- Establishes the IDE stream of a function (R417; log entry 100). -/
def State.writeStreamKey (s : State) (w : KeyWrite) : State :=
  if decide (31 < w.fn) then s.keyAnswer w false
  else (s.modFn w.fn (fun f => { f with ide := some w.key })).keyAnswer w true

/-- KEY_WRITE (R419): inside a session with the management processor, for the partition of the TDI that it names. -/
def execKeyWrite (w : KeyWrite) (s : State) : Out :=
  if !s.mp.up then .next s
  else if !s.mp.sessions.contains w.session || w.session % 8 != 4 then .next (s.keyAnswer w false)
  else if w.ide then .next (s.writeStreamKey w)
  else match (s.fn w.fn).part with
    | none => .next (s.keyAnswer w false)
    | some p => match s.part? p with
      | none => .next (s.keyAnswer w false)
      | some v => .next (if w.nagil then s.writePortKey w p else s.writeKeySlot w v)

/-! ## Power (R451) -/

/-- Whether no condition lowers the clock. -/
def State.calm (s : State) : Bool :=
  decide (s.power.average ≤ mget s.regs 0x1710 0) && decide (s.power.junction < 95) && !s.power.pwrbrk

/-- Notes since when no condition holds. -/
def State.noteCalm (s : State) : State :=
  { s with power := { s.power with clearSince := if s.calm then some (s.power.clearSince.getD s.now) else none } }

/-- A lower clock: by one or more steps of 100 MHz, how many is a free value (log entry 20). -/
def lowered (clock n : Nat) : Nat := max 1200 (clock - 100 * (1 + n % 9))

/-- The clock is lowered where the power's average exceeds PWRCAP (R451). -/
def State.heldToCap (s : State) : State :=
  let over_ := decide (mget s.regs 0x1710 0 < s.power.average)
  { s with
    fresh := s.fresh + 1
    power := { s.power with
      clock := if over_ then lowered s.power.clock (Config.freeBits s.fresh) else s.power.clock
      byCap := s.power.byCap || over_ } }.noteCalm

/-! ## Registers (R8) -/

/-- ERRBASE_WRITE (R424): HEAD counts from 0 again. -/
def execErrbaseWrite (fn v : Nat) (s : State) : Out :=
  if 32 ≤ fn then .next s
  else
    let s1 := (s.setReg fn 0x1180 (field v 6 55 * 64)).setReg fn 0x1188 0
    .next (s1.modFn fn (fun f => { f with logged := [] }))

/-- DRVFEAT_WRITE (R447): of the physical function; one in the very cycle that locks it takes effect. -/
def execDrvfeatWrite (fn v : Nat) (s : State) : Out :=
  let old := s.reg 0 0x1708
  if fn != 0 then .next s
  else
    let kept := if bitOf v 3 then setField old 3 1 0 else old
    if bitOf old 2 && s.mp.lockedAt != some s.now then .next (s.setReg 0 0x1708 (setField old 3 1 1))
    else .next (s.setReg 0 0x1708 (setField kept 0 2 (v &&& s.devfeat)))

/-- A write of CTXCMD (R388): one that meets a command in progress is ignored, but for a KILL of a context that is being
pre-empted or resumed (R409). -/
def writeCtxCmd (fn v : Nat) (s : State) : Out :=
  let op := v % 16
  let c := v / 16 % 8
  let cur := s.reg fn 0x1100
  let ends := op == 2 && (cur % 16 == 3 || cur % 16 == 4) && cur / 16 % 8 == c
  if bitOf (s.reg fn 0x1118) 0 && !ends then .next (s.overrun fn)
  else match op with
    | 1 => execCreate fn c s
    | 2 => execKill fn c s
    | 3 => execPreempt fn c s
    | 4 => hostResume fn c s
    | 5 => execRevoke fn c s
    | 6 => execRelease fn c s
    | 7 => execCurnew fn c s
    | 8 => execCurfund fn c s
    | 9 => execCurdel fn c s
    | _ => plainCommand fn op s (fun s => s.endCommand fn 1 0)

/-- A write of PMCMD (R392). -/
def writePmCmd (v : Nat) (s : State) : Out :=
  let p := v / 16 % 16
  if bitOf (s.reg 0 0x1818) 0 then .next (s.setReg 0 0x1818 (setField (s.reg 0 0x1818) 1 1 1))
  else match v % 16 with
    | 1 => execPcreate p s
    | 2 => execPdelete p s
    | 3 => execPbind p s
    | 4 => execPunbind p s
    | 5 => execPkeys p s
    | 6 => execPmove p s
    | 7 => execPseed p s
    | 8 => execPhandler p s
    | 9 => execReclass p s
    | 10 => execPhclear p s
    | _ => .next (((s.setReg 0 0x1800 (v % 256)).setReg 0 0x1818 (setField (s.reg 0 0x1818) 0 1 1)).endPm 1 0)

/-- A write of BIASCMD (R414). -/
def writeBiasCmd (fn v : Nat) (s : State) : Out :=
  if bitOf (s.reg fn 0x1158) 0 then .next (s.setReg fn 0x1158 (setField (s.reg fn 0x1158) 1 1 1))
  else
    let s1 := s.setReg fn 0x1140 (v % 32)
    match v % 4 with
    | 1 => execHostBiasFlip fn s1
    | 2 => execDeviceBiasFlip fn s1
    | _ => .next (s1.endFlip fn 1 0)

/-- A write of MIGCTL (R438). -/
def writeMigCtl (fn v : Nat) (s : State) : Out :=
  match v % 8 with
  | 0 => execMigrationRunning fn s
  | 1 => execMigrationPreCopy fn s
  | 2 => execMigrationStopping fn s
  | 4 => execMigrationResuming fn s
  | _ => .next (s.migErr fn)

/-- A write of a register of the physical function alone. -/
def writePfReg (off v : Nat) (s : State) : Out :=
  if 0x1500 ≤ off ∧ off < 0x1580 then
    let old := s.watchdog ((off - 0x1500) / 8)
    let limit := if 24 ≤ v % 64 ∧ v % 64 ≤ 40 then v % 64 else old % 64
    .next (s.setReg 0 off (limit + 64 * (v / 64 % 2)))
  else if 0x1900 ≤ off ∧ off < 0x1A00 then .next (s.setReg 0 off v)
  else match off with
    | 0x1610 => .next (s.setReg 0 off (field v 3 25 * 8))
    | 0x1708 => execDrvfeatWrite 0 v s
    | 0x1710 =>
      let c := v % 4096
      let lo := if s.variant == 0 then 1200 else 700
      let hi := if s.variant == 0 then 2600 else 1400
      .next (if lo ≤ c ∧ c ≤ hi then (s.setReg 0 off c).heldToCap else s)
    | 0x1800 => writePmCmd v s
    | 0x1808 => .next (s.setReg 0 off v)
    | 0x1810 => .next (s.setReg 0 off v)
    | 0x1818 => .next (if bitOf v 1 then s.setReg 0 off (setField (s.reg 0 off) 1 1 0) else s)
    | _ => .next s

/-- A write of a register of a virtual function alone. -/
def writeVfReg (fn off v : Nat) (s : State) : Out :=
  if 0x2000 ≤ off ∧ off < 0x2200 then execLaunchDoorbell fn ((off - 0x2000) / 0x40) ((off - 0x2000) % 0x40 / 8) v s
  else if 0x8000 ≤ off ∧ off < 0x10000 then execMigrationStreamWrite fn v s
  else match off with
    | 0x1040 => .next (s.setReg fn off (v % 2 ^ 48))
    | 0x1140 => writeBiasCmd fn v s
    | 0x1148 => .next (s.setReg fn off v)
    | 0x1150 => .next (s.setReg fn off v)
    | 0x1158 => .next (if bitOf v 1 then s.setReg fn off (setField (s.reg fn off) 1 1 0) else s)
    | 0x1400 => writeMigCtl fn v s
    | 0x1408 => .next (if bitOf v 3 then s.setReg fn off 0 else s)
    | _ => .next s

/-- REGISTER_WRITE (R8): an aligned 8-byte write of BAR 0 once the host link is up (R450); read-only registers and offsets
with no register ignore it. -/
def execRegisterWrite (fn off val : Nat) (s : State) : Out :=
  let v := val % 2 ^ 64
  if s.mp.startStep != 6 || off % 8 != 0 || decide (31 < fn) then .next s
  else if 0x1200 ≤ off ∧ off < 0x1280 then .next (s.setReg fn off v)
  else match off with
    | 0x1100 => writeCtxCmd fn v s
    | 0x1108 => .next (s.setReg fn off v)
    | 0x1110 => .next (s.setReg fn off v)
    | 0x1118 => .next (if bitOf v 1 then s.setReg fn off (setField (s.reg fn off) 1 1 0) else s)
    | 0x1180 => execErrbaseWrite fn v s
    | 0x1190 => .next (s.setReg fn off v)
    | 0x1198 => .next (s.setReg fn off (s.reg fn off &&& (2 ^ 32 - 1 - v % 2 ^ 32)))
    | _ => if fn = 0 then writePfReg off v s else writeVfReg fn off v s

/-- What the host reads of a register of BAR 0 (R8): the values that the device derives, or the register. -/
def State.hostRead (s : State) (fn off : Nat) : Nat :=
  if fn = 0 ∧ 0x1500 ≤ off ∧ off < 0x1580 then
    let p := (off - 0x1500) / 8
    s.watchdog p + ((s.part? p).map (·.wdResets)).getD 0 * 2 ^ 16
  else match off with
    | 0x1100 => 0
    | 0x1140 => 0
    | 0x1400 => 0
    | 0x1800 => 0
    | 0x1120 => sumOf ((List.range 8).map (fun c => (s.ctx fn c).state * 16 ^ c))
    | 0x1408 => if fn = 0 then 0
      else (s.fn fn).mig + s.reg fn off + min (s.migLeft fn) (2 ^ 28 - 1) * 16
        + min (s.migAvail fn) (2 ^ 32 - 1) * 2 ^ 32
    | 0x1700 => if fn = 0 then s.devfeat else 0
    | 0x1718 => if fn = 0 then
        let w := s.power
        w.clock + (if w.byCap then 2 ^ 12 else 0) + (if w.byHeat then 2 ^ 13 else 0) + (if w.byBrk then 2 ^ 14 else 0)
          + w.average % 4096 * 2 ^ 16 + w.junction % 256 * 2 ^ 28 else 0
    | _ => s.reg fn off

/-! ## Function-level reset (R408, R409, R432) -/

/-- FUNCTION_LEVEL_RESET (R408): every context of the function is killed, after a partition reset that runs (R432); a stream
is abandoned, and the physical function told (R440); a locked TDI moves to ERROR (R416). -/
def execFunctionLevelReset (fn : Nat) (s : State) : Out :=
  if !isVf fn then .next s
  else
    let s1 := s.deviceEvent
      { src := 9
        kind := 5
        inst := fn
        pmap := 0 } []
    let s2 := ((s1.migClear fn).setMig fn 0).modFn fn (fun f => { f with flr := true, flip := none })
    if s2.fnResetting fn then .next s2
    else
      let s3 := if s2.locked fn then s2.tdiError fn else s2
      .next ((((List.range 8).foldl (fun s c =>
        if (s.ctx fn c).state == 0 || (s.ctx fn c).state == 5 then s else s.startKill fn c) s3)).settleReset fn)

/-! ## Selective IDE streams (R417) -/

/-- The function of the TLP that brings an event to the host port: of a register of its BAR 0 (R8), a page request response
(R378), or its reset (R408). -/
def tlpFn (i : Instr) : Option Nat :=
  match i with
  | .launchDoorbell fn _ _ _ => some fn
  | .pageRequestResponse fn _ _ => some fn
  | .create fn _ => some fn
  | .kill fn _ => some fn
  | .preempt fn _ => some fn
  | .resume fn _ => some fn
  | .revoke fn _ => some fn
  | .release fn _ => some fn
  | .curnew fn _ => some fn
  | .curfund fn _ => some fn
  | .curdel fn _ => some fn
  | .pcreate _ => some 0
  | .pdelete _ => some 0
  | .pbind _ => some 0
  | .punbind _ => some 0
  | .pkeys _ => some 0
  | .pmove _ => some 0
  | .pseed _ => some 0
  | .phandler _ => some 0
  | .reclass _ => some 0
  | .phclear _ => some 0
  | .hostBiasFlip fn => some fn
  | .deviceBiasFlip fn => some fn
  | .dumpWindowRead => some 0
  | .migrationPreCopy fn => some fn
  | .migrationStopping fn => some fn
  | .migrationResuming fn => some fn
  | .migrationRunning fn => some fn
  | .migrationStreamRead fn => some fn
  | .migrationStreamWrite fn _ => some fn
  | .errbaseWrite fn _ => some fn
  | .drvfeatWrite fn _ => some fn
  | .registerWrite fn _ _ => some fn
  | .functionLevelReset fn => some fn
  | _ => none

/-- Whether an event needs the host link, where it brings it as no TLP of a function (R450): the messages of TDISP, those to a
die's identity, and accesses through CXL.mem. -/
def needsLink (i : Instr) : Bool :=
  match i with
  | .lockInterface _ _ => true
  | .startInterface _ _ => true
  | .stopInterface _ => true
  | .getVersion _ => true
  | .getCapabilities _ => true
  | .getDeviceInterfaceReport _ => true
  | .getDeviceInterfaceState _ => true
  | .measurements id _ => decide (id < 4)
  | .keyExchange id => decide (id < 4)
  | .cxlMemAccess _ => true
  | _ => false

/-- A configuration request (R450): before the host link is trained the answer is Configuration Request Retry Status. What a
register of configuration space holds is as the published standards give it, to the model a free value (log entry 106). -/
def State.configRequest (s : State) (fn off : Nat) : State :=
  if s.mp.startStep != 6 then s.send 4 [fn, off, 2]
  else { s with fresh := s.fresh + 1 }.send 4 [fn, off, 0, Config.freeBits s.fresh % 2 ^ 32]

/-- Whether a TLP arrives as the stream of its function has it: under that stream once it is established, under none
before. -/
def State.inStream (s : State) (fn : Nat) (stream : Option Nat) : Bool :=
  match (s.fn fn).ide with
  | some _ => stream == some fn
  | none => stream.isNone

/-- A TLP of a function, under an IDE stream or none: before the host link is trained there is none (R450), and outside the
function's stream it is dropped and logged by AER. -/
def State.viaTlp (s : State) (fn : Nat) (stream : Option Nat) (f : State → Out) : Out :=
  if s.mp.startStep != 6 then .next s
  else if s.inStream fn stream then f s else .next (s.send 3 [3, fn])

end Sys2Proof.Machine
end

