-- ==== Sys2Proof/Machine/Startup.lean ====
section
/-!
DEFINITION. Module reset, start-up, clock, power and thermal signals (spec/24, R446 to R454).
-/

namespace Sys2Proof.Machine

/-! ## Reset and start-up (R449, R450) -/

/-- The device as a module reset leaves it: everything cleared, but for what is no state of it (the host's memory, time, the
model's own counters, the variant, what it has sent) (log entry 20). -/
def State.afterReset (s : State) : State :=
  { State.reset with
    variant := s.variant
    mem := s.mem.filter (fun c => isHostAperture c.1)
    regs := [(0x1710, if s.variant == 0 then 2600 else 1400)]
    now := s.now
    stepNo := s.stepNo
    fresh := s.fresh
    turn := s.turn
    out := s.out }

/-- MODULE_RESET (R449). -/
def execModuleReset (s : State) : Out := .next s.afterReset

/-- A step of start-up (R450): it begins when the one before it has completed. -/
def startStep (n : Nat) (s : State) (run : State → State) : Out :=
  if s.mp.startStep + 1 != n || s.fatal.isSome || !s.power.powered then .next s
  else
    let s1 := run s
    .next { s1 with mp := { s1.mp with startStep := n } }

/-- MANAGEMENT_PROCESSOR_BOOT, step 1 (R450). -/
def execManagementProcessorBoot (s : State) : Out :=
  startStep 1 s (fun s => { s with mp := { s.mp with
    up := true
    beat := s.now } })

/-- DIE_BOOT, step 2 (R450): which dies fail is a free value (log entry 20); with none left, fatal cause 6. -/
def execDieBoot (s : State) : Out :=
  startStep 2 s (fun s =>
    let bad := (List.range s.ndie).filter (bitOf (Config.freeBits s.fresh))
    let s1 := { s with
      fresh := s.fresh + 1
      mp := { s.mp with deadDies := bad } }
    if bad.length == s.ndie then s1.fatalStop 6 0xFF else s1)

/-- HBM_TRAINING, step 3 (R450): every class group is of class P, every frame reads zero. -/
def execHbmTraining (s : State) : Out :=
  startStep 3 s (fun s => { s.zero 0 0x8000000000 with
    classes := []
    classLocks := []
    frames := [] })

/-- CLUSTER_BUILT_IN_TEST, step 4 (R450): of the clusters that fail, one per die is replaced by the spare. -/
def execClusterBuiltInTest (bad : List Nat) (s : State) : Out :=
  startStep 4 s (fun s =>
    let dead := (List.range (16 * s.ndie)).filter (fun c => bad.contains c)
    let used := (List.range s.ndie).filter (fun d =>
      let spare := d * 16 + Config.spareCluster d % 16
      dead.any (fun c => c / 16 == d && c != spare) && !dead.contains spare)
    { s with mp := { s.mp with
      dead := dead
      spareUsed := used
      lastBist := s.now } })

/-- DUMP_AREA_RESERVATION, step 5 (R450, R442, R420): the dump area, the device's number and routes, and the ports. -/
def execDumpAreaReservation (s : State) : Out :=
  startStep 5 s (fun s => { s with
    regs := mset s.regs 0x1600 Config.dumpBase
    devNumber := Config.freeBits s.fresh % 4096
    fresh := s.fresh + 1
    routes := (List.range 4096).map (fun d => (d, Config.routeOf d))
    ports := (List.range 24).map (fun n => (n, { (default : Port) with up := true })) })

/-- HOST_LINK_TRAINING, step 6 (R450). -/
def execHostLinkTraining (s : State) : Out := startStep 6 s id

/-! ## Clock and power (R451, R452) -/

/-- PWRBRK (R451): the signal is asserted, which lowers the clock to 1.2 GHz, or released. -/
def execPwrbrk (asserted : Bool) (s : State) : Out :=
  .next { s with power := { s.power with
    pwrbrk := asserted
    clock := if asserted then 1200 else s.power.clock
    byBrk := s.power.byBrk || asserted } }.noteCalm

/-- POWER_AVERAGE (R451): the average over a millisecond. -/
def execPowerAverage (watts : Nat) (s : State) : Out :=
  .next { s with power := { s.power with average := watts } }.heldToCap

/-- The hottest junction (R451, R453, R454): from 95 °C on the clock is lowered; THERM_ALERT# is asserted from 105 °C until it
falls below 100 °C; 110 °C is fatal cause 5. -/
def State.atJunction (s : State) (temp : Nat) : State :=
  let hot := decide (95 ≤ temp)
  let s1 := { s with
    fresh := s.fresh + 1
    power := { s.power with
      junction := temp
      clock := if hot then lowered s.power.clock (Config.freeBits s.fresh) else s.power.clock
      byHeat := s.power.byHeat || hot
      thermAlert := decide (105 ≤ temp) || (s.power.thermAlert && decide (100 ≤ temp)) } }.noteCalm
  if 110 ≤ temp then s1.fatalStop 5 0xFF else s1

/-- JUNCTION_THROTTLE (R451). -/
def execJunctionThrottle (temp : Nat) (s : State) : Out := .next (s.atJunction temp)

/-- CLOCK_RAISE (R451): after 10 ms with no condition the clock goes up again, by steps of which the number is a free value
(log entry 20). -/
def execClockRaise (s : State) : Out :=
  match s.power.clearSince with
  | none => .next s
  | some t =>
    if s.now < t + 21000000 || !s.calm then .next s
    else
      let c := min 2100 (s.power.clock + 100 * (1 + Config.freeBits s.fresh % 9))
      .next { s with
        fresh := s.fresh + 1
        power := { s.power with
          clock := c
          byCap := s.power.byCap && c != 2100
          byHeat := s.power.byHeat && c != 2100
          byBrk := s.power.byBrk && c != 2100 } }

/-- THERM_ALERT (R454). -/
def execThermAlert (temp : Nat) (s : State) : Out := .next (s.atJunction temp)

/-- THERMAL_TRIP (R453): a junction at 110 °C. -/
def execThermalTrip (temp : Nat) (s : State) : Out := .next (if temp < 110 then s else s.atJunction temp)

end Sys2Proof.Machine
end

