-- ==== Sys2Proof/Machine/Dispatch.lean ====
section
/-!
DEFINITION. One arm per constructor of Instr: which meaning it has.
-/

namespace Sys2Proof.Machine

open Host in /-- The meaning of an instruction, operation or event of the table. -/ noncomputable
def exec (i : Instr) (s : State) : Host.Outcome State Fault Refusal :=
  match i with
  | .add d a b => Sys2Proof.Machine.execAdd d a b s
  | .sub d a b => Sys2Proof.Machine.execSub d a b s
  | .and d a b => Sys2Proof.Machine.execAnd d a b s
  | .or d a b => Sys2Proof.Machine.execOr d a b s
  | .xor d a b => Sys2Proof.Machine.execXor d a b s
  | .sll d a b => Sys2Proof.Machine.execSll d a b s
  | .srl d a b => Sys2Proof.Machine.execSrl d a b s
  | .sra d a b => Sys2Proof.Machine.execSra d a b s
  | .slt d a b => Sys2Proof.Machine.execSlt d a b s
  | .sltu d a b => Sys2Proof.Machine.execSltu d a b s
  | .min d a b => Sys2Proof.Machine.execMin d a b s
  | .max d a b => Sys2Proof.Machine.execMax d a b s
  | .minu d a b => Sys2Proof.Machine.execMinu d a b s
  | .maxu d a b => Sys2Proof.Machine.execMaxu d a b s
  | .sel d a b => Sys2Proof.Machine.execSel d a b s
  | .mul d a b => Sys2Proof.Machine.execMul d a b s
  | .mulh d a b => Sys2Proof.Machine.execMulh d a b s
  | .mulhu d a b => Sys2Proof.Machine.execMulhu d a b s
  | .div d a b => Sys2Proof.Machine.execDiv d a b s
  | .divu d a b => Sys2Proof.Machine.execDivu d a b s
  | .rem d a b => Sys2Proof.Machine.execRem d a b s
  | .remu d a b => Sys2Proof.Machine.execRemu d a b s
  | .clz d a => Sys2Proof.Machine.execClz d a s
  | .ctz d a => Sys2Proof.Machine.execCtz d a s
  | .popc d a => Sys2Proof.Machine.execPopc d a s
  | .sext d a w => Sys2Proof.Machine.execSext d a w s
  | .zext d a w => Sys2Proof.Machine.execZext d a w s
  | .addi d a xi pre => Sys2Proof.Machine.execAddi d a xi pre s
  | .andi d a xi pre => Sys2Proof.Machine.execAndi d a xi pre s
  | .ori d a xi pre => Sys2Proof.Machine.execOri d a xi pre s
  | .xori d a xi pre => Sys2Proof.Machine.execXori d a xi pre s
  | .slli d a xi pre => Sys2Proof.Machine.execSlli d a xi pre s
  | .srli d a xi pre => Sys2Proof.Machine.execSrli d a xi pre s
  | .srai d a xi pre => Sys2Proof.Machine.execSrai d a xi pre s
  | .slti d a xi pre => Sys2Proof.Machine.execSlti d a xi pre s
  | .sltiu d a xi pre => Sys2Proof.Machine.execSltiu d a xi pre s
  | .movi d xi pre => Sys2Proof.Machine.execMovi d xi pre s
  | .movs d xi => Sys2Proof.Machine.execMovs d xi s
  | .fadd d a b m => Sys2Proof.Machine.execFadd d a b m s
  | .fsub d a b m => Sys2Proof.Machine.execFsub d a b m s
  | .fmul d a b m => Sys2Proof.Machine.execFmul d a b m s
  | .fdiv d a b m => Sys2Proof.Machine.execFdiv d a b m s
  | .fsqrt d a m => Sys2Proof.Machine.execFsqrt d a m s
  | .fmin d a b => Sys2Proof.Machine.execFmin d a b s
  | .fmax d a b => Sys2Proof.Machine.execFmax d a b s
  | .fma d a b m => Sys2Proof.Machine.execFma d a b m s
  | .fcmp d a b c => Sys2Proof.Machine.execFcmp d a b c s
  | .fcvt d a k e m => Sys2Proof.Machine.execFcvt d a k e m s
  | .fclass d a => Sys2Proof.Machine.execFclass d a s
  | .beq a b o pre => Sys2Proof.Machine.execBeq a b o pre s
  | .bne a b o pre => Sys2Proof.Machine.execBne a b o pre s
  | .blt a b o pre => Sys2Proof.Machine.execBlt a b o pre s
  | .bge a b o pre => Sys2Proof.Machine.execBge a b o pre s
  | .bltu a b o pre => Sys2Proof.Machine.execBltu a b o pre s
  | .bgeu a b o pre => Sys2Proof.Machine.execBgeu a b o pre s
  | .j o pre => Sys2Proof.Machine.execJ o pre s
  | .jal o pre => Sys2Proof.Machine.execJal o pre s
  | .jalr d a xi pre => Sys2Proof.Machine.execJalr d a xi pre s
  | .ld d h b t => Sys2Proof.Machine.execLd d h b t s
  | .st d h b t => Sys2Proof.Machine.execSt d h b t s
  | .ldl d a t xi pre => Sys2Proof.Machine.execLdl d a t xi pre s
  | .stl d a t xi pre => Sys2Proof.Machine.execStl d a t xi pre s
  | .ldf d h b => Sys2Proof.Machine.execLdf d h b s
  | .stf d h b => Sys2Proof.Machine.execStf d h b s
  | .aadd d h b xs => Sys2Proof.Machine.execAadd d h b xs s
  | .aand d h b xs => Sys2Proof.Machine.execAand d h b xs s
  | .aor d h b xs => Sys2Proof.Machine.execAor d h b xs s
  | .axor d h b xs => Sys2Proof.Machine.execAxor d h b xs s
  | .amin d h b xs => Sys2Proof.Machine.execAmin d h b xs s
  | .amax d h b xs => Sys2Proof.Machine.execAmax d h b xs s
  | .aswp d h b xs => Sys2Proof.Machine.execAswp d h b xs s
  | .acas d h b xs => Sys2Proof.Machine.execAcas d h b xs s
  | .csrr d c pre => Sys2Proof.Machine.execCsrr d c pre s
  | .csrw a c pre => Sys2Proof.Machine.execCsrw a c pre s
  | .csrx d a c pre => Sys2Proof.Machine.execCsrx d a c pre s
  | .prd d p pre => Sys2Proof.Machine.execPrd d p pre s
  | .vread d m b e => Sys2Proof.Machine.execVread d m b e s
  | .sev g => Sys2Proof.Machine.execSev g s
  | .trap xi pre => Sys2Proof.Machine.execTrap xi pre s
  | .sysc xi pre => Sys2Proof.Machine.execSysc xi pre s
  | .uien e pre => Sys2Proof.Machine.execUien e pre s
  | .waitc d xs c t pre => Sys2Proof.Machine.execWaitc d xs c t pre s
  | .waitf d c f t pre => Sys2Proof.Machine.execWaitf d c f t pre s
  | .waitb d xs c p t pre => Sys2Proof.Machine.execWaitb d xs c p t pre s
  | .bara d n => Sys2Proof.Machine.execBara d n s
  | .barw d xs n t pre => Sys2Proof.Machine.execBarw d xs n t pre s
  | .fence k xs pre => Sys2Proof.Machine.execFence k xs pre s
  | .bfenceHandle h => Sys2Proof.Machine.execBfenceHandle h s
  | .trsync a pre => Sys2Proof.Machine.execTrsync a pre s
  | .trsyncAll pre => Sys2Proof.Machine.execTrsyncAll pre s
  | .pub d a xs => Sys2Proof.Machine.execPub d a xs s
  | .xlate h a b => Sys2Proof.Machine.execXlate h a b s
  | .hinv h => Sys2Proof.Machine.execHinv h s
  | .kset e n a xi pre => Sys2Proof.Machine.execKset e n a xi pre s
  | .xset e n a b g l => Sys2Proof.Machine.execXset e n a b g l s
  | .loopb e k f g h xi j l pre => Sys2Proof.Machine.execLoopb e k f g h xi j l pre s
  | .tspawn d h b => Sys2Proof.Machine.execTspawn d h b s
  | .klaunch d h b q => Sys2Proof.Machine.execKlaunch d h b q s
  | .renq d a b e => Sys2Proof.Machine.execRenq d a b e s
  | .qinit h b c => Sys2Proof.Machine.execQinit h b c s
  | .qpush d h b => Sys2Proof.Machine.execQpush d h b s
  | .qpop d h b => Sys2Proof.Machine.execQpop d h b s
  | .qtryPop d h b => Sys2Proof.Machine.execQtryPop d h b s
  | .qtryPush d h b => Sys2Proof.Machine.execQtryPush d h b s
  | .semw d xs h t pre => Sys2Proof.Machine.execSemw d xs h t pre s
  | .semp h b => Sys2Proof.Machine.execSemp h b s
  | .ffill h b => Sys2Proof.Machine.execFfill h b s
  | .fclr d h b => Sys2Proof.Machine.execFclr d h b s
  | .tkset d a => Sys2Proof.Machine.execTkset d a s
  | .tkget d e k => Sys2Proof.Machine.execTkget d e k s
  | .ralloc d c pre => Sys2Proof.Machine.execRalloc d c pre s
  | .rfree k pre => Sys2Proof.Machine.execRfree k pre s
  | .rpin d k pre => Sys2Proof.Machine.execRpin d k pre s
  | .runpin d k pre => Sys2Proof.Machine.execRunpin d k pre s
  | .segb xi pre => Sys2Proof.Machine.execSegb xi pre s
  | .sege xi pre => Sys2Proof.Machine.execSege xi pre s
  | .vadd d a b x l => Sys2Proof.Machine.execVadd d a b x l s
  | .vsub d a b x l => Sys2Proof.Machine.execVsub d a b x l s
  | .vmul d a b x l => Sys2Proof.Machine.execVmul d a b x l s
  | .vdiv d a b x l => Sys2Proof.Machine.execVdiv d a b x l s
  | .vmin d a b x l => Sys2Proof.Machine.execVmin d a b x l s
  | .vmax d a b x l => Sys2Proof.Machine.execVmax d a b x l s
  | .vabs d a x l => Sys2Proof.Machine.execVabs d a x l s
  | .vneg d a x l => Sys2Proof.Machine.execVneg d a x l s
  | .vfma d a b x l => Sys2Proof.Machine.execVfma d a b x l s
  | .vfms d a b x l => Sys2Proof.Machine.execVfms d a b x l s
  | .vrcpa d a x l => Sys2Proof.Machine.execVrcpa d a x l s
  | .vrsqa d a x l => Sys2Proof.Machine.execVrsqa d a x l s
  | .vexp2a d a x l => Sys2Proof.Machine.execVexp2a d a x l s
  | .vlog2a d a x l => Sys2Proof.Machine.execVlog2a d a x l s
  | .viadd d a b x l => Sys2Proof.Machine.execViadd d a b x l s
  | .visub d a b x l => Sys2Proof.Machine.execVisub d a b x l s
  | .vimul d a b x l => Sys2Proof.Machine.execVimul d a b x l s
  | .vimin d a b x l => Sys2Proof.Machine.execVimin d a b x l s
  | .vimax d a b x l => Sys2Proof.Machine.execVimax d a b x l s
  | .vnmin d a b x l => Sys2Proof.Machine.execVnmin d a b x l s
  | .vnmax d a b x l => Sys2Proof.Machine.execVnmax d a b x l s
  | .viadds d a b x l => Sys2Proof.Machine.execViadds d a b x l s
  | .vnadds d a b x l => Sys2Proof.Machine.execVnadds d a b x l s
  | .vand d a b x l => Sys2Proof.Machine.execVand d a b x l s
  | .vor d a b x l => Sys2Proof.Machine.execVor d a b x l s
  | .vxor d a b x l => Sys2Proof.Machine.execVxor d a b x l s
  | .vnot d a x l => Sys2Proof.Machine.execVnot d a x l s
  | .vsll d a b x l => Sys2Proof.Machine.execVsll d a b x l s
  | .vsrl d a b x l => Sys2Proof.Machine.execVsrl d a b x l s
  | .vsra d a b x l => Sys2Proof.Machine.execVsra d a b x l s
  | .vpack d a b x l => Sys2Proof.Machine.execVpack d a b x l s
  | .vunpk d a xs h x l => Sys2Proof.Machine.execVunpk d a xs h x l s
  | .vcvtF16F32 d a r xi x l => Sys2Proof.Machine.execVcvtF16F32 d a r xi x l s
  | .vcvtBf16F32 d a r xi x l => Sys2Proof.Machine.execVcvtBf16F32 d a r xi x l s
  | .vcvtE4m3F32 d a r xi x l => Sys2Proof.Machine.execVcvtE4m3F32 d a r xi x l s
  | .vcvtE5m2F32 d a r xi x l => Sys2Proof.Machine.execVcvtE5m2F32 d a r xi x l s
  | .vcvtF32F16 d a x l => Sys2Proof.Machine.execVcvtF32F16 d a x l s
  | .vcvtF32Bf16 d a x l => Sys2Proof.Machine.execVcvtF32Bf16 d a x l s
  | .vcvtF32E4m3 d a x l => Sys2Proof.Machine.execVcvtF32E4m3 d a x l s
  | .vcvtF32E5m2 d a x l => Sys2Proof.Machine.execVcvtF32E5m2 d a x l s
  | .vcvtI32F32 d a r x l => Sys2Proof.Machine.execVcvtI32F32 d a r x l s
  | .vcvtN32F32 d a r x l => Sys2Proof.Machine.execVcvtN32F32 d a r x l s
  | .vcvtF32I32 d a r x l => Sys2Proof.Machine.execVcvtF32I32 d a r x l s
  | .vcvtF32N32 d a r x l => Sys2Proof.Machine.execVcvtF32N32 d a r x l s
  | .vcmpEqF32 d a b x => Sys2Proof.Machine.execVcmpEqF32 d a b x s
  | .vcmpNeF32 d a b x => Sys2Proof.Machine.execVcmpNeF32 d a b x s
  | .vcmpLtF32 d a b x => Sys2Proof.Machine.execVcmpLtF32 d a b x s
  | .vcmpLeF32 d a b x => Sys2Proof.Machine.execVcmpLeF32 d a b x s
  | .vcmpEqI32 d a b x => Sys2Proof.Machine.execVcmpEqI32 d a b x s
  | .vcmpLtI32 d a b x => Sys2Proof.Machine.execVcmpLtI32 d a b x s
  | .vcmpLeI32 d a b x => Sys2Proof.Machine.execVcmpLeI32 d a b x s
  | .vcmpLtN32 d a b x => Sys2Proof.Machine.execVcmpLtN32 d a b x s
  | .vcmpLeN32 d a b x => Sys2Proof.Machine.execVcmpLeN32 d a b x s
  | .vpand d a b z => Sys2Proof.Machine.execVpand d a b z s
  | .vpor d a b z => Sys2Proof.Machine.execVpor d a b z s
  | .vpxor d a b z => Sys2Proof.Machine.execVpxor d a b z s
  | .vpandn d a b z => Sys2Proof.Machine.execVpandn d a b z s
  | .vpsel a => Sys2Proof.Machine.execVpsel a s
  | .vmpush a z => Sys2Proof.Machine.execVmpush a z s
  | .vskipz n pre => Sys2Proof.Machine.execVskipz n pre s
  | .vredAddF32 d a x l => Sys2Proof.Machine.execVredAddF32 d a x l s
  | .vredMaxF32 d a x l => Sys2Proof.Machine.execVredMaxF32 d a x l s
  | .vredMinF32 d a x l => Sys2Proof.Machine.execVredMinF32 d a x l s
  | .vredAddI32 d a x l => Sys2Proof.Machine.execVredAddI32 d a x l s
  | .vscanAddF32 d a x l => Sys2Proof.Machine.execVscanAddF32 d a x l s
  | .vscanAddI32 d a x l => Sys2Proof.Machine.execVscanAddI32 d a x l s
  | .vperm d a b x l => Sys2Proof.Machine.execVperm d a b x l s
  | .vbcst d a x => Sys2Proof.Machine.execVbcst d a x s
  | .vmov d a x l => Sys2Proof.Machine.execVmov d a x l s
  | .vtrn d a l => Sys2Proof.Machine.execVtrn d a l s
  | .vidx d x => Sys2Proof.Machine.execVidx d x s
  | .vfree d => Sys2Proof.Machine.execVfree d s
  | .vld d a o x => Sys2Proof.Machine.execVld d a o x s
  | .vst d a o x l => Sys2Proof.Machine.execVst d a o x l s
  | .vgth d a b x => Sys2Proof.Machine.execVgth d a b x s
  | .vsct d a b x l => Sys2Proof.Machine.execVsct d a b x l s
  | .vbrk a n pre => Sys2Proof.Machine.execVbrk a n pre s
  | .esetV f => Sys2Proof.Machine.execEsetV f s
  | .ewaitV f => Sys2Proof.Machine.execEwaitV f s
  | .mma c a b k z q t xs => Sys2Proof.Machine.execMma c a b k z q t xs s
  | .mmag c a b k z q t xs => Sys2Proof.Machine.execMmag c a b k z q t xs s
  | .mmac c a b k z t xs => Sys2Proof.Machine.execMmac c a b k z t xs s
  | .mzero c => Sys2Proof.Machine.execMzero c s
  | .mloada c a => Sys2Proof.Machine.execMloada c a s
  | .mdrain c a r v => Sys2Proof.Machine.execMdrain c a r v s
  | .mepi c a b r v => Sys2Proof.Machine.execMepi c a b r v s
  | .mchk c => Sys2Proof.Machine.execMchk c s
  | .mbar a => Sys2Proof.Machine.execMbar a s
  | .esetM f => Sys2Proof.Machine.execEsetM f s
  | .ewaitM f => Sys2Proof.Machine.execEwaitM f s
  | .xcpy d a b p u => Sys2Proof.Machine.execXcpy d a b p u s
  | .xcpyt d a b p u => Sys2Proof.Machine.execXcpyt d a b p u s
  | .xfill d a b p u => Sys2Proof.Machine.execXfill d a b p u s
  | .xgth d a b p u => Sys2Proof.Machine.execXgth d a b p u s
  | .xsct d a b p u => Sys2Proof.Machine.execXsct d a b p u s
  | .xbind d a b u => Sys2Proof.Machine.execXbind d a b u s
  | .xunb d a u => Sys2Proof.Machine.execXunb d a u s
  | .xclass d a b p u => Sys2Proof.Machine.execXclass d a b p u s
  | .xput d a b p u => Sys2Proof.Machine.execXput d a b p u s
  | .xget d a b p u => Sys2Proof.Machine.execXget d a b p u s
  | .xred d a b p u => Sys2Proof.Machine.execXred d a b p u s
  | .xbcst d a b p u => Sys2Proof.Machine.execXbcst d a b p u s
  | .xpub d a u => Sys2Proof.Machine.execXpub d a u s
  | .xchain d a b u => Sys2Proof.Machine.execXchain d a b u s
  | .xstat d a u => Sys2Proof.Machine.execXstat d a u s
  | .esetX f => Sys2Proof.Machine.execEsetX f s
  | .ewaitX f => Sys2Proof.Machine.execEwaitX f s
  | .bkadd d a b u => Sys2Proof.Machine.execBkadd d a b u s
  | .bkaxpy d a b u => Sys2Proof.Machine.execBkaxpy d a b u s
  | .bkred d a b u => Sys2Proof.Machine.execBkred d a b u s
  | .bkgsum d a b u => Sys2Proof.Machine.execBkgsum d a b u s
  | .bkfill d a b u => Sys2Proof.Machine.execBkfill d a b u s
  | .bkscal d a b u => Sys2Proof.Machine.execBkscal d a b u s
  | .bkmax d a b u => Sys2Proof.Machine.execBkmax d a b u s
  | .bkcas d a b u => Sys2Proof.Machine.execBkcas d a b u s
  | .esetB f => Sys2Proof.Machine.execEsetB f s
  | .ewaitB f => Sys2Proof.Machine.execEwaitB f s
  | .dld d m x => Sys2Proof.Machine.execDld d m x s
  | .dst a m x => Sys2Proof.Machine.execDst a m x s
  | .dfromvV d j c m x => Sys2Proof.Machine.execDfromvV d j c m x s
  | .dfromvW d j c m x => Sys2Proof.Machine.execDfromvW d j c m x s
  | .dtag d a m x => Sys2Proof.Machine.execDtag d a m x s
  | .dadd d a b => Sys2Proof.Machine.execDadd d a b s
  | .daddExact d a m x => Sys2Proof.Machine.execDaddExact d a m x s
  | .dsub d a b => Sys2Proof.Machine.execDsub d a b s
  | .dsubExact d a m x => Sys2Proof.Machine.execDsubExact d a m x s
  | .dmul d a b => Sys2Proof.Machine.execDmul d a b s
  | .dmulExact d a m x => Sys2Proof.Machine.execDmulExact d a m x s
  | .dmax d a b => Sys2Proof.Machine.execDmax d a b s
  | .dmaxExact d a m x => Sys2Proof.Machine.execDmaxExact d a m x s
  | .dmin d a b => Sys2Proof.Machine.execDmin d a b s
  | .dminExact d a m x => Sys2Proof.Machine.execDminExact d a m x s
  | .daff d a m x => Sys2Proof.Machine.execDaff d a m x s
  | .drelu d a => Sys2Proof.Machine.execDrelu d a s
  | .dabs d a => Sys2Proof.Machine.execDabs d a s
  | .dmix d a b m x => Sys2Proof.Machine.execDmix d a b m x s
  | .dcond d a => Sys2Proof.Machine.execDcond d a s
  | .dsuml d a => Sys2Proof.Machine.execDsuml d a s
  | .dmom d a k x => Sys2Proof.Machine.execDmom d a k x s
  | .dqnt d a m x => Sys2Proof.Machine.execDqnt d a m x s
  | .dcdf d a m x => Sys2Proof.Machine.execDcdf d a m x s
  | .esetD f => Sys2Proof.Machine.execEsetD f s
  | .ewaitD f => Sys2Proof.Machine.execEwaitD f s
  | .nop => Sys2Proof.Machine.execNop s
  | .wfe => Sys2Proof.Machine.execWfe s
  | .yield => Sys2Proof.Machine.execYield s
  | .eret => Sys2Proof.Machine.execEret s
  | .halt => Sys2Proof.Machine.execHalt s
  | .uiret => Sys2Proof.Machine.execUiret s
  | .bfence => Sys2Proof.Machine.execBfence s
  | .hinvAll => Sys2Proof.Machine.execHinvAll s
  | .loope => Sys2Proof.Machine.execLoope s
  | .tdone => Sys2Proof.Machine.execTdone s
  | .vminv => Sys2Proof.Machine.execVminv s
  | .vmpop => Sys2Proof.Machine.execVmpop s
  | .mnop => Sys2Proof.Machine.execMnop s
  | .chainBlock sl => Sys2Proof.Machine.execChainBlock sl s
  | .bankCommandExecution id => Sys2Proof.Machine.execBankCommandExecution id s
  | .splitIntoQueue sl => Sys2Proof.Machine.execSplitIntoQueue sl s
  | .renqBlockRead sl e => Sys2Proof.Machine.execRenqBlockRead sl e s
  | .commandCompletion id => Sys2Proof.Machine.execCommandCompletion id s
  | .streamFill sl q => Sys2Proof.Machine.execStreamFill sl q s
  | .streamDrain sl q => Sys2Proof.Machine.execStreamDrain sl q s
  | .blockingWaitRelease sl => Sys2Proof.Machine.execBlockingWaitRelease sl s
  | .waitTimeout sl => Sys2Proof.Machine.execWaitTimeout sl s
  | .kernelTrapEntry sl => Sys2Proof.Machine.execKernelTrapEntry sl s
  | .userInterruptDelivery sl => Sys2Proof.Machine.execUserInterruptDelivery sl s
  | .conex sl => Sys2Proof.Machine.execConex sl s
  | .taskReplay sl => Sys2Proof.Machine.execTaskReplay sl s
  | .taskFailure sl => Sys2Proof.Machine.execTaskFailure sl s
  | .admission p => Sys2Proof.Machine.execAdmission p s
  | .readyLevelRaise p n => Sys2Proof.Machine.execReadyLevelRaise p n s
  | .probeToken sl => Sys2Proof.Machine.execProbeToken sl s
  | .reserveEntryGrant sl => Sys2Proof.Machine.execReserveEntryGrant sl s
  | .kilnDraw t e => Sys2Proof.Machine.execKilnDraw t e s
  | .grantEnd t e => Sys2Proof.Machine.execGrantEnd t e s
  | .revaluation t e => Sys2Proof.Machine.execRevaluation t e s
  | .loanHop p n => Sys2Proof.Machine.execLoanHop p n s
  | .regionSpill sl => Sys2Proof.Machine.execRegionSpill sl s
  | .regionRefill sl k => Sys2Proof.Machine.execRegionRefill sl k s
  | .launchDoorbell fn ctx q tail => Sys2Proof.Machine.execLaunchDoorbell fn ctx q tail s
  | .launchStart p => Sys2Proof.Machine.execLaunchStart p s
  | .pageRequestResponse fn group ok => Sys2Proof.Machine.execPageRequestResponse fn group ok s
  | .kernelCompletion k => Sys2Proof.Machine.execKernelCompletion k s
  | .create fn ctx => Sys2Proof.Machine.execCreate fn ctx s
  | .kill fn ctx => Sys2Proof.Machine.execKill fn ctx s
  | .killAcknowledged fn ctx => Sys2Proof.Machine.execKillAcknowledged fn ctx s
  | .preempt fn ctx => Sys2Proof.Machine.execPreempt fn ctx s
  | .sliceTimer fn ctx => Sys2Proof.Machine.execSliceTimer fn ctx s
  | .drainDeadline sl => Sys2Proof.Machine.execDrainDeadline sl s
  | .taskSave sl => Sys2Proof.Machine.execTaskSave sl s
  | .resume fn ctx => Sys2Proof.Machine.execResume fn ctx s
  | .revoke fn ctx => Sys2Proof.Machine.execRevoke fn ctx s
  | .release fn ctx => Sys2Proof.Machine.execRelease fn ctx s
  | .frameScrub f => Sys2Proof.Machine.execFrameScrub f s
  | .curnew fn ctx => Sys2Proof.Machine.execCurnew fn ctx s
  | .curfund fn ctx => Sys2Proof.Machine.execCurfund fn ctx s
  | .curdel fn ctx => Sys2Proof.Machine.execCurdel fn ctx s
  | .pcreate p => Sys2Proof.Machine.execPcreate p s
  | .layoutCommitPhaseTwo => Sys2Proof.Machine.execLayoutCommitPhaseTwo s
  | .pdelete p => Sys2Proof.Machine.execPdelete p s
  | .pbind p => Sys2Proof.Machine.execPbind p s
  | .punbind p => Sys2Proof.Machine.execPunbind p s
  | .pkeys p => Sys2Proof.Machine.execPkeys p s
  | .pmove p => Sys2Proof.Machine.execPmove p s
  | .pseed p => Sys2Proof.Machine.execPseed p s
  | .phandler p => Sys2Proof.Machine.execPhandler p s
  | .reclass p => Sys2Proof.Machine.execReclass p s
  | .phclear p => Sys2Proof.Machine.execPhclear p s
  | .hostBiasFlip fn => Sys2Proof.Machine.execHostBiasFlip fn s
  | .deviceBiasFlip fn => Sys2Proof.Machine.execDeviceBiasFlip fn s
  | .biasFlipCompletion fn => Sys2Proof.Machine.execBiasFlipCompletion fn s
  | .cxlMemAccess a => Sys2Proof.Machine.execCxlMemAccess a s
  | .lockInterface fn nonce => Sys2Proof.Machine.execLockInterface fn nonce s
  | .startInterface fn nonce => Sys2Proof.Machine.execStartInterface fn nonce s
  | .stopInterface fn => Sys2Proof.Machine.execStopInterface fn s
  | .getVersion fn => Sys2Proof.Machine.execGetVersion fn s
  | .getCapabilities fn => Sys2Proof.Machine.execGetCapabilities fn s
  | .getDeviceInterfaceReport fn => Sys2Proof.Machine.execGetDeviceInterfaceReport fn s
  | .getDeviceInterfaceState fn => Sys2Proof.Machine.execGetDeviceInterfaceState fn s
  | .measurements id nonce => Sys2Proof.Machine.execMeasurements id nonce s
  | .keyExchange id => Sys2Proof.Machine.execKeyExchange id s
  | .keyWrite w => Sys2Proof.Machine.execKeyWrite w s
  | .flitReceive port f => Sys2Proof.Machine.execFlitReceive port f s
  | .nagilWrite port p => Sys2Proof.Machine.execNagilWrite port p s
  | .nagilReadRequest port p => Sys2Proof.Machine.execNagilReadRequest port p s
  | .nagilReadReply port p => Sys2Proof.Machine.execNagilReadReply port p s
  | .nagilReduce port p => Sys2Proof.Machine.execNagilReduce port p s
  | .nagilCompletion port p => Sys2Proof.Machine.execNagilCompletion port p s
  | .nagilError port p => Sys2Proof.Machine.execNagilError port p s
  | .peerTimeout id => Sys2Proof.Machine.execPeerTimeout id s
  | .sharedStructureEvent e => Sys2Proof.Machine.execSharedStructureEvent e s
  | .watchdogFire p => Sys2Proof.Machine.execWatchdogFire p s
  | .partitionReset p => Sys2Proof.Machine.execPartitionReset p s
  | .periodicBuiltInTest bad => Sys2Proof.Machine.execPeriodicBuiltInTest bad s
  | .clusterRepair c => Sys2Proof.Machine.execClusterRepair c s
  | .mpWatchdogReset => Sys2Proof.Machine.execMpWatchdogReset s
  | .mpRestart => Sys2Proof.Machine.execMpRestart s
  | .fatalError cause info => Sys2Proof.Machine.execFatalError cause info s
  | .dumpDone => Sys2Proof.Machine.execDumpDone s
  | .dumpWindowRead => Sys2Proof.Machine.execDumpWindowRead s
  | .migrationPreCopy fn => Sys2Proof.Machine.execMigrationPreCopy fn s
  | .migrationStopping fn => Sys2Proof.Machine.execMigrationStopping fn s
  | .migrationResuming fn => Sys2Proof.Machine.execMigrationResuming fn s
  | .migrationRunning fn => Sys2Proof.Machine.execMigrationRunning fn s
  | .migrationStreamRead fn => Sys2Proof.Machine.execMigrationStreamRead fn s
  | .migrationStreamWrite fn v => Sys2Proof.Machine.execMigrationStreamWrite fn v s
  | .errbaseWrite fn v => Sys2Proof.Machine.execErrbaseWrite fn v s
  | .drvfeatWrite fn v => Sys2Proof.Machine.execDrvfeatWrite fn v s
  | .registerWrite fn off v => Sys2Proof.Machine.execRegisterWrite fn off v s
  | .functionLevelReset fn => Sys2Proof.Machine.execFunctionLevelReset fn s
  | .moduleReset => Sys2Proof.Machine.execModuleReset s
  | .managementProcessorBoot => Sys2Proof.Machine.execManagementProcessorBoot s
  | .dieBoot => Sys2Proof.Machine.execDieBoot s
  | .hbmTraining => Sys2Proof.Machine.execHbmTraining s
  | .clusterBuiltInTest bad => Sys2Proof.Machine.execClusterBuiltInTest bad s
  | .dumpAreaReservation => Sys2Proof.Machine.execDumpAreaReservation s
  | .hostLinkTraining => Sys2Proof.Machine.execHostLinkTraining s
  | .pwrbrk asserted => Sys2Proof.Machine.execPwrbrk asserted s
  | .powerAverage watts => Sys2Proof.Machine.execPowerAverage watts s
  | .clockRaise => Sys2Proof.Machine.execClockRaise s
  | .junctionThrottle temp => Sys2Proof.Machine.execJunctionThrottle temp s
  | .thermAlert temp => Sys2Proof.Machine.execThermAlert temp s
  | .thermalTrip temp => Sys2Proof.Machine.execThermalTrip temp s
  | .softError t => Sys2Proof.Machine.execSoftError t s
  | .reclassCompletion p => Sys2Proof.Machine.execReclassCompletion p s

end Sys2Proof.Machine
end

