-- ==== Sys2Proof/Machine/Place.lean ====
section
/-!
DEFINITION. Placing an instruction where the next step takes it from: the words at the PC of slot 0 of logical tile 0 of
partition 0, or the next entry of that slot's queue, with the launch, the lease and the grant that this takes (log
entry 28).
-/

namespace Sys2Proof.Machine

/-- The slot that a placed instruction runs in. -/
def placeSlot : SlotId := ⟨0, 0, 0⟩

/-- Where a placed instruction stands: a page of the lease. -/
def placePage : Page where
  va := 0x10000
  size := 0x10000
  frame := 0x10000
  r := true
  w := true
  bk := false
  sh := false
  cls := 0
  key := 0
  bias := false
  leaf := 0
  range := 0

/-- A kernel with that one page. -/
def placeKernel : Kernel :=
  { (default : Kernel) with
    fn := 1
    entry := 0x10000
    gangSize := 1
    gangs := 1
    ranges := [{ base := 0x10000, len := 0x10000, rights := 3, cls := 0, shadow := false }]
    pages := [placePage]
    phase := 1 }

/-- A task of it, with every region and accumulator tile of its tile. -/
def placeTask : Task where
  kernel := 0
  tcb := none
  gang := 0
  member := 0
  entry := 0x10000
  args := []
  status := 3
  rsub := 1
  seqNo := 0
  rdyc := 0
  prio := 0
  tickets := 1
  reqm := 16
  reqa := 4
  reqr := 0xFFFF
  succ := []
  handler := false

/-- A tile whose regions belong to slot 0. -/
def placeTile : Tile :=
  { (default : Tile) with
    regions := (List.range 16).map (fun k => (k, { (default : Region) with owner := some 0 })) }

/-- A partition of one cluster with that tile. -/
def placePart : Part :=
  { (default : Part) with
    clusters := [0]
    tiles := [(0, placeTile)] }

/-- The state with a running task in slot 0 of tile 0, launched from outside, features accepted. -/
def State.withTask (s : State) : State :=
  { s with
    parts := mset s.parts 0 placePart
    kernels := mset s.kernels 0 placeKernel
    nextKernel := max 1 s.nextKernel
    gangs := mset s.gangs 0
      { kernel := 0, size := 1, members := [(0, placeSlot)], arrived := [], completed := [] }
    nextGang := max 1 s.nextGang
    fns := mset s.fns 1 { s.fn 1 with
      part := some 0
      ctxs := mset (s.fn 1).ctxs 0 { (default : Ctx) with state := 1, tag := 1 } }
    slots := mset s.slots placeSlot { (default : Slot) with task := some placeTask, pc := 0x10000#64 }
    regs := mset s.regs 0x1708 0x843
    fatal := none }

/-- The state with the slot running, where it does not run and have its next word in memory already. -/
def State.readyToFetch (s : State) : State :=
  match (s.slot placeSlot).task, s.fetchAddr placeSlot (s.slot placeSlot).pc.toNat with
  | some _, some _ => s
  | _, _ => s.withTask

/-- Puts words at the PC of the slot, and gives its control core the turn. -/
def State.placeAtPc (s : State) (bs : List Byte) : State :=
  let s1 := s.readyToFetch
  match s1.fetchAddr placeSlot (s1.slot placeSlot).pc.toNat with
  | some a => { s1 with mem := Memory.writeAll s1.mem a bs, turn := .core placeSlot }
  | none => s1

/-- Puts a word at the head of a queue of the slot, captured as at its split, with the grant, and gives the engine the
turn. -/
def State.placeInQueue (s : State) (e : Engine) (w : Nat) (pre : Option Nat) : State :=
  let s1 := s.readyToFetch
  let x := (s1.slot placeSlot).makeEntry w pre s1.seqT
  let s2 := s1.modSeq placeSlot e (fun q => { q with q := q.q.take q.pos ++ x :: q.q.drop q.pos })
  { s2.modKiln placeSlot.tileId e (fun k => { k with grant := some { slot := 0, start := s2.now } }) with
    turn := .engine placeSlot e }

/-- Places the words of one instruction. -/
def State.placeWords (s : State) (bs : List Byte) : State :=
  let w0 := ofBytes (bs.take 4)
  let w1 := ofBytes ((bs.drop 4).take 4)
  match queuedEngine w0, field w0 29 3 == 7, queuedEngine w1 with
  | some e, _, _ => s.placeInQueue e w0 none
  | none, true, some e => s.placeInQueue e w1 (some (w0 % 2 ^ 29))
  | _, _, _ => s.placeAtPc bs

end Sys2Proof.Machine
end

