-- ==== Sys2Proof/Machine/Turns.lean ====
section
/-!
DEFINITION. What a turn of the step is: a control core's next word or boundary event (R54, R66, R246, R327), an engine's
next entry (R241, R307, R309), an operation or event, or the visibility of a write (R292, R295).
-/

namespace Sys2Proof.Machine

/-! ## Control core -/

/-- Whether a pending user-level event may be delivered at this boundary (R246). -/
def Slot.deliverable (v : Slot) : Bool :=
  let c := v.csr
  (c.xdone != 0 || c.bdone != 0 || c.topo) && c.en && !c.inh && c.uivec != 0 && !v.level

/-- Whether an exhausted budget is answered at this boundary: at user level, or when it fails the task (R326, R327). -/
def Slot.exhausted (v : Slot) : Bool := v.conex.isSome && (!v.level || bitOf v.csr.conecfg 3)

/-- Whether the privilege test of R66, or UIRET's of R140, forbids a word, whose meaning then traps before it has any
effect. -/
def State.forbids (s : State) (sl : SlotId) (i : Instr) : Bool :=
  let v := s.slot sl
  match i with
  | .eret => !v.level
  | .halt => !v.level
  | .csrr _ c pre => csrPriv (csrNumber c.val pre) && !v.level
  | .csrw _ c pre => csrPriv (csrNumber c.val pre) && !v.level
  | .csrx _ _ c pre => csrPriv (csrNumber c.val pre) && !v.level
  | .uiret => !v.csr.inh
  | _ => false

/-- Executes a control-core word that passed CheckEncoding, once the registers that it names are not pending and carry no
poison (R57, R324, R325). -/
noncomputable def coreWord (ex : Instr → State → Out) (i : Instr) (s : State) : Out :=
  let sl := s.cur.slot
  let v := s.slot sl
  if s.forbids sl i then ex i s
  else if (scalarReads i ++ scalarWrites i).any v.isPending then .next s
  else
    let go (s : State) : Out :=
      onNext (ex i (s.settleScalars sl (scalarReads i))) (fun t => t.modSlot sl (fun v => { v with resumed := false }))
    match v.firstPoisoned (scalarReads i) with
    | some n => s.consumeCore (poisonVal n true false 0) go
    | none => go s

/-- Whether a word may stand inside an open loop bundle: it names an engine queue, or it is LOOPB or LOOPE (R125). -/
def inBundle (i : Instr) : Bool :=
  match i with
  | .loopb .. => true
  | .loope => true
  | _ => false

/-- A control core's turn, with no event to take: the word at the PC is fetched, checked and split (R55, R66). -/
noncomputable def splitWord (ex : Instr → State → Out) (sl : SlotId) (s : State) : Out :=
  let s := s.settleFetch sl
  match s.fetch sl with
  | .out va => .next ((s.atWord sl 0 none).takeTrap sl { cause := 0x04, val := va } (s.slot sl).pc)
  | .word w pre =>
    match queuedEngine w with
    | some _ => ex (.splitIntoQueue sl) s
    | none =>
      let s1 := s.atWord sl w pre
      match s1.check w pre with
      | .trap c => trapOut s1 c s1.encoding
      | .ok i =>
        if !(s1.slot sl).bundles.isEmpty && !inBundle i then trapOut s1 0x01 s1.encoding
        else coreWord ex i s1

/-- Whether a slot's control core has a word to issue: it holds a task that nothing stops, and neither waits in a blocking
word nor stalls on a full queue (R58, R78). -/
def State.mayIssue (s : State) (sl : SlotId) : Bool :=
  let v := s.slot sl
  v.task.isSome && !s.stopped sl && v.wait.isNone &&
    (match v.stall with | some x => s.mayPush sl x.engine | none => true)

/-- Whether the round of its tile's control-core issue stands at a slot (R135, R307). -/
def State.issueTurn (s : State) (sl : SlotId) : Bool :=
  afterPointer ((List.range 8).filter (fun i => s.mayIssue ⟨sl.part, sl.tile, i⟩)) ((s.tile sl.tileId).coreTurn) == sl.slot

/-- The round of issue has come to a slot (R307). -/
def State.tookTurn (s : State) (sl : SlotId) : State := s.modTile sl.tileId (fun x => { x with coreTurn := sl.slot })

/-- A control core's turn: a trap, an exhausted budget or a user-level event is taken at the boundary; a blocking word is
tried again; or the next word is split, when the round of issue stands at the slot. -/
noncomputable def coreTurn (ex : Instr → State → Out) (sl : SlotId) (s : State) : Out :=
  let v := s.slot sl
  if s.stopped sl then .next s
  else if !v.traps.isEmpty && !v.level then ex (.kernelTrapEntry sl) s
  else if v.exhausted then ex (.conex sl) s
  else if v.deliverable then ex (.userInterruptDelivery sl) s
  else if v.wait.isSome then ex (.blockingWaitRelease sl) s
  else if s.issueTurn sl then splitWord ex sl (s.tookTurn sl)
  else .next s

/-! ## Engines -/

/-- Whether the head entry of a slot's queue can begin (R308): a trial of it does not stall. -/
noncomputable def State.canBegin (ex : Instr → State → Out) (s : State) (sl : SlotId) (e : Engine) : Bool :=
  !s.engineStopped sl e &&
    match engineEntry ex sl e s with
    | .next t => decide (t.cur.status ≠ .stalled)
    | _ => true

/-- The slots of a tile that are ready on an engine (R308). -/
noncomputable def State.readyOn (ex : Instr → State → Out) (s : State) (t : TileId) (e : Engine) : List Nat :=
  (List.range 8).filter (fun i => s.canBegin ex ⟨t.part, t.tile, i⟩ e)

/-- Supplies a Kiln's event with the slots that are ready. -/
noncomputable def State.withReady (ex : Instr → State → Out) (s : State) (t : TileId) (e : Engine) : State :=
  { s with cur := { s.cur with ready := s.readyOn ex t e } }

/-- An engine's turn for a slot: the next entry of the slot that holds the grant, or on the bank port of the slot whose
turn it is. -/
noncomputable def engineTurn (ex : Instr → State → Out) (sl : SlotId) (e : Engine) (s : State) : Out :=
  let t := sl.tileId
  if s.engineStopped sl e then .next s
  else if e == .b then
    let r := s.readyOn ex t e
    if afterPointer r ((s.tile t).bankTurn) == sl.slot && r.contains sl.slot then
      onNext (engineEntry ex sl e s) (fun u => u.modTile t (fun x => { x with bankTurn := sl.slot }))
    else .next s
  else
    match (s.kiln t e).grant with
    | none => .next s
    | some g =>
      if g.slot != sl.slot then .next s
      else if (decide (g.start + quantum e ≤ s.now) || (s.slot sl).yield.contains e) && !(e == .m && (s.epiCmd sl).isSome) then
        .next (s.endGrant t e)
      else onNext (engineEntry ex sl e s) (fun u => if u.cur.status == .stalled then u.endGrant t e else u)

/-! ## Visibility (R276, R292, R295) -/

/-- An agent comes to see the write at a place of T: its own point for it is here (R292). -/
def State.showWrite (s : State) (n : Nat) (g : Agent) : State :=
  { s with
    hist := s.hist.map (fun (r : Rec) =>
      if r.at_ == n && !r.seen.any (fun x => decide (x.1 = g)) then { r with seen := (g, s.seqT) :: r.seen } else r)
    seqT := s.seqT + 1 }

/-- An agent comes to see the n-th publish, newest first. -/
def State.showPublish (s : State) (n : Nat) (g : Agent) : State :=
  { s with
    pubs := s.pubs.modify n (fun (p : Pub) =>
      if p.agents.any (fun x => decide (x.1 = g)) then p else { p with agents := (g, s.seqT) :: p.agents })
    seqT := s.seqT + 1 }

/-! ## A turn -/

/-- Performs an operation or event of the table: a Kiln's is supplied with the slots that are ready; one that belongs to
a control core's or an engine's turn is that turn; a word comes from a queue or a PC only; an operand that names nothing
the device has (R2) is no event, and the host brings none before its link is trained (R450). -/
noncomputable def eventTurn (ex : Instr → State → Out) (i : Instr) (s : State) : Out :=
  if !wellFormed i || (needsLink i && s.mp.startStep != 6) then .next s
  else match i with
  | .kilnDraw tl e => ex i (s.withReady ex tl e)
  | .grantEnd tl e => ex i (s.withReady ex tl e)
  | .splitIntoQueue sl => coreTurn ex sl s
  | .blockingWaitRelease sl => coreTurn ex sl s
  | .waitTimeout sl => coreTurn ex sl s
  | .kernelTrapEntry sl => coreTurn ex sl s
  | .userInterruptDelivery sl => coreTurn ex sl s
  | .conex sl => coreTurn ex sl s
  | .chainBlock sl => engineTurn ex sl .x s
  | .renqBlockRead sl e => engineTurn ex sl e s
  | _ => if isWord i then .next s
    else match tlpFn i with
      | some fn => s.viaTlp fn none (ex i)
      | none => ex i s

/-- Performs one turn. What arrives under a MAC that does not check is dropped and logged by AER, and nothing is released to it
(R417). -/
noncomputable def turnOf (ex : Instr → State → Out) (t : Turn) (s : State) : Out :=
  match t with
  | .core sl => coreTurn ex sl s
  | .engine sl e => engineTurn ex sl e s
  | .event i => eventTurn ex i s
  | .tlp n i => match tlpFn i with
    | some fn => if wellFormed i then s.viaTlp fn (some n) (ex i) else .next s
    | none => .next s
  | .config fn off => .next (s.configRequest fn off)
  | .badMac fn => .next (s.send 3 [4, fn])
  | .perform n a => .next (s.performOne n a)
  | .show n g => .next (s.showWrite n g)
  | .publish n g => .next (s.showPublish n g)

/-- The tiles of the partitions. -/
def State.tiles (s : State) : List TileId :=
  s.parts.flatMap (fun (p : Nat × Part) => p.2.tiles.map (fun (t : Nat × Tile) => ⟨p.1, t.1⟩))

/-- Does something for every Kiln of the device. -/
def State.eachKiln (s : State) (f : State → TileId → Engine → State) : State :=
  s.tiles.foldl (fun s t => [Engine.v, .m, .x, .d].foldl (fun s e => f s t e) s) s

/-- The grants whose slot's head cannot begin, or whose queue is empty, end (R309). -/
noncomputable def State.settleGrants (ex : Instr → State → Out) (s : State) : State :=
  s.eachKiln (fun s t e =>
    match (s.kiln t e).grant with
    | none => s
    | some g => if s.canBegin ex ⟨t.part, t.tile, g.slot⟩ e then s else s.endGrant t e)

/-- Whether a Kiln has to draw: its engine has no grant and some slot is ready on it (R308). -/
noncomputable def State.mustDraw (ex : Instr → State → Out) (s : State) (t : TileId) (e : Engine) : Bool :=
  (s.kiln t e).grant.isNone && !(s.readyOn ex t e).isEmpty

/-- Before a cycle ends, every Kiln that has to draw and has not drawn in it draws (R308). -/
noncomputable def State.forceDraws (ex : Instr → State → Out) (s : State) : State :=
  s.eachKiln (fun s t e =>
    if s.mustDraw ex t e && decide ((s.kiln t e).drawn ≠ some s.now) then
      s.modKiln t e (fun k => k.draw (s.readyOn ex t e) s.now)
    else s)

/-- Cycles that pass after a turn, of those named: one only where a Kiln has to draw in the next (R308). -/
noncomputable def State.cyclesOf (ex : Instr → State → Out) (s : State) (n : Nat) : Nat :=
  if s.tiles.any (fun t => [Engine.v, .m, .x, .d].any (fun e => s.mustDraw ex t e)) then min n 1 else n

/-- What ends a cycle: the draws that it still needs, and the weights with which the next one begins (R308, R313). -/
noncomputable def State.endCycle (ex : Instr → State → Out) (s : State) : State :=
  (s.forceDraws ex).eachKiln State.noteWeights

/-- What follows from a turn at once: grants end (R309), loans set out and are withdrawn (R317), ready entries that fit
no tile, or fit one, are noted (R398, R429), registers go on to spill areas (R239), the errors found are told (R427). -/
noncomputable def State.settleTurn (ex : Instr → State → Out) (s : State) : State :=
  let s1 := s.settleGrants ex
  let s2 := (s1.parts.map (·.1)).foldl (fun s p => s.settleLoans p) s1
  (s2.tiles.foldl (fun s t => s.settleArea t) s2.noteFit).tellAll

/-- Every Kiln whose revaluation is 4,200 cycles old installs it (R305). -/
def State.settleKilns (s : State) : State :=
  s.eachKiln (fun s t e =>
    match (s.kiln t e).stale with
    | some c => if c + 4200 ≤ s.now then s.install t e else s
    | none => s)

/-- Every cluster that drains past its deadline goes over to saving (R400). -/
def State.settleDrains (s : State) : State := (s.slots.map (·.1)).foldl (fun s sl => s.drainOver sl) s

/-- What has had to happen by the time that it is now: late revaluations (R305), the records of
issuers (R340), loans' hops (R317), raises on the ready lists (R253), probes (R255), the ends of drains (R400). -/
def State.settleTime (s : State) : State :=
  ((s.parts.map (·.1)).foldl (fun s p => s.settleLoans p) s.settleKilns.settleRecords).raiseReady.settleProbes.settleDrains

/-- Time passes (R3): the cycle ends with the draws that it needs, and what the new cycle brings follows. -/
noncomputable def State.pass (ex : Instr → State → Out) (n : Nat) (s : State) : State :=
  if n = 0 then s
  else
    let s1 := s.endCycle ex
    { s1 with now := s.now + s1.cyclesOf ex n }.settleTime

/-- After a turn: what follows from it, then time passes (R3) with what that brings, and the next party is named. -/
noncomputable def State.tick (ex : Instr → State → Out) (s : State) : State :=
  { (s.settleTurn ex).pass ex (Config.elapsed s.stepNo) with
    turn := Config.nextTurn s.stepNo
    stepNo := s.stepNo + 1 }

end Sys2Proof.Machine
end

