-- ==== Sys2Proof/Machine/Step.lean ====
section
/-!
DEFINITION. One step: the turn that the state names is performed, and then time and the turn move on.
-/

namespace Sys2Proof.Machine

/-- One step of the device. -/
noncomputable def step (s : State) : Host.Outcome State Fault Refusal :=
  onNext (turnOf exec s.turn s) (State.tick exec)

/-- The state with an instruction placed where the next step takes it from (log entry 28). -/
def State.withFetchWord (s : State) (nbits w : Nat) : State := s.placeWords (toBytes (max 8 ((nbits + 7) / 8)) (w % 2 ^ nbits))

end Sys2Proof.Machine
end

