-- ==== Sys2Proof/Safety.lean ====
section
/-!
DEFINITION. The terms that the statements use: a run that goes on, what a word completes with, and frames: what a word
leaves as it was.
-/

namespace Sys2Proof

open Machine

/-- A step from the state does not stop. -/
def Goes (s : State) : Prop := ∃ t, step s = .next t

/-- k steps from a state all go on, with memory canonical before each. -/
def SafeFor : Nat → State → Prop
  | 0, s => Memory.wf s.mem = true
  | k + 1, s => Memory.wf s.mem = true ∧ ∃ t, step s = .next t ∧ SafeFor k t

/-- The instruction completes in a next state of which P holds. -/
def Completes (i : Instr) (s : State) (P : State → Prop) : Prop := ∃ t, exec i s = .next t ∧ P t

/-! ## Frames -/

/-- The slot of the word being executed. -/
def Machine.State.here (s : State) : Slot := s.slot s.cur.slot

/-- Scalar register n of the slot that executes. -/
def Machine.State.sreg (s : State) (n : Nat) : Word := s.here.readS n

/-- A slot without its handle registers. -/
def Machine.Slot.butHandles (v : Slot) : Slot := { v with regs := { v.regs with h := [] } }

/-- A slot without its PC, its scalar registers and their marks, and the model's notes of its last ordinary access: its
place, what it has observed of the host, and whether it is an atomic that the host may meet half done (R102). -/
def Machine.Slot.butScalars (v : Slot) : Slot :=
  { v with
    pc := 0
    lastOrd := 0
    hostObs := 0
    narrow := none
    regs := { v.regs with
      s := []
      spoison := []
      sflip := [] } }

/-- A slot without its PC. -/
def Machine.Slot.butPc (v : Slot) : Slot := { v with pc := 0 }

/-- A slot without its CSRs. -/
def Machine.Slot.butCsr (v : Slot) : Slot := { v with csr := {} }

/-- A slot without its wait, and the model's notes of the completions it has seen. -/
def Machine.Slot.butSeen (v : Slot) : Slot :=
  { v with
    wait := none
    lastSeen := 0
    seenCmds := [] }

/-- A slot without the model's notes of which command windows may still be replayed, and of what was written for them. -/
def Machine.Slot.butReplayable (v : Slot) : Slot :=
  { v with regs := { v.regs with a := v.regs.a.map (fun x => (x.1, { x.2 with replayable := true, wrote := [] })) } }

/-- A state without its slots. -/
def Machine.State.butSlots (s : State) : State := { s with slots := [] }

/-- A state without its slots and the model's record of the order of writes and publishes. -/
def Machine.State.butOrder (s : State) : State :=
  { s with
    slots := []
    vis := []
    pubs := []
    hist := []
    seqT := 0 }

/-- A state without its slots, the contents of memory and the model's record of the order of writes. -/
def Machine.State.butMemory (s : State) : State :=
  { s with
    slots := []
    mem := []
    hist := []
    flips := []
    seqT := 0 }

/-- Every byte of memory, every full/empty tag and every poison mark reads as before, but for the n bytes from a on. -/
structure MemoryBut (s t : State) (a n : Nat) : Prop where
  bytes : ∀ x, x < a ∨ a + n ≤ x → Memory.read t.mem x = Memory.read s.mem x
  tags : t.tags = s.tags
  marks : t.poison = s.poison

/-- No byte of memory changes, nor a tag, nor a mark. -/
abbrev MemorySame (s t : State) : Prop := MemoryBut s t 0 0

/-- Every slot but the executing one is as before. -/
def OthersSame (s t : State) : Prop := ∀ x, x ≠ s.cur.slot → t.slot x = s.slot x

/-- Every slot is as before but for the grants that YIELD has still to end (R135, R309). -/
def SlotsButYield (s t : State) : Prop := ∀ x, { t.slot x with yield := [] } = { s.slot x with yield := [] }

/-- Every scalar register but n reads as before. -/
def ScalarsBut (s t : State) (n : Nat) : Prop := ∀ m, m < 64 → m ≠ n → t.sreg m = s.sreg m

/-- The whole of what a word of the control core changes is scalar register n, with its poison, and the PC: every other
scalar register, every predicate, CSR, handle, matrix register, accumulator, distribution register, queue and flag, every
other slot, every byte of memory and every other part of the device is as before. -/
structure OnlyScalar (s t : State) (n : Nat) : Prop where
  scalars : ScalarsBut s t n
  rest : t.here.butScalars = s.here.butScalars
  others : OthersSame s t
  device : t.butSlots = s.butSlots
  memory : MemorySame s t

/-- The same, but that the CSRs of the slot may change. -/
structure OnlyScalarCsr (s t : State) (n : Nat) : Prop where
  scalars : ScalarsBut s t n
  rest : t.here.butScalars.butCsr = s.here.butScalars.butCsr
  others : OthersSame s t
  device : t.butSlots = s.butSlots
  memory : MemorySame s t

/-- The whole of what a word of the control core changes is the PC. -/
structure OnlyPc (s t : State) : Prop where
  rest : t.here.butPc = s.here.butPc
  others : OthersSame s t
  device : t.butSlots = s.butSlots
  memory : MemorySame s t

/-- The whole of what a word changes is the bytes bs from address a on, and in the executing slot the PC and scalar
register d: all other memory, every tag and mark, and every register of every slot is as before. -/
structure OnlyStore (s t : State) (a : Nat) (bs : List Byte) (d : Nat) : Prop where
  stored : ∀ i, i < bs.length → Memory.read t.mem (a + i) = bs.getD i 0
  memory : MemoryBut s t a bs.length
  scalars : ScalarsBut s t d
  rest : t.here.butScalars.butReplayable = s.here.butScalars.butReplayable
  others : ∀ x, x ≠ s.cur.slot → (t.slot x).butReplayable = (s.slot x).butReplayable
  device : t.butMemory = s.butMemory

/-- PC goes on after the word (R55). -/
def Machine.State.nextPc (s : State) : Word := s.pc + BitVec.ofNat 64 s.len

/-- What s[d] reads after v has been written to it: a write to s0 is discarded (R39). -/
def written (d : Nat) (v : Word) : Word := if d = 0 then 0 else v

/-- The word writes v to s[d], goes on after the word, and changes nothing else. -/
def WritesScalar (i : Instr) (s : State) (d : Nat) (v : Word) : Prop :=
  Completes i s (fun t => t.sreg d = written d v ∧ t.pc = s.nextPc ∧ OnlyScalar s t d)

/-- The word goes to an address and changes nothing else. -/
def JumpsTo (i : Instr) (s : State) (a : Word) : Prop := Completes i s (fun t => t.pc = a ∧ OnlyPc s t)

/-- The word traps with a cause and a value: the state is that of taking the trap at its first word. -/
def Traps (i : Instr) (s : State) (cause val : Nat) : Prop := exec i s = .next (s.trapHere cause val)

/-- No soft error waits in the n bytes from a on, and none of their segments carries poison (R323, R324). -/
def Machine.State.Clean (s : State) (a n : Nat) : Prop :=
  (∀ f ∈ s.flips, f.bits = [] ∨ f.seg * 64 + 64 ≤ a ∨ a + n ≤ f.seg * 64) ∧ s.poisonedIn a n = false

/-- The draw that a word of the control core takes under .sr, else 0 (R25, R26). -/
def Machine.State.coreDraw (s : State) (rm : Nat) : Nat := if rm = 4 then xorshift (s.here.csr.gen 0) else 0

/-- The CSRs after a word of the control core has drawn and raised its flags (R25, R30). -/
def Machine.State.coreCsr (s : State) (rm fl : Nat) : Csrs :=
  { s.here.csr with
    fpcsr := s.here.csr.fpcsr ||| fl
    gens := if rm = 4 then mset s.here.csr.gens 0 (xorshift (s.here.csr.gen 0)) else s.here.csr.gens }

/-- An FP32 word with the 64-bit result and flags x (R90): with no trap enabled for a flag that it raises it writes s[d] and
ORs its flags into FPCSR; otherwise it traps FPE with the flags set and s[d] as it was. -/
def FloatResult (i : Instr) (s : State) (d rm : Nat) (x : Nat × Nat) : Prop :=
  let c := s.coreCsr rm x.2
  if c.fpe x.2 then exec i s = .next (State.trapHere (s.modCsr s.cur.slot (fun _ => c)) 0x12 (x.2 * 256))
  else Completes i s (fun t =>
    t.sreg d = written d (BitVec.ofNat 64 x.1) ∧ t.pc = s.nextPc ∧ OnlyScalarCsr s t d ∧ t.here.csr = c)

/-- The handle access of a word of the slot that executes (R94). -/
def Machine.State.access (s : State) (h off size kind : Nat) : Addr := s.handleAddress s.cur.slot h off size kind

/-- The side-effect flags set before a word's checks (R110, R248): 8 atomic performed, 16 future filled, 32 queue entry
pushed. -/
def Machine.State.flagged (s : State) (bit : Nat) : State := s.sideEffect s.cur.slot bit

/-- The state with its executing slot waiting for nothing. -/
def Machine.State.awake (s : State) : State := s.modSlot s.cur.slot (fun v => { v with wait := none })

/-- An atomic on the 8 bytes at a (R101), from the state with its side-effect flag set, in which the slot has come to see
every write of those bytes: s[d] receives the old value, which is what memory holds there, and the word writes new where
there is one. -/
def AtomicResult (i : Instr) (s : State) (d a : Nat) (new : Word → Option Word) : Prop :=
  let s0 := (s.flagged 8).showAt (.core s.cur.slot) a 8
  let old := BitVec.ofNat 64 (ofBytes ((List.range 8).map (fun k => Memory.read s0.mem (a + k))))
  Completes i s (fun t => t.sreg d = written d old ∧ t.pc = s0.nextPc ∧
    match new old with
    | some x => OnlyStore s0 t a (toBytes 8 x.toNat) d
    | none => OnlyScalar s0 t d)

/-- A blocking word ends at once with v in s[d] (R109, R111): the slot waits for nothing, PC is past the word, and what else
may change from the state u, which is s with the word's side-effect flag set, is what the two maps leave out of the slot and
of the device. -/
def EndsFrom (u : State) (i : Instr) (s : State) (d : Nat) (v : Word) (slot : Slot → Slot) (device : State → State) : Prop :=
  Completes i s (fun t => t.sreg d = written d v ∧ t.pc = u.nextPc ∧ t.here.wait = none ∧ ScalarsBut u t d ∧
    slot t.here.butScalars.butSeen = slot u.here.butScalars.butSeen ∧ OthersSame u t ∧ device t.butSlots = device u.butSlots)

/-- The same for a word with no side-effect flag. -/
abbrev EndsWith (i : Instr) (s : State) (d : Nat) (v : Word) (slot : Slot → Slot) (device : State → State) : Prop :=
  EndsFrom s i s d v slot device

/-- A blocking word goes on waiting (R109): the slot stays at it, waiting for what the kind says since now, and no scalar
register and no byte of memory changes from the state u. -/
def WaitsFrom (u : State) (i : Instr) (s : State) (k : WaitKind) : Prop :=
  Completes i s (fun t => t.here.wait = some ⟨k, u.now, u.pc, u.nextPc, u.seqT, u.firstWord⟩ ∧ t.pc = u.pc ∧
    ScalarsBut u t 64 ∧ OthersSame u t ∧ MemorySame u t)

/-- The same for a word with no side-effect flag. -/
abbrev Waits (i : Instr) (s : State) (k : WaitKind) : Prop := WaitsFrom s i s k

/-- A word on an object in memory ends (R132, R133): from the state u it writes v to s[d], goes on after the word, and
writes the lists of bytes given, each from its address on and in this order; it changes nothing else of any register. -/
def ObjectWord (u : State) (i : Instr) (s : State) (d : Nat) (v : Word) (ws : List (Nat × List Byte)) : Prop :=
  Completes i s (fun t => t.sreg d = written d v ∧ t.pc = u.nextPc ∧ t.here.wait = none ∧ ScalarsBut u t d
    ∧ (∀ x, Memory.read t.mem x = Memory.read (ws.foldl (fun m w => Memory.writeAll m w.1 w.2) u.mem) x)
    ∧ t.tags = u.tags ∧ t.poison = u.poison
    ∧ t.here.butScalars.butSeen.butReplayable = u.here.butScalars.butSeen.butReplayable
    ∧ (∀ x, x ≠ s.cur.slot → (t.slot x).butReplayable = (u.slot x).butReplayable) ∧ t.butMemory = u.butMemory)

/-- What a FENCE of kind m of a scope leaves (R117, R293, R295, R299): the writes of every command that the slot has seen
complete and the publishes made within the scope are ordered; towards the host, the slot's stores to pages of host bias are
visible to it, and what the slot has observed of the host's is ordered before its later accesses. -/
structure FencedM (s t : State) (sc : Nat) : Prop where
  writes : ∀ c v, (c, v) ∈ s.vis →
    (c, if c ∈ s.here.seenCmds then { v with fences := s.fenceHere sc s.cur.slot :: v.fences } else v) ∈ t.vis
  publishes : ∀ p ∈ s.pubs,
    (if s.covers (s.fenceHere sc s.cur.slot) (.core p.by_.slot) then { p with fences := s.cur.slot :: p.fences } else p) ∈ t.pubs
  host : sc = 7 ∨ sc = 9 → t.here.hostSeen = max s.here.hostSeen s.here.hostObs
    ∧ ∀ r ∈ s.hist, r.weak = true → agentSlot r.by_ = some s.cur.slot →
      ∃ x ∈ t.hist, x.at_ = r.at_ ∧ x.addr = r.addr ∧ t.sees .host x = true

/-- The slot has entered the kernel-level handler (R69) for a cause, with the address and value saved; its other
registers and CSRs are as before, and so is everything outside the slot. -/
def EntersHandler (s t : State) (cause : Nat) (pc : Word) (val : Nat) : Prop :=
  t.here.csr = { s.here.csr with trapcause := cause, trappc := pc, trapval := BitVec.ofNat 64 val }
  ∧ t.here.level = true ∧ t.here.pc = 0x1FFFFFFB0000000#64 ∧ t.here.wait = none ∧ t.here.stall = none
  ∧ t.here.bundles = [] ∧ t.here.used = [] ∧ t.here.outer = (s.here.bundles, s.here.used) :: s.here.outer
  ∧ (∀ n, n < 56 → t.sreg n = s.sreg n)
  ∧ (∀ n, n < 31 → mget t.here.regs.h n {} = mget s.here.regs.h n {})
  ∧ (let k := t.here.readH 15
     k.va = 0x1FFFFFFB1000000 + 0x10000 * identity s.cur.slot ∧ k.size = 0 ∧ k.r = true ∧ k.w = true ∧ k.valid = true)
  ∧ { t.here.regs with h := [] } = { s.here.regs with h := [] }
  ∧ OthersSame s t ∧ t.butSlots = s.butSlots

/-- The task of the executing slot has begun to fail with a trap: nothing is left in its queues and nothing waits (R334). -/
def BeginsToFail (s t : State) (x : Trap) : Prop :=
  t.here.ending = some (.fail x) ∧ t.here.wait = none ∧ t.here.stall = none
  ∧ (∀ e, (t.here.seq e).q = []) ∧ t.here.regs = s.here.regs ∧ t.here.pc = s.here.pc ∧ t.mem = s.mem

/-- A trap that R71 does not send elsewhere enters the handler. -/
def Machine.State.handled (s : State) (cause : Nat) : Prop :=
  s.here.level = false ∧ s.hasHandler s.cur.slot.part = true ∧ cause ≠ 0x04
  ∧ ((cause = 0x07 ∨ cause = 0x0A) → s.kclass s.cur.slot ≠ 0)

/-- The word changes the executing slot by f, goes on after the word, and changes nothing else. -/
def ChangesSlot (i : Instr) (s : State) (f : Slot → Slot) : Prop :=
  Completes i s (fun t => t.pc = s.nextPc ∧ t.here.butPc = (f s.here).butPc ∧ OthersSame s t ∧ t.butSlots = s.butSlots)

/-- The entry that a marker word pushes as the i-th of its entries (R124). -/
def Machine.State.marker (s : State) (e : Engine) (k : EntryKind) (i : Nat) : Entry :=
  { kind := k, stamp := s.seqT, held := s.queueIsFull s.cur.slot e, born := s.seqT + i }

/-- The word pushes the entries given, at most one to an engine, into queues of its slot and goes on (R58, R124); each push
takes a place in the model's order of pushes. -/
def Pushes (i : Instr) (s : State) (es : List (Engine × EntryKind)) (blank : Slot → Slot) : Prop :=
  Completes i s (fun t => t.pc = s.nextPc ∧ t.here.stall = none ∧ OthersSame s t
    ∧ t.butSlots = { s.butSlots with seqT := s.seqT + es.length }
    ∧ (∀ e, (t.here.seq e).q = (s.here.seq e).q ++
        (es.zipIdx.filter (fun x => decide (x.1.1 = e))).map (fun x => s.marker x.1.1 x.1.2 x.2))
    ∧ (∀ e, { t.here.seq e with q := [] } = { s.here.seq e with q := [] })
    ∧ blank { t.here with pc := 0, stall := none, seqs := [] } = blank { s.here with pc := 0, stall := none, seqs := [] })

/-- The word stalls on a full queue of its slot (R58): PC stays, nothing is pushed and no register changes. -/
def StallsOn (i : Instr) (s : State) (e : Engine) : Prop :=
  Completes i s (fun t => (∃ x, t.here.stall = some x ∧ x.target = s.cur.slot ∧ x.engine = e)
    ∧ { t.here with stall := none } = { s.here with stall := none } ∧ OthersSame s t ∧ t.butSlots = s.butSlots)

/-! ## Words of the vector engine -/

/-- The n-th state of a rounding generator from x on (R26). -/
def drawNth : Nat → Nat → Nat
  | 0, x => x
  | n + 1, x => drawNth n (xorshift x)

/-- The draw of lane l of a vector word under .sr, in lane order from generator 1 (R25, R149). -/
def Machine.State.laneDraw (s : State) (rm l : Nat) : Nat := if rm = 4 then drawNth (l + 1) (s.here.csr.gen 1) else 0

/-- Generator 1 after the word's 32 draws. -/
def Machine.State.laneGen (s : State) (rm : Nat) : Nat := drawNth (if rm = 4 then 32 else 0) (s.here.csr.gen 1)

/-- A word of the vector engine may begin and meets nothing that stops it: its streams allow it (R143), no injection is armed
on an element that it reads, and no such element carries poison, or the kernel's class is U and the event is not counted, so
that the word goes on with the bits as they are (R325). -/
structure LaneReady (s : State) (srcs : List Nat) (dst : Option Nat) (x : Nat) : Prop where
  gate : s.here.gate s.cur.entry.stamp srcs dst = .ok
  clean : firstBad (s.here.readLines (s.here.xval .v x) [] srcs) = none
    ∨ s.kclass s.cur.slot = 2 ∧ (bitOf s.here.csr.conecfg 1 = false ∨ s.here.csr.cone = 0)
  quiet : s.here.csr.armed 2 2 = false

/-- Lane l of source operand k (R142, R143). -/
def Machine.State.src (s : State) (x : Nat) (srcs : List Nat) (k l : Nat) : Nat :=
  (((s.here.readLines (s.here.xval .v x) [] srcs).getD k []).getD l (0, none)).1

/-- Whether the lane mask admits a lane (R144). -/
def Machine.State.lane (s : State) (l : Nat) : Bool := bitOf s.here.laneMask l

/-- The flags of the admitted lanes together (R30, R145). -/
def Machine.State.laneFlags (s : State) (f : Nat → Nat) : Nat :=
  (List.range 32).foldl (fun a l => if s.lane l then a ||| f l else a) 0

/-- A slot without what a vector word may write: matrix registers, streams, FPCSR and generators. -/
def Machine.Slot.butLanes (v : Slot) : Slot :=
  { v with
    regs := { v.regs with
      m := []
      mbound := []
      mpoison := []
      modd := []
      streams := [] }
    csr := { v.csr with
      fpcsr := 0
      gens := [] } }

/-- A state without its slots, which physical registers its tiles use, and what came of the word. -/
def Machine.State.butTiles (s : State) : State := { s with slots := [], parts := [], cur := { s.cur with status := .done } }

/-- A stream after a word: each use as a source takes 32 positions; as the destination it takes 32 more, and its admitted
elements wait to be drained (R143, R200). -/
def streamAfter (srcs : List Nat) (dst : Option Nat) (val : Nat → Option Nat) (q : Nat) (t : Stream) : Stream :=
  let n := uses q srcs
  let t1 := { t with next := t.next + 32 * n, filled := t.filled.drop (32 * n) }
  if dst.any (fun o => isStream o && opReg o == q) then
    { t1 with
      next := t1.next + 32
      out := t1.out ++ (List.range 32).filterMap (fun l => (val l).map (fun v => (t1.next + l, BitVec.ofNat 32 v))) }
  else t1

/-- What a vector word has written when it has run (R142 to R146): the lanes of its destination, in the direction and line
that the operand names; a register that last use frees reads zero (R47); its streams have moved on; everything else of the
slot, every other slot and all memory is as before. -/
structure LanesWritten (s u : State) (srcs : List Nat) (dst : Option Nat) (x : Nat) (free : Option Nat)
    (val : Nat → Option Nat) : Prop where
  hit : ∀ o l v, dst = some o → isStream o = false → l < 32 → val l = some v →
    u.here.regs.el (opReg o) (lineEl (opDir o) (s.here.xval .v x % 32) l) = BitVec.ofNat 32 v
  miss : ∀ m e, m < 16 → e < 1024 →
    (∀ o l, dst = some o → isStream o = false → m = opReg o → l < 32 → (val l).isSome →
      e ≠ lineEl (opDir o) (s.here.xval .v x % 32) l) →
    u.here.regs.el m e = if free = some m then 0 else s.here.regs.el m e
  streams : ∀ q, mfind u.here.regs.streams q = (mfind s.here.regs.streams q).map (streamAfter srcs dst val q)
  rest : u.here.butLanes = s.here.butLanes
  others : OthersSame s u
  device : u.butTiles = s.butTiles
  memory : MemorySame s u

/-- A queued word has completed in the state u with its flags raised: it is done, or a flag's trap halts its queue (R31). -/
def finished (e : Engine) (fl : Nat) (u : State) : State :=
  if u.here.csr.fpe fl then u.engineTrap u.cur.slot e { cause := 0x12, val := e.code + fl * 256 } true
  else { u with cur := { u.cur with status := .done } }

/-- A word of the vector engine that may begin (R145) writes the lanes val, raises the flags fl and completes; rm is its
rounding mode where it draws for every lane, else 0. -/
def LaneWord (i : Instr) (s : State) (srcs : List Nat) (dst : Option Nat) (x : Nat) (free : Option Nat) (rm : Nat)
    (val : Nat → Option Nat) (fl : Nat) : Prop :=
  LaneReady s srcs dst x → Completes i s (fun t => ∃ u, t = finished .v fl u ∧ LanesWritten s u srcs dst x free val
    ∧ u.here.csr.fpcsr = s.here.csr.fpcsr ||| fl
    ∧ ∀ c, u.here.csr.gen c = if c = 1 then s.laneGen rm else s.here.csr.gen c)

/-- A word whose admitted lanes are each a function of the lanes of its sources, with their flags. -/
def MapsLanes (i : Instr) (s : State) (srcs : List Nat) (d x l rm : Nat) (f : Nat → Nat × Nat) : Prop :=
  LaneWord i s srcs (some d) x (freed l (srcs.headD 0)) rm (fun n => if s.lane n then some (f n).1 else none)
    (s.laneFlags (fun n => (f n).2))

/-- A slot without its predicates. -/
def Machine.Slot.butPreds (v : Slot) : Slot := { v with regs := { v.regs with p := [] } }

/-- The operands of a word of the vector engine that reads or writes lanes: sources in reading order, destination, index
register. -/
def vectorOperands : Instr → Option (List Nat × Option Nat × Nat)
  | .vadd d a b x _ | .vsub d a b x _ | .vmul d a b x _ | .vdiv d a b x _ | .vmin d a b x _ | .vmax d a b x _
  | .viadd d a b x _ | .visub d a b x _ | .vimul d a b x _ | .vimin d a b x _ | .vimax d a b x _
  | .vnmin d a b x _ | .vnmax d a b x _ | .viadds d a b x _ | .vnadds d a b x _ | .vand d a b x _
  | .vor d a b x _ | .vxor d a b x _ | .vsll d a b x _ | .vsrl d a b x _ | .vsra d a b x _ | .vpack d a b x _
  | .vperm d a b x _ => some ([a, b], some d, x)
  | .vfma d a b x _ | .vfms d a b x _ => some ([a, b, d], some d, x)
  | .vabs d a x _ | .vneg d a x _ | .vrcpa d a x _ | .vrsqa d a x _ | .vexp2a d a x _ | .vlog2a d a x _
  | .vnot d a x _ | .vcvtF32F16 d a x _ | .vcvtF32Bf16 d a x _ | .vcvtF32E4m3 d a x _ | .vcvtF32E5m2 d a x _
  | .vmov d a x _ | .vredAddF32 d a x _ | .vredMaxF32 d a x _ | .vredMinF32 d a x _ | .vredAddI32 d a x _
  | .vscanAddF32 d a x _ | .vscanAddI32 d a x _ => some ([a], some d, x)
  | .vunpk d a _ _ x _ | .vcvtF16F32 d a _ _ x _ | .vcvtBf16F32 d a _ _ x _ | .vcvtE4m3F32 d a _ _ x _
  | .vcvtE5m2F32 d a _ _ x _ => some ([a], some d, x)
  | .vcvtI32F32 d a _ x _ | .vcvtN32F32 d a _ x _ | .vcvtF32I32 d a _ x _ | .vcvtF32N32 d a _ x _ => some ([a], some d, x)
  | .vcmpEqF32 _ a b x | .vcmpNeF32 _ a b x | .vcmpLtF32 _ a b x | .vcmpLeF32 _ a b x | .vcmpEqI32 _ a b x
  | .vcmpLtI32 _ a b x | .vcmpLeI32 _ a b x | .vcmpLtN32 _ a b x | .vcmpLeN32 _ a b x => some ([a, b], none, x)
  | .vbcst d _ x => some ([], some d, x)
  | .vidx d x => some ([], some d, x)
  | .vld d _ _ x => some ([], some d, x)
  | .vgth d _ b x => some ([b], some d, x)
  | .vst _ a _ x _ => some ([a], none, x)
  | .vsct _ a b x _ => some ([a, b], none, x)
  | _ => none

/-- The scratchpad addresses that the admitted lanes of a load or store reach, in lane order (R159): bits [1:0] ignored. -/
def Machine.State.laneSpots (s : State) (f : Nat → Int) : List (Option Nat) :=
  (List.range 32).map (fun n => if s.lane n then some ((f n % 2 ^ 64).toNat / 4 * 4) else none)

/-- Physical address of a local address of the executing slot. -/
def Machine.State.localSpot (s : State) (a : Nat) : Nat := s.window s.cur.slot.tileId + a

/-- Every admitted lane's word lies in regions that the slot holds and that are resident, and is clean (R160). -/
def Machine.State.SpotsReady (s : State) (as : List (Option Nat)) : Prop :=
  s.badLane s.cur.slot as = none ∧ s.lanesResident s.cur.slot as = true ∧ s.here.csr.armed 1 2 = false

/-! ## Words of the matrix engine -/

/-- Nothing stops a matrix word that reads spans of local bytes and the elements used of accumulator n: the slot holds the
bytes and they are resident, no error or poison is in them or in those elements, and no injection waits for them. -/
structure MatrixReady (s : State) (n : Nat) (spans : List (Nat × Nat)) (used : Nat → Bool) : Prop where
  held : s.spansHeld s.cur.slot spans = true
  resident : s.spansResident s.cur.slot spans = true
  clean : ∀ x ∈ spans, s.Clean (s.localSpot x.1) (x.2 - x.1)
  sound : ∀ e, e < 16384 → used e = true → (s.acc s.cur.slot n).elBad e = false
  quiet : s.here.csr.armed 1 2 = false ∧ s.here.csr.armed 0 2 = false

/-- A queued word has completed, and what it left alone: memory, every scalar register, every other slot. -/
def QueuedDone (s t : State) : Prop := t.cur.status = .done ∧ MemorySame s t ∧ ScalarsBut s t 64 ∧ OthersSame s t

/-- A queued word waits at the head of its queue: no slot and no byte of memory changes. -/
def StaysQueued (i : Instr) (s : State) : Prop :=
  Completes i s (fun t => t.cur.status = .stalled ∧ t.slots = s.slots ∧ t.mem = s.mem)

/-- A queued word halts the matrix queue with FMTERR, and the tile that it names becomes invalid (R185). -/
def MatrixFault (i : Instr) (s : State) (n sub tid : Nat) : Prop :=
  exec i s = .next ((s.setAcc s.cur.slot n { s.acc s.cur.slot n with valid := false }).engineTrap s.cur.slot .m
    { cause := 0x0B, val := 2 + tid * 2 ^ 16 + sub * 2 ^ 32, sub := sub, tid := tid })

/-- From the state u, a word of a queue issues one command of its slot (R192): it is in flight, with a number of its own,
and the word has completed; P says what it is. -/
def IssuesFrom (u : State) (i : Instr) (s : State) (P : Cmd → Prop) : Prop :=
  Completes i s (fun t => t.cur.status = .done ∧ MemorySame u t ∧ ScalarsBut u t 64 ∧ OthersSame u t
    ∧ t.nextCmd = u.nextCmd + 1
    ∧ ∃ c, t.cmds = u.cmds ++ [c] ∧ c.id = u.nextCmd ∧ c.slot = u.cur.slot ∧ c.started = u.now ∧ P c)

/-- The same from the state in which the word executes. -/
abbrev IssuesCommand (i : Instr) (s : State) (P : Cmd → Prop) : Prop := IssuesFrom s i s P

/-! ## Words of the copy engine -/

/-- The index row of a gather or scatter (R199), as the engine reads it. -/
def Machine.State.indexRow (s : State) (p : CopyPlan) : List Nat :=
  if p.kind.indexed then
    (List.range (indexCount p.kind p.S p.T p.r p.d)).map (fun i =>
      s.viewNum (.eng s.cur.slot .x) s.cur.entry.view s.cur.entry.own (Config.pick s.fresh (p.S.idx + 4 * i))
        (s.localPhys s.cur.slot (p.S.idx + 4 * i)) 4)
  else []

/-- The bytes of that row. -/
def Machine.CopyPlan.row (p : CopyPlan) : List (Nat × Nat) :=
  if p.kind.indexed then [(p.S.idx, p.S.idx + 4 * indexCount p.kind p.S p.T p.r p.d)] else []

/-- A copying command passes every check of R188 to R203 and R212 and waits for nothing (R192): its formats, shapes,
windows, records, index row, barrier object, rights and classes are as the rules ask, all of its places are held, and no
error or poison lies in the index row. -/
structure CopyReady (s : State) (p : CopyPlan) (idx : List Nat) : Prop where
  plan : p = s.copyPlan s.cur.slot p.kind p.S p.T p.r p.d idx p.ui
  format : formatBad p.kind p.S p.T p.r p.d = false
  shape : shapeBad p.kind p.S p.T p.r p.d = false
  shadow : s.shadowAgrees s.cur.slot p.r = true ∧ s.shadowAgrees s.cur.slot p.d = true
  window : (inGangWindow p.r.base = true → p.kind = .get) ∧ (inGangWindow p.d.base = true → p.kind.toRemote = true)
  remote : (p.kind = .get → s.remoteBase s.cur.slot p.r = true)
    ∧ (p.kind.toRemote = true → s.remoteBase s.cur.slot p.d = true)
  own : p.kind = .bcst → inGangWindow p.d.base = true ∧ ∃ k, s.here.task = some k ∧ memberOf p.d.base = k.member
  op : p.kind = .red → p.S.op < 3
  index : idx = s.indexRow p ∧ (p.kind.indexed = true → p.S.idx % 4 = 0
      ∧ s.spanHeld s.cur.slot p.S.idx (4 * indexCount p.kind p.S p.T p.r p.d) = true)
    ∧ ∀ i ∈ idx, i < if p.kind = .gth then p.r.e1 else p.d.e1
  barrier : p.T.barv = true → p.T.baddr % 16 = 0 ∧ s.spanHeld s.cur.slot p.T.baddr 16 = true
  places : ∀ x ∈ p.srcSpots ++ p.dstSpots, (∀ a, x.2 ≠ .outlease a) ∧ x.2 ≠ .badClass ∧ (∀ n, x.2 ≠ .bad n)
  classes : p.kind ≠ .cls → (p.dst.zip p.dstScale).findSome? (fun x => classCross (p.sources x.1 x.2)) = none
  resident : s.wantSpots (p.srcSpots ++ p.dstSpots) = none ∧ s.spansResident s.cur.slot p.row = true
  room : s.copyOverlap s.cur.slot (p.row.map (fun x => (s.localPhys s.cur.slot x.1, x.2 - x.1))
    ++ (p.srcSpots ++ p.dstSpots).flatMap (fun x => x.2.span x.1)) = false
  clean : s.settleSpans s.cur.slot 3 p.row = s ∧ s.settleSpots s.cur.slot p.srcSpots = s
    ∧ s.badSpan s.cur.slot p.row = none

/-- The records of a copying command's windows (R120, R269): u is the state after both have been looked up. The limits of
R192 leave room, and the region of its barrier object is not spilled (R320). -/
def CopyRecords (s u : State) (p : CopyPlan) : Prop :=
  let a := s.lookup s.cur.slot (.eng s.cur.slot .x) 3 p.S.tid
  let b := a.1.lookup s.cur.slot (.eng s.cur.slot .x) 3 p.T.tid
  p.S = SrcWindow.of s.cur.entry.cap1.toNat ∧ p.T = DstWindow.of s.cur.entry.cap2.toNat
    ∧ s.copyFull s.cur.slot = false ∧ s.barrierAway s.cur.slot p.T = false ∧ a.2 = some p.r ∧ b.2 = some p.d ∧ u = b.1

/-- The draw of element n under .sr, in destination order from generator 3 (R25, R196). -/
def Machine.State.copyDraw (s : State) (rm n : Nat) : Nat := if rm = 4 then drawNth (n + 1) (s.here.csr.gen 3) else 0

/-- The pattern of source element n, and whether it carries poison, as the engine reads it. -/
def Machine.State.copied (s : State) (p : CopyPlan) (n : Nat) : Got :=
  s.readCell s.cur.slot p.r.fmt (p.src.getD n [])

/-- Its scale byte. -/
def Machine.State.copiedScale (s : State) (p : CopyPlan) (n : Nat) : Got :=
  s.readCell s.cur.slot p.r.fmt (p.srcScale.getD n [])

/-- The command writes a pattern, with its poison, to an element (R192, R197, R203), in one write also where it lies in two
bytes (R292). A draw belongs to a write that rounds. -/
def Writes (c : Cmd) (d : Record) (v : Put) (cell : List (Part_ × Spot)) : Prop :=
  (∀ m ∈ elementMoves d v cell, ∃ e, (v.op.isSome → e = v.draw) ∧ { m with draw := e } ∈ c.moves)
    ∧ ∀ m ∈ elementRegMoves d v cell, ∃ e, (v.op.isSome → e = v.draw) ∧ { m with draw := e } ∈ c.regMoves

/-- Whether a place of a destination is one that its member does not hold (R260). -/
def Machine.CopyPlan.gone (p : CopyPlan) (t : Nat) : Bool := anyLost (p.dst.getD t [] ++ p.dstScale.getD t []).flatten

/-- What a copying command writes when it is in flight (R196, R197, R260): element n of every destination that is there
receives val n, scale byte n receives scale n, nothing else is written, and STAT tells poison (POIS and FAIL) and a
destination that is gone (FAIL). -/
structure Copies (p : CopyPlan) (val scale : Nat → Put) (c : Cmd) : Prop where
  kind : c.engine = .x ∧ c.ui = p.ui ∧ c.bar = p.T.bar ∧ (c.ordered = true ↔ p.kind = .sct)
  elements : ∀ t n, t < p.dst.length → p.gone t = false → n < p.pairs.length →
    Writes c p.d (val n) ((p.dst.getD t []).getD n [])
  scales : ∀ t n, t < p.dst.length → p.gone t = false → n < (p.dstScale.getD t []).length →
    Writes c p.d (scale n) ((p.dstScale.getD t []).getD n [])
  only : ∀ m ∈ c.moves, ∃ cell ∈ p.dst.flatten ++ p.dstScale.flatten, ∃ v, ∃ x ∈ elementMoves p.d v cell, ∃ e,
    m = { x with draw := e }
  tainted : bitOf c.stat 0 = true ↔ (∃ n, n < p.pairs.length ∧ (val n).poison = true)
    ∨ ∃ n, n < p.srcScale.length ∧ (scale n).poison = true
  failed : bitOf c.stat 1 = true ↔ bitOf c.stat 0 = true ∨ ∃ t, t < p.dst.length ∧ p.gone t = true
  stat : c.stat < 4

/-! ## Words of the distribution unit -/

/-- Element l of the line that a word of the distribution unit reads (R142, R217); skip is the line after it, or the next 32
positions of a stream (R224). -/
def Machine.State.pointLine (s : State) (x m : Nat) (skip : Nat) (l : Nat) : Nat :=
  ((if isStream m then s.here.readLine (s.here.xval .d x) (32 * skip) m
    else s.here.readLine (s.here.xval .d x + skip) 0 m).getD l (0, none)).1

/-- A word of the distribution unit may begin (R143) and meets no poison; second asks for the line after its line too. -/
structure PointsReady (s : State) (srcs : List Nat) (x : Nat) (second : Bool) : Prop where
  gate : s.here.gate s.cur.entry.stamp (srcs ++ if second then srcs.filter isStream else []) none = .ok
  clean : ∀ m ∈ srcs, firstBad [s.here.readLine (s.here.xval .d x) 0 m] = none ∧ (second = true →
    firstBad [if isStream m then s.here.readLine (s.here.xval .d x) 32 m else s.here.readLine (s.here.xval .d x + 1) 0 m] = none)
  quiet : s.here.csr.armed 2 2 = false

/-- A slot without what a word of the distribution unit may write. -/
def Machine.Slot.butPoints (v : Slot) : Slot :=
  { v.butLanes with
    regs := { v.butLanes.regs with
      d := []
      frameCounter := 0 } }

/-- The frame counter after a fresh frame (R215). -/
def nextFrame (n : Nat) : Nat := if n % 65536 = 65535 then 1 else n % 65536 + 1

/-- What a word of the distribution unit has written when it has run (R215, R219 to R228): the points of register d and its
tag; a fresh frame moves the counter on; its streams have moved on; every other register and all memory is as before. -/
structure PointsWritten (s u : State) (srcs : List Nat) (d : Nat) (fresh : Bool) (pts : Nat → Nat → Point) (tag : Nat) :
    Prop where
  points : ∀ l j, l < 32 → j < 8 → (u.dist s.cur.slot d).point l j = ((pts l j).1 % 2 ^ 32, (pts l j).2 % 2 ^ 32)
  tag : (u.dist s.cur.slot d).tag.toNat = tag % 2 ^ 32
  kept : ∀ n, n ≠ d → u.dist s.cur.slot n = s.dist s.cur.slot n
  frames : u.here.regs.frameCounter = if fresh then nextFrame s.here.regs.frameCounter else s.here.regs.frameCounter
  elements : ∀ m e, u.here.regs.el m e = s.here.regs.el m e
  streams : ∀ q, mfind u.here.regs.streams q = (mfind s.here.regs.streams q).map (streamAfter srcs none (fun _ => none) q)
  rest : u.here.butPoints = s.here.butPoints
  others : OthersSame s u
  device : u.butTiles = s.butTiles
  memory : MemorySame s u

/-- A word of the distribution unit that may begin writes points and a tag, raises the flags fl and completes. -/
def PointWord (i : Instr) (s : State) (srcs : List Nat) (x : Nat) (second : Bool) (d : Nat) (fresh : Bool)
    (pts : Nat → Nat → Point) (tag fl : Nat) : Prop :=
  PointsReady s srcs x second → Completes i s (fun t => ∃ u, t = finished .d fl u
    ∧ PointsWritten s u (srcs ++ (if second then srcs.filter isStream else [])) d fresh pts tag
    ∧ u.here.csr.fpcsr = s.here.csr.fpcsr ||| fl ∧ ∀ c, u.here.csr.gen c = s.here.csr.gen c)

/-- The flags of all lanes together. -/
def allLanes (f : Nat → Nat) : Nat := (List.range 32).foldl (fun a l => a ||| f l) 0

/-- A word whose every lane is a function of its operands, with its flags. -/
def MapsPoints (i : Instr) (s : State) (srcs : List Nat) (x : Nat) (second : Bool) (d : Nat) (fresh : Bool)
    (f : Nat → List Point × Nat) (tag : Nat) : Prop :=
  PointWord i s srcs x second d fresh (fun l j => (f l).1.getD j (0, 0)) tag (allLanes (fun l => (f l).2))

/-- A lane of pairs that is not condensed (R225). -/
def plainLane (ps : List Pair) : List Point × Nat := let r := laneOf ps false; (r.1, r.2 ||| pairFlags ps false)

/-- The 33 segments of an image from address a on, each held by the slot and resident (R160, R218). -/
def Machine.State.imageReady (s : State) (a : Nat) : Prop :=
  a % 64 = 0 ∧ (∀ i, i < 33 → s.spanHeld s.cur.slot (a + 64 * i) 64 = true) ∧ s.resident s.cur.slot a 2112 = true

end Sys2Proof
end

