-- ==== Sys2Proof/Certificates/Slice0/Obligations.lean ====
section
/-!
DEFINITION. The statements for the provers, one definition each.
-/

open Sys2Proof Sys2Proof.Machine

/-- R80, R39, R55: each word of the table writes s[rd] as the table gives, wrapping modulo 2^64, and changes nothing
else. R81: products, quotients and remainders; a division by zero gives all ones and the dividend, and none of them
traps. -/
def Obligations.IntegerWordsWriteResult : Prop :=
  (∀ (s : State) (d a b : Fin 64),
    let x := s.sreg a
    let y := s.sreg b
    let k := y.toNat % 64
    let gives (i : Instr) (v : Word) : Prop := WritesScalar i s d v
    let encoded (op : Nat) (i : Instr) : Prop := ∀ n : Fin 16,
      s.check (op * 2 ^ 22 + d.val * 2 ^ 16 + a.val * 2 ^ 10 + b.val * 2 ^ 4 + n.val) none = if n = 0 then .ok i else .trap 0x01
    gives (.add d a b) (BitVec.ofNat 64 (x.toNat + y.toNat))
    ∧ gives (.sub d a b) (BitVec.ofInt 64 ((x.toNat : Int) - y.toNat))
    ∧ gives (.and d a b) (x &&& y)
    ∧ gives (.or d a b) (x ||| y)
    ∧ gives (.xor d a b) (x ^^^ y)
    ∧ gives (.sll d a b) (BitVec.ofNat 64 (x.toNat * 2 ^ k))
    ∧ gives (.srl d a b) (BitVec.ofNat 64 (x.toNat / 2 ^ k))
    ∧ gives (.sra d a b) (BitVec.ofInt 64 (x.toInt / 2 ^ k))
    ∧ gives (.slt d a b) (if x.toInt < y.toInt then 1 else 0)
    ∧ gives (.sltu d a b) (if x.toNat < y.toNat then 1 else 0)
    ∧ gives (.min d a b) (BitVec.ofInt 64 (min x.toInt y.toInt))
    ∧ gives (.max d a b) (BitVec.ofInt 64 (max x.toInt y.toInt))
    ∧ gives (.minu d a b) (BitVec.ofNat 64 (min x.toNat y.toNat))
    ∧ gives (.maxu d a b) (BitVec.ofNat 64 (max x.toNat y.toNat))
    ∧ gives (.sel d a b) (if s.sreg d = 0 then y else x)
    ∧ encoded 0x1 (.add d a b) ∧ encoded 0x2 (.sub d a b) ∧ encoded 0x3 (.and d a b) ∧ encoded 0x4 (.or d a b)
    ∧ encoded 0x5 (.xor d a b) ∧ encoded 0x6 (.sll d a b) ∧ encoded 0x7 (.srl d a b) ∧ encoded 0x8 (.sra d a b)
    ∧ encoded 0x9 (.slt d a b) ∧ encoded 0xa (.sltu d a b) ∧ encoded 0xb (.min d a b) ∧ encoded 0xc (.max d a b)
    ∧ encoded 0xd (.minu d a b) ∧ encoded 0xe (.maxu d a b) ∧ encoded 0xf (.sel d a b))
  ∧ (∀ (s : State) (d a b : Fin 64),
    let x := s.sreg a
    let y := s.sreg b
    let gives (i : Instr) (v : Word) : Prop := WritesScalar i s d v
    let encoded (op : Nat) (i : Instr) : Prop := ∀ n : Fin 16,
      s.check (op * 2 ^ 22 + d.val * 2 ^ 16 + a.val * 2 ^ 10 + b.val * 2 ^ 4 + n.val) none = if n = 0 then .ok i else .trap 0x01
    gives (.mul d a b) (BitVec.ofNat 64 (x.toNat * y.toNat))
    ∧ gives (.mulh d a b) (BitVec.ofInt 64 (x.toInt * y.toInt / 2 ^ 64))
    ∧ gives (.mulhu d a b) (BitVec.ofNat 64 (x.toNat * y.toNat / 2 ^ 64))
    ∧ gives (.div d a b) (if y = 0 then BitVec.ofInt 64 (-1) else BitVec.ofInt 64 (x.toInt.tdiv y.toInt))
    ∧ gives (.rem d a b) (if y = 0 then x else BitVec.ofInt 64 (x.toInt.tmod y.toInt))
    ∧ gives (.divu d a b) (if y = 0 then BitVec.ofInt 64 (-1) else BitVec.ofNat 64 (x.toNat / y.toNat))
    ∧ gives (.remu d a b) (if y = 0 then x else BitVec.ofNat 64 (x.toNat % y.toNat))
    ∧ encoded 0x10 (.mul d a b) ∧ encoded 0x11 (.mulh d a b) ∧ encoded 0x12 (.mulhu d a b) ∧ encoded 0x13 (.div d a b)
    ∧ encoded 0x14 (.divu d a b) ∧ encoded 0x15 (.rem d a b) ∧ encoded 0x16 (.remu d a b))

/-- R82: counts of bits, and extensions from the width that fn gives. The counts are stated by what they mean: CLZ
answers n where the n highest bits are 0 and the next one, if there is one, is 1. R83, R84: the immediate forms, with
imm sign-extended from its 10 or 16 bits, or with a prefix from 39 or 45. -/
def Obligations.UnaryAndImmediateWordsWriteResult : Prop :=
  (∀ (s : State) (d a : Fin 64) (w : Fin 16),
    let x := s.sreg a
    (∃ n, n ≤ 64 ∧ WritesScalar (.clz d a) s d (BitVec.ofNat 64 n) ∧ (∀ i, i < n → x.getMsbD i = false)
        ∧ (n < 64 → x.getMsbD n = true))
    ∧ (∃ n, n ≤ 64 ∧ WritesScalar (.ctz d a) s d (BitVec.ofNat 64 n) ∧ (∀ i, i < n → x.getLsbD i = false)
        ∧ (n < 64 → x.getLsbD n = true))
    ∧ WritesScalar (.popc d a) s d
        (BitVec.ofNat 64 ((List.range 64).filter (fun i => x.getLsbD i)).length)
    ∧ (w.val < 3 →
        WritesScalar (.sext d a w) s d ((x.truncate (8 * 2 ^ w.val)).signExtend 64)
        ∧ WritesScalar (.zext d a w) s d ((x.truncate (8 * 2 ^ w.val)).zeroExtend 64))
    ∧ (∀ b : Fin 64,
        let check (op : Nat) := s.check (op * 2 ^ 22 + d.val * 2 ^ 16 + a.val * 2 ^ 10 + b.val * 2 ^ 4 + w.val) none
        let bare (op : Nat) (i : Instr) : Prop := check op = if b = 0 ∧ w = 0 then .ok i else .trap 0x01
        let wide (op : Nat) (i : Instr) : Prop := check op = if b = 0 ∧ w.val < 3 then .ok i else .trap 0x01
        bare 0x18 (.clz d a) ∧ bare 0x19 (.ctz d a) ∧ bare 0x1A (.popc d a)
        ∧ wide 0x1B (.sext d a w) ∧ wide 0x1C (.zext d a w)))
  ∧ (∀ (s : State) (d a : Fin 64) (i : Fin 1024) (j : Fin 65536) (pre : Option Payload),
    let x := s.sreg a
    let m : Int := match pre with
      | none => if i.val < 512 then (i.val : Int) else (i.val : Int) - 1024
      | some p => let u := p.val * 1024 + i.val; if u < 2 ^ 38 then (u : Int) else (u : Int) - 2 ^ 39
    let y := BitVec.ofInt 64 m
    let n : Int := match pre with
      | none => if j.val < 32768 then (j.val : Int) else (j.val : Int) - 65536
      | some p => let u := p.val * 65536 + j.val; if u < 2 ^ 44 then (u : Int) else (u : Int) - 2 ^ 45
    let gives (i : Instr) (v : Word) : Prop := WritesScalar i s d v
    gives (.addi d a i pre) (BitVec.ofInt 64 (x.toInt + m))
    ∧ gives (.andi d a i pre) (x &&& y)
    ∧ gives (.ori d a i pre) (x ||| y)
    ∧ gives (.xori d a i pre) (x ^^^ y)
    ∧ gives (.slti d a i pre) (if x.toInt < m then 1 else 0)
    ∧ gives (.sltiu d a i pre) (if x.toNat < y.toNat then 1 else 0)
    ∧ (extU pre 1024 i < 64 →
        gives (.slli d a i pre) (BitVec.ofNat 64 (x.toNat * 2 ^ extU pre 1024 i))
        ∧ gives (.srli d a i pre) (BitVec.ofNat 64 (x.toNat / 2 ^ extU pre 1024 i))
        ∧ gives (.srai d a i pre) (BitVec.ofInt 64 (x.toInt / 2 ^ extU pre 1024 i)))
    ∧ gives (.movi d j pre) (BitVec.ofInt 64 n)
    ∧ gives (.movs d j) (BitVec.ofNat 64 ((s.sreg d).toNat * 65536 + j.val))
    ∧ (let check (w : Nat) := s.check w (pre.map (·.val))
       let short (op : Nat) (f : Instr) : Prop := check (op * 2 ^ 22 + d.val * 2 ^ 16 + a.val * 2 ^ 10 + i.val) = .ok f
       let shift (op : Nat) (f : Instr) : Prop := check (op * 2 ^ 22 + d.val * 2 ^ 16 + a.val * 2 ^ 10 + i.val)
         = if extU pre 1024 i < 64 then .ok f else .trap 0x01
       short 0x20 (.addi d a i pre) ∧ short 0x21 (.andi d a i pre) ∧ short 0x22 (.ori d a i pre) ∧ short 0x23 (.xori d a i pre)
       ∧ shift 0x24 (.slli d a i pre) ∧ shift 0x25 (.srli d a i pre) ∧ shift 0x26 (.srai d a i pre)
       ∧ short 0x27 (.slti d a i pre) ∧ short 0x28 (.sltiu d a i pre)
       ∧ check (0x29 * 2 ^ 22 + d.val * 2 ^ 16 + j.val) = .ok (.movi d j pre)
       ∧ check (0x2A * 2 ^ 22 + d.val * 2 ^ 16 + j.val) = if pre = none then .ok (.movs d j) else .trap 0x01))

/-- R85 to R90: the FP32 words, with one rounding, one draw of generator 0 under .sr, and flags into FPCSR or an FPE
trap. FCVT is stated kind by kind as R88's table gives it, and what FloatToInt gives of a NaN, an infinity and an
integer as R29 does. The model's choice (log entry 31, DEDUCED): a word that traps FPE has advanced its generator
under .sr. -/
def Obligations.Fp32WordsRoundOnceAndFlag : Prop :=
  ∀ (s : State) (d a b : Fin 64) (m : Fin 8) (c : Fin 16) (k : Fin 64) (e : Fin 2),
    let x := s.fp a
    let y := s.fp b
    let z := s.fp d
    let rounded (v : Ex) : Nat × Nat := v.round FP32 m true (s.coreDraw m)
    FloatResult (.fadd d a b m) s d m (rounded (addFl m x y))
    ∧ FloatResult (.fsub d a b m) s d m (rounded (addFl m x y.negate))
    ∧ FloatResult (.fmul d a b m) s d m (rounded (mulFl x y))
    ∧ FloatResult (.fdiv d a b m) s d m (rounded (divFl x y))
    ∧ FloatResult (.fsqrt d a m) s d m (rounded (sqrtFl x))
    ∧ FloatResult (.fma d a b m) s d m (rounded (fmaFl m x y z))
    ∧ FloatResult (.fmin d a b) s d 0 (minMaxFl false x y).rne32
    ∧ FloatResult (.fmax d a b) s d 0 (minMaxFl true x y).rne32
    ∧ FloatResult (.fcmp d a b c) s d 0
        (if (match c.val with
          | 0 => x.eq y
          | 1 => !x.eq y
          | 2 => x.lt y
          | 3 => !(x.isNaN || y.isNaN) && !y.lt x
          | _ => x.isNaN || y.isNaN) then 1 else 0,
         if c.val = 2 ∨ c.val = 3 then (if x.isNaN || y.isNaN then fNV else 0)
         else (if x.isSig || y.isSig then fNV else 0))
    ∧ (let v := s.sreg a
       let w := BitVec.truncate 32 v
       let whole (i : Int) : Nat × Nat := roundTo FP32 m true (s.coreDraw m) (Fl.ofInt i) 1
       let int (n : Nat) (signed : Bool) : Nat × Nat := floatToInt x n signed m (s.coreDraw m)
       let narrow (F : Fmt) : Nat × Nat := (Ex.of x (sigFlag [x])).round F m (e.val == 1) (s.coreDraw m)
       let wide (F : Fmt) : Nat × Nat := (let u := decodeFl F (v.toNat % 2 ^ 16); (Ex.of u (sigFlag [u])).round FP32 0 true 0)
       FloatResult (.fcvt d a k e m) s d m (match k.val with
         | 0 => whole v.toInt
         | 1 => whole v.toNat
         | 2 => int 64 true
         | 3 => int 64 false
         | 4 => (((BitVec.ofNat 32 (int 32 true).1).signExtend 64).toNat, (int 32 true).2)
         | 5 => int 32 false
         | 6 => whole w.toInt
         | 7 => whole w.toNat
         | 8 => narrow FP16
         | 9 => narrow BF16
         | 10 => wide FP16
         | _ => wide BF16)
       ∧ ∀ n signed, n = 32 ∨ n = 64 →
           let lo : Int := if signed then -2 ^ (n - 1) else 0
           let hi : Int := if signed then 2 ^ (n - 1) - 1 else 2 ^ n - 1
           let pat (i : Int) : Nat := (i % 2 ^ n).toNat
           (x.isNaN = true → int n signed = (0, fNV))
           ∧ (∀ neg, x = .inf neg → int n signed = (pat (if neg then lo else hi), fNV))
           ∧ ∀ neg p (q : Nat), x = .fin neg p q → let i : Int := (if neg then -1 else 1) * (p * 2 ^ q)
               int n signed = if i < lo then (pat lo, fNV) else if hi < i then (pat hi, fNV) else (pat i, 0))
    ∧ (let p := (s.sreg a).toNat
       let sign := bitOf p 31
       let exp := field p 23 8
       let frac := field p 0 23
       WritesScalar (.fclass d a) s d (BitVec.ofNat 64 (2 ^ (
         if exp = 255 then (if frac = 0 then (if sign then 0 else 7) else if frac < 2 ^ 22 then 8 else 9)
         else if exp = 0 then (if frac = 0 then (if sign then 3 else 4) else (if sign then 2 else 5))
         else (if sign then 1 else 6)))))

/-- R91, R92: branches and jumps go to PC + 4 × imm, JALR to its sum, which must be a multiple of 4. -/
def Obligations.BranchesAndJumps : Prop :=
  ∀ (s : State) (d a b : Fin 64) (o : Fin 1024) (j : Fin 4194304) (pre : Option Payload),
    let x := s.sreg a
    let y := s.sreg b
    let goes (i : Instr) (c : Prop) : Prop :=
      (c → JumpsTo i s (s.pc + BitVec.ofInt 64 (4 * extS pre 10 o))) ∧ (¬c → JumpsTo i s s.nextPc)
    goes (.beq a b o pre) (x = y)
    ∧ goes (.bne a b o pre) (x ≠ y)
    ∧ goes (.blt a b o pre) (x.toInt < y.toInt)
    ∧ goes (.bge a b o pre) (y.toInt ≤ x.toInt)
    ∧ goes (.bltu a b o pre) (x.toNat < y.toNat)
    ∧ goes (.bgeu a b o pre) (y.toNat ≤ x.toNat)
    ∧ JumpsTo (.j j pre) s (s.pc + BitVec.ofInt 64 (4 * extS pre 22 j))
    ∧ Completes (.jal j pre) s (fun t =>
        t.sreg 63 = s.nextPc ∧ t.pc = s.pc + BitVec.ofInt 64 (4 * extS pre 22 j) ∧ OnlyScalar s t 63)
    ∧ (let g := x + BitVec.ofInt 64 (extS pre 10 o)
       (g.toNat % 4 = 0 → Completes (.jalr d a o pre) s (fun t =>
          t.sreg d = written d s.nextPc ∧ t.pc = g ∧ OnlyScalar s t d))
       ∧ (g.toNat % 4 ≠ 0 → Traps (.jalr d a o pre) s 0x06 g.toNat))
    ∧ (let check (w : Nat) := s.check w (pre.map (·.val))
       let two (op : Nat) (i : Instr) : Prop := check (op * 2 ^ 22 + a.val * 2 ^ 16 + b.val * 2 ^ 10 + o.val) = .ok i
       two 0x40 (.beq a b o pre) ∧ two 0x41 (.bne a b o pre) ∧ two 0x42 (.blt a b o pre) ∧ two 0x43 (.bge a b o pre)
       ∧ two 0x44 (.bltu a b o pre) ∧ two 0x45 (.bgeu a b o pre) ∧ check (0x46 * 2 ^ 22 + j.val) = .ok (.j j pre)
       ∧ check (0x47 * 2 ^ 22 + j.val) = .ok (.jal j pre)
       ∧ check (0x48 * 2 ^ 22 + d.val * 2 ^ 16 + a.val * 2 ^ 10 + o.val) = .ok (.jalr d a o pre))

/-- R94: the checks of a handle access in their order; the first that fails traps. The handler area is R70's. On a
shadow page the access goes to the backing that SEL names, as the slot sees it (R275, R276). The model's choices: an
access to the peer aperture, which R423 forbids, traps OUTLEASE (log entry 92), and one to an address that holds
nothing, which R257 and R411 say no valid translation gives, stops with the fault hole. -/
def Obligations.HandleAccessChecksInOrder : Prop :=
  ∀ (s : State) (d b : Fin 64) (h t : Fin 16),
    let hd := s.here.readH h
    let off := (s.sreg b).toNat
    let n := typeSize t
    let va := (hd.va + off) % 2 ^ 64
    let fits := hd.valid = true ∧ off % n = 0 ∧ off + n ≤ pageBytes hd.size
    (hd.valid = false → Traps (.ld d h b t) s 0x05 h ∧ Traps (.st d h b t) s 0x05 h)
    ∧ (hd.valid = true → off % n ≠ 0 → Traps (.ld d h b t) s 0x06 va ∧ Traps (.st d h b t) s 0x06 va)
    ∧ (hd.valid = true → off % n = 0 → pageBytes hd.size < off + n →
        Traps (.ld d h b t) s 0x04 va ∧ Traps (.st d h b t) s 0x04 va)
    ∧ (fits → hd.r = false → hd.bank = false → Traps (.ld d h b t) s 0x04 va)
    ∧ (fits → hd.w = false → hd.bank = false → Traps (.st d h b t) s 0x04 va)
    ∧ (fits → inHandlerArea va = true → s.here.level = false →
        ((hd.r = true ∨ hd.bank = true) → Traps (.ld d h b t) s 0x04 va)
        ∧ ((hd.w = true ∨ hd.bank = true) → Traps (.st d h b t) s 0x04 va))
    ∧ (fits → (inHandlerArea va = false ∨ s.here.level = true) →
        let sel := s.selFor (.core s.cur.slot) (hd.sh - 1)
        let pa := hd.frame + (if hd.sh = 0 then 0 else sel * pageBytes hd.size) + off
        let there := isPeer pa = false ∧ s.physOk pa = true
        let hole := isPeer pa = false ∧ s.physOk pa = false
        ((hd.r = true ∨ hd.bank = true) → (there → s.access h off n 0 = .ok pa va)
          ∧ (isPeer pa = true → Traps (.ld d h b t) s 0x04 va) ∧ (hole → exec (.ld d h b t) s = .fault (.hole pa)))
        ∧ ((hd.w = true ∨ hd.bank = true) → (there → s.access h off n 1 = .ok pa va)
          ∧ (isPeer pa = true → Traps (.st d h b t) s 0x04 va) ∧ (hole → exec (.st d h b t) s = .fault (.hole pa)))
        ∧ ((∀ p ∈ s.pubs, (hd.sh - 1) ∈ p.leaves → s.pubSeen (.core s.cur.slot) p = true) →
            sel = (Memory.read s.mem (hd.sh - 1)).toNat / 64 % 2))

/-- R93, R95, R97: LD writes the element extended by its type; ST stores the low bytes of s[rd] and no others. R323,
R325: LD first finds the errors in the bytes that it reads (State.settle); poison among them counts one detected event
and in classes P and D traps POISON, while in class U the word goes on with the bytes as they are. R96, R97: LDL and
STL check alignment, then that the slot holds the region, and then load or store in scratchpad; on a region that was
spilled they wait. LDL finds errors and consumes poison as LD does, with LOCAL set in TRAPVAL (R323, R325). -/
def Obligations.LoadsAndStores : Prop :=
  (∀ (s : State) (d b : Fin 64) (h t : Fin 16) (a va : Nat),
    let off := (s.sreg b).toNat
    let n := typeSize t
    (s.access h off n 0 = .ok a va → s.Clean a n →
      WritesScalar (.ld d h b t) s d (extend t (s.readNum (.core s.cur.slot) a n)))
    ∧ (s.access h off n 0 = .ok a va →
        let u := s.settle s.cur.slot 0 a n
        let c := u.coneEvent s.cur.slot 1 0
        let goesOn (w : State) : Prop := Completes (.ld d h b t) s (fun t' =>
          t'.sreg d = written d (extend t (u.readNum (.core s.cur.slot) a n)) ∧ t'.pc = s.nextPc ∧ OnlyScalar w t' d)
        (u.poisonedIn a n = false → goesOn u)
        ∧ (u.poisonedIn a n = true → s.kclass s.cur.slot = 2 → goesOn c)
        ∧ (u.poisonedIn a n = true → s.kclass s.cur.slot ≠ 2 → exec (.ld d h b t) s = .next (c.trapHere 0x07 (va % 2 ^ 57))))
    ∧ (s.access h off n 1 = .ok a va →
      Completes (.st d h b t) s (fun t => t.pc = s.nextPc ∧ OnlyStore s t a (toBytes n (s.sreg d).toNat) 64)))
  ∧ (∀ (s : State) (d a : Fin 64) (t : Fin 8) (i : Fin 128) (pre : Option Payload),
    let sl := s.cur.slot
    let n := typeSize t
    let la := (s.sreg a + BitVec.ofInt 64 (extS pre 7 i * (n : Int))).toNat
    let p := s.window sl.tileId + la
    (la % n ≠ 0 → Traps (.ldl d a t i pre) s 0x06 la ∧ Traps (.stl d a t i pre) s 0x06 la)
    ∧ (la % n = 0 → s.spanHeld sl la n = false → Traps (.ldl d a t i pre) s 0x04 la ∧ Traps (.stl d a t i pre) s 0x04 la)
    ∧ (la % n = 0 → s.spanHeld sl la n = true → s.here.wait = none → s.resident sl la n = true →
        (s.Clean p n → s.here.csr.armed 1 2 = false →
          WritesScalar (.ldl d a t i pre) s d (extend t (s.readNum (.core sl) p n)))
        ∧ Completes (.stl d a t i pre) s (fun t' =>
            t'.pc = s.nextPc ∧ OnlyStore s t' p (toBytes n (s.sreg d).toNat) 64)
        ∧ (s.here.csr.armed 1 2 = false →
            let u := s.settle sl 0 p n
            let c := u.coneEvent sl 1 0
            let goesOn (w : State) : Prop := Completes (.ldl d a t i pre) s (fun t' =>
              t'.sreg d = written d (extend t (u.readNum (.core sl) p n)) ∧ t'.pc = s.nextPc ∧ OnlyScalar w t' d)
            (u.poisonedIn p n = false → goesOn u)
            ∧ (u.poisonedIn p n = true → s.kclass sl = 2 → goesOn c)
            ∧ (u.poisonedIn p n = true → s.kclass sl ≠ 2 →
                exec (.ldl d a t i pre) s = .next (c.awake.trapHere 0x07 (la % 2 ^ 57 + 2 ^ 60)))))
    ∧ (la % n = 0 → s.spanHeld sl la n = true → s.resident sl la n = false →
        Waits (.ldl d a t i pre) s (.ldl d la t) ∧ Waits (.stl d a t i pre) s (.stl d la t)))

/-- R98, R99: LDF waits for the tag and then reads; STF stores, sets the tag, and lets what waited for the future be
ready. R100, R101: each atomic, as one access of 8 bytes; an ACAS whose compare fails, or whose new value is the old
one, does not write; a bank page traps BANKX. -/
def Obligations.FullEmptyWordsAndAtomics : Prop :=
  (∀ (s : State) (d b : Fin 64) (h : Fin 16) (a va : Nat),
    let sl := s.cur.slot
    let off := (s.sreg b).toNat
    let s0 := s.flagged 16
    let bank := (s.here.readH h).bank
    (s.access h off 8 0 = .ok a va →
      (bank = true → exec (.ldf d h b) s = .next (s.awake.trapHere 0x0D va))
      ∧ (bank = false → s.full a = false → Waits (.ldf d h b) s (.ldf d h off))
      ∧ (bank = false → s.full a = true → s.Clean a 8 → s.here.wait = none →
          WritesScalar (.ldf d h b) s d (BitVec.ofNat 64 (s.readNum (.core sl) a 8))))
    ∧ (s0.access h off 8 1 = .ok a va →
      (bank = true → exec (.stf d h b) s = .next (s0.trapHere 0x0D va))
      ∧ (bank = false → Completes (.stf d h b) s (fun t => ∃ u : State, t = (u.settleReady sl.part).advance ∧
          (∀ x, u.full x = (decide (x / 8 = a / 8) || s0.full x)) ∧
          OnlyStore s0 { u with tags := s0.tags } a (toBytes 8 (s.sreg d).toNat) 64))))
  ∧ (∀ (s : State) (d b : Fin 64) (h c : Fin 16) (a va : Nat),
    let s0 := s.flagged 8
    let v := s.sreg d
    let bank := (s.here.readH h).bank
    let each (P : Instr → (Word → Option Word) → Prop) : Prop :=
      P (.aadd d h b c) (fun o => some (BitVec.ofNat 64 (o.toNat + v.toNat)))
      ∧ P (.aand d h b c) (fun o => some (o &&& v))
      ∧ P (.aor d h b c) (fun o => some (o ||| v))
      ∧ P (.axor d h b c) (fun o => some (o ^^^ v))
      ∧ P (.amin d h b c) (fun o => some (BitVec.ofInt 64 (min o.toInt v.toInt)))
      ∧ P (.amax d h b c) (fun o => some (BitVec.ofInt 64 (max o.toInt v.toInt)))
      ∧ P (.aswp d h b c) (fun _ => some v)
      ∧ P (.acas d h b c) (fun o => if o = v ∧ s.sreg (d + 1) ≠ o then some (s.sreg (d + 1)) else none)
    s0.access h (s.sreg b).toNat 8 2 = .ok a va →
      (bank = true → each (fun i _ => exec i s = .next (s0.trapHere 0x0D va)))
      ∧ (bank = false → s0.Clean a 8 → each (fun i f => AtomicResult i s d a f)))

/-- R103, R104, R41: the CSR words; one to a CSR that queued words read waits until the slot's engines are idle; the
trap registers and ERRINJ may be touched at kernel level only. R8, R41: what each CSR reads after it has been written:
a write sets the fields that may be written, clears W1C fields by ones, and leaves the rest, and a read-only CSR keeps
its value. UISTAT field by field (R245), and ERRINJ (R335): the fields as written, ARM where the injection that is
named can be armed and does not fire at once. R105, R106: PRD and VREAD wait for the words that could still change
what they read, and then read it. -/
def Obligations.CsrWordsAndInterlockedReads : Prop :=
  (∀ (s : State) (d a : Fin 64) (c : Fin 1024) (pre : Option Payload),
    let sl := s.cur.slot
    let n := extU pre 1024 c
    let x := s.sreg a
    let old := BitVec.ofNat 64 (s.csrRead sl n)
    let w := s.csrWrite sl n x.toNat
    let hidden := (n = 0x050 ∨ n = 0x051 ∨ n = 0x052 ∨ n = 0x060) ∧ s.here.level = false
    let waits := (n = 0x000 ∨ n = 0x001 ∨ n = 0x002 ∨ n = 0x003 ∨ n = 0x030 ∨ n = 0x031) ∧ s.enginesIdle sl = false
    (hidden → Traps (.csrr d c pre) s 0x03 s.encoding ∧ Traps (.csrw a c pre) s 0x03 s.encoding
      ∧ Traps (.csrx d a c pre) s 0x03 s.encoding)
    ∧ (¬hidden → WritesScalar (.csrr d c pre) s d old)
    ∧ (¬hidden → waits → Waits (.csrw a c pre) s (.csr 0 n x false) ∧ Waits (.csrx d a c pre) s (.csr d n x true))
    ∧ (¬hidden → ¬waits → s.here.wait = none →
        Completes (.csrw a c pre) s (fun t => t.pc = s.nextPc ∧ OnlyPc w t)
        ∧ Completes (.csrx d a c pre) s (fun t =>
            t.sreg d = written d old ∧ t.pc = s.nextPc ∧ OnlyScalar w t d)))
  ∧ (∀ (s : State) (sl : SlotId) (v : Nat), v < 2 ^ 64 →
    let r (n : Nat) : Nat := (s.csrWrite sl n v).csrRead sl n
    let c := (s.slot sl).csr
    let k := (s.slot sl).level
    (∀ i, i < 64 → bitOf (r 0x000) i =
        (if i < 7 then bitOf c.fpcsr i && !bitOf v i else if (8 ≤ i ∧ i ≤ 12) ∨ i = 14 then bitOf v i else false))
    ∧ r 0x001 = v % 2 ^ 32 ∧ r 0x002 = v % 2 ^ 32 ∧ r 0x003 = v % 2 ^ 32
    ∧ (∀ n, n ∈ [0x010, 0x011, 0x012, 0x013, 0x020, 0x021, 0x032, 0x042, 0x070, 0x071] →
        s.csrWrite sl n v = s)
    ∧ r 0x030 = (if k then v % 2 ^ 16 else c.cone) ∧ r 0x031 = (if k then v % 2 ^ 4 else c.conecfg)
    ∧ r 0x040 = v / 4 * 4 % 2 ^ 57
    ∧ (∀ i, i < 64 → bitOf (r 0x041) i =
        (if i < 16 then bitOf v i
         else match i with
           | 16 => c.topo && !bitOf v 16
           | 17 => c.ovf && !bitOf v 17
           | 18 => c.en
           | 19 => c.inh
           | _ => false))
    ∧ (let kind := field v 3 2
       let trig := field v 12 2
       let allowed := kind ≠ 3 ∧ trig ≠ 3 ∧ (trig = 1 → kind = 0) ∧ field v 6 6 ≤ (if kind = 0 then 39 else 31)
         ∧ (kind = 0 → field v 32 2 < (((s.slot sl).task).map (·.reqa)).getD 0) ∧ (kind = 1 → s.localHeld sl (field v 32 22) = true)
       let fires := allowed ∧ bitOf v 0 = true ∧ kind = 1 ∧ trig = 0 ∧ s.resident sl (field v 32 22 / 4 * 4) 4 = true
       ∀ i, i < 64 → (bitOf (r 0x060) i = true ↔
         if k = false then bitOf c.errinj i = true
         else if i = 0 then bitOf v 0 = true ∧ allowed ∧ ¬fires
         else if i = 14 then fires ∨ (bitOf c.errinj 14 = true ∧ bitOf v 14 = false)
         else bitOf v i = true ∧ i ≠ 5 ∧ (i < 14 ∨ (32 ≤ i ∧ i < 54))))
    ∧ r 0x050 = (if k then v % 2 ^ 8 else c.trapcause)
    ∧ r 0x051 = (if k then v else c.trappc.toNat) ∧ r 0x052 = (if k then v else c.trapval.toNat)
    ∧ ((s.part? sl.part).isSome → k = true → r 0x022 = v % 2 ^ 32))
  ∧ (∀ (s : State) (d b : Fin 64) (m e : Fin 16) (p : Fin 1024) (pre : Option Payload),
    let n := extU pre 1024 p
    let el := (s.sreg b).toNat % 1024
    let r := s.here.regs
    let x := if r.mbound.contains m.val then mget r.m (1024 * m.val + el) 0 else 0#32
    s.here.wait = none →
      (n ≠ 0 → s.here.queued [.v] (fun y => writesPredicate y.word n) = true → Waits (.prd d p pre) s (.prd d n))
      ∧ (n = 0 ∨ s.here.queued [.v] (fun y => writesPredicate y.word n) = false →
          WritesScalar (.prd d p pre) s d ((s.here.readP n).zeroExtend 64))
      ∧ (s.here.queued [.v, .d] (fun _ => true) = true →
          Waits (.vread d m b e) s (.vread d m (s.sreg b).toNat e))
      ∧ (s.here.queued [.v, .d] (fun _ => true) = false → s.here.csr.armed 2 2 = false →
          Completes (.vread d m b e) s (fun t =>
            t.sreg d = written d (if e.val = 1 then x.signExtend 64 else x.zeroExtend 64) ∧ t.pc = s.nextPc ∧
            ScalarsBut s t d ∧ t.here.butScalars = s.here.butScalars ∧ OthersSame s t ∧ MemorySame s t ∧
            (r.elBad m el = true → d.val ≠ 0 → s.here.sIndex d ∈ t.here.regs.spoison))))

/-- R68, R69, R71: a trap enters the kernel-level handler with TRAPCAUSE, TRAPPC and TRAPVAL written, or ends the
task: OUTLEASE always, consumed poison and CKFAIL in a class P kernel by replay where it is permitted, and any trap at
kernel level or with no handler loaded. That POISON and CKFAIL in class P are answered by a replay at either level is
deduced (log entry 80), and so is the setting aside of open bundles at a handler’s entry (log entry 91). -/
def Obligations.TrapEntryAndItsFates : Prop :=
  ∀ (s : State) (cause val : Nat),
    let t := s.trapHere cause val
    let x : Trap := { cause := cause, val := val, word := s.firstWord, addr := val }
    let replayed := (cause = 0x07 ∨ cause = 0x0A) ∧ s.kclass s.cur.slot = 0 ∧ s.mayReplay s.cur.slot = true
    (s.handled cause → EntersHandler s t cause s.pc val)
    ∧ (¬s.handled cause → ¬replayed → BeginsToFail s t x)
    ∧ (replayed → t.here.ending = some .replay ∧ t.here.regs = s.here.regs ∧ t.mem = s.mem)

/-- R139: TRAP and SYSC save the address after the word; ERET goes back to TRAPPC at user level; HALT fails the task;
at user level ERET and HALT trap PRIV (R66). That open bundles are set aside when the handler is entered and stand
open again after ERET is deduced (log entry 91). -/
def Obligations.SoftwareTrapsAndReturn : Prop :=
  ∀ (s : State) (i : Fin 65536) (pre : Option Payload),
    let v := extU pre 65536 i
    let user := s.here.level = false
    let x (c : Nat) : Trap :=
      { cause := c, val := v, word := (s.fetchOne s.cur.slot s.nextPc.toNat).getD 0, addr := v }
    (s.handled 0x11 → Completes (.trap i pre) s (fun t => EntersHandler s t 0x11 s.nextPc v)
      ∧ Completes (.sysc i pre) s (fun t => EntersHandler s t 0x10 s.nextPc v))
    ∧ (¬s.handled 0x11 → Completes (.trap i pre) s (fun t => BeginsToFail s t (x 0x11))
      ∧ Completes (.sysc i pre) s (fun t => BeginsToFail s t (x 0x10)))
    ∧ (user → Traps .eret s 0x03 s.encoding ∧ Traps .halt s 0x03 s.encoding)
    ∧ (¬user → s.here.csr.trappc.toNat % 4 = 0 →
        Completes .eret s (fun t => t.pc = s.here.csr.trappc ∧ t.here.butPc = { s.here.backOut with level := false }.butPc
          ∧ OthersSame s t ∧ t.butSlots = s.butSlots))
    ∧ (¬user → s.here.csr.trappc.toNat % 4 ≠ 0 → Traps .eret s 0x06 s.here.csr.trappc.toNat)
    ∧ (¬user → Completes .halt s (fun t => BeginsToFail s t { cause := 0x0E, val := 0, word := s.cur.entry.word }))

/-- R140, R141, R135: delivery of user-level interrupts, events and YIELD. R112, R113, R115: WAITC, WAITF and WAITB
end at once where their condition holds, with the wait status of R111, and wait otherwise. R116: BARA counts the
member's arrival in its generation and answers that generation; a generation completes when every member has arrived
beyond it; BARW ends when its generation has completed. That UIRET brings back the open bundles that were set aside at
the handler’s entry is deduced (log entry 91). -/
def Obligations.EventsWaitsAndBarriers : Prop :=
  (∀ (s : State) (e g : Fin 2) (pre : Option Payload),
    let sl := s.cur.slot
    let back := mget s.here.regs.s 127 0
    (¬s.here.csr.inh → Traps .uiret s 0x01 s.encoding)
    ∧ (s.here.csr.inh → back.toNat % 4 ≠ 0 → Traps .uiret s 0x06 back.toNat)
    ∧ (s.here.csr.inh → back.toNat % 4 = 0 → Completes .uiret s (fun t => t.pc = back
        ∧ t.here.butPc = { s.here.backOut with csr := { s.here.csr with inh := false } }.butPc
        ∧ OthersSame s t ∧ t.butSlots = s.butSlots))
    ∧ ChangesSlot (.uien e pre) s (fun v => { v with csr := { v.csr with en := e.val == 1 } })
    ∧ JumpsTo .nop s s.nextPc
    ∧ Completes (.sev g) s (fun t => t.pc = s.nextPc ∧ t.butSlots = s.butSlots ∧ ∀ x,
        let hit := if g.val = 0 then x.part = sl.part ∧ x.tile = sl.tile ∧ x.slot < 8 ∧ (s.slot x).task.isSome
          else ∃ gg, s.gangOf sl = some gg ∧ ∃ m, (m, x) ∈ gg.members
        (hit → (t.slot x).butPc = { s.slot x with csr := { (s.slot x).csr with evlatch := true } }.butPc)
        ∧ (¬hit → (t.slot x).butPc = (s.slot x).butPc))
    ∧ (s.here.csr.evlatch = true ∨ s.here.resumed = true →
        ChangesSlot .wfe s (fun v => { v with wait := none, csr := { v.csr with evlatch := false } }))
    ∧ (s.here.csr.evlatch = false → s.here.resumed = false → Waits .wfe s .wfe)
    ∧ Completes .yield s (fun t => t.pc = s.nextPc ∧ t.here.butPc = { s.here with yield := t.here.yield }.butPc
        ∧ OthersSame s t ∧ t.butSlots = s.butSlots
        ∧ ∀ e, e ∈ t.here.yield ↔ e ≠ .b ∧ ∃ c, (s.kiln sl.tileId e).grant = some c ∧ c.slot = sl.slot))
  ∧ (∀ (s : State) (d sel c : Fin 64) (clr ph : Fin 2) (t : Fin 16) (pre : Option Payload),
    let sl := s.cur.slot
    let n := extU pre 64 c
    let k := s.counter sl sel
    let f := mget s.here.ready n 0
    let status := if bitOf f 0 then 0 else if bitOf f 1 then 2 ^ 63 + 2 ^ 62 else 2 ^ 63
    let noVis (u : State) : State := { u with vis := [] }
    let o := (s.sreg sel).toNat
    let p := s.window sl.tileId + o
    let b := s.readNum (.core sl) p 16
    let held := s.spanHeld sl o 16 = true
    (k ≤ n → EndsWith (.waitc d sel c t pre) s d (BitVec.ofNat 64 k) id noVis)
    ∧ (n < k → Waits (.waitc d sel c t pre) s (.waitc d sel n t))
    ∧ (f ≠ 0 → EndsWith (.waitf d clr c t pre) s d (BitVec.ofNat 64 status)
        (fun v => { v with ready := [], flagCmds := [] }) noVis
        ∧ Completes (.waitf d clr c t pre) s (fun t => ∀ x,
            mget t.here.ready x 0 = if clr.val = 1 ∧ x = n then 0 else mget s.here.ready x 0))
    ∧ (f = 0 → Waits (.waitf d clr c t pre) s (.waitf d n t (clr.val == 1)))
    ∧ (o % 16 ≠ 0 → exec (.waitb d sel clr ph t pre) s = .next (s.awake.trapHere 0x06 o))
    ∧ (o % 16 = 0 → ¬held → exec (.waitb d sel clr ph t pre) s = .next (s.awake.trapHere 0x04 o))
    ∧ (o % 16 = 0 → held → s.resident sl o 16 = true → s.here.csr.armed 1 2 = false → s.Clean p 16 →
        (b % 2 = ph.val → Completes (.waitb d sel clr ph t pre) s (fun t =>
            t.sreg d = written d (BitVec.ofNat 64 (field b 64 32)) ∧ t.pc = s.nextPc ∧ t.here.wait = none ∧ ScalarsBut s t d
            ∧ t.here.csr = s.here.csr ∧ MemoryBut s t (p + 8) (4 * clr.val)
            ∧ (clr.val = 1 → ∀ i, i < 4 → Memory.read t.mem (p + 8 + i) = 0)))
        ∧ (b % 2 ≠ ph.val → Waits (.waitb d sel clr ph t pre) s (.waitb d o t ph (clr.val == 1)))))
  ∧ (∀ (s : State) (d sel : Fin 64) (n : Fin 4) (t : Fin 16) (pre : Option Payload) (k : Task) (g : Gang),
    s.here.task = some k → mfind s.gangs k.gang = some g →
      let a := mget g.arrived (n.val, k.member) 0
      let c := mget g.completed n.val 0
      let gen := (s.sreg sel).toNat
      (c < a → Waits (.bara d n) s (.bara d n))
      ∧ (a ≤ c → Completes (.bara d n) s (fun t => t.sreg d = written d (BitVec.ofNat 64 a) ∧ t.pc = s.nextPc ∧
          t.here.wait = none ∧ ScalarsBut s t d ∧ MemorySame s t ∧ ∃ g2, mfind t.gangs k.gang = some g2 ∧
          g2.members = g.members ∧ g2.size = g.size ∧
          (∀ x, mget g2.arrived x 0 = if x = (n.val, k.member) then a + 1 else mget g.arrived x 0) ∧
          (∀ m, mget g2.completed m 0 = if m = n.val ∧ ∀ i, i < g.size → c < mget g2.arrived (n.val, i) 0 then c + 1
            else mget g.completed m 0)))
      ∧ (gen < c → EndsWith (.barw d sel n t pre) s d 0 id id)
      ∧ (c ≤ gen → Waits (.barw d sel n t pre) s (.barw d gen n t)))

/-- R117, R119, R120: FENCE completes at once; its kind m orders the writes of the commands that the slot has seen
complete and the publishes of its scope, its kind i the slot's later fetches; BFENCE waits for bank commands; TRSYNC
waits for queued words that name records, drops the slot's cached ones and orders its later reads of them. R122, R123,
R70: XLATE writes the handle of the page with the range's rights and the offset in it, or ends the task with OUTLEASE;
in the handler area it reaches the image and the slot's kernel page at kernel level; HINV makes handles invalid. -/
def Obligations.FencesRecordsAndHandles : Prop :=
  (∀ (s : State) (k : Fin 4) (sc h : Fin 16) (a : Fin 64) (pre : Option Payload),
    let sl := s.cur.slot
    let hd := s.here.readH h
    let naming := s.here.queued [.x, .m] (fun x => namesRecord x.word)
    let tid := (s.sreg a).toNat % 4096
    let later := (s.here.lastOrd, s.seqT + 1)
    let drops (t : State) (p : CachedRecord → Prop) : Prop := t.pc = s.nextPc ∧ t.here.wait = none ∧ MemorySame s t ∧
      ScalarsBut s t 64 ∧ ∀ (tl : TileId) (x : CachedRecord), x ∈ (t.tile tl).cache ↔ x ∈ (s.tile tl).cache ∧
        ¬(tl = sl.tileId ∧ x.slot = sl.slot ∧ p x)
    (wellFormed (.fence k sc pre) = true → ∃ t, exec (.fence k sc pre) s = .next t ∧ t.pc = s.nextPc ∧ OthersSame s t
        ∧ MemorySame s t ∧ t.butOrder = s.butOrder
        ∧ t.here.butPc = { s.here with
            hostSeen := if k.val % 2 = 1 ∧ (sc.val = 7 ∨ sc.val = 9) then max s.here.hostSeen s.here.hostObs
              else s.here.hostSeen
            fetch := if 2 ≤ k.val then ⟨sc, sl, s.seqT + k.val % 2, s.gangTiles sl⟩ ::
                s.here.fetch.filter (fun x => x.scope != sc) else s.here.fetch }.butPc
        ∧ (k.val % 2 = 0 → t.vis = s.vis ∧ t.pubs = s.pubs ∧ t.hist = s.hist)
        ∧ (k.val % 2 = 1 → FencedM s t sc))
    ∧ (s.bankBusy sl none = false → EndsWith .bfence s 0 0 id id)
    ∧ (s.bankBusy sl none = true → Waits .bfence s (.bfence none))
    ∧ (hd.valid = false → exec (.bfenceHandle h) s = .next (s.awake.trapHere 0x05 h))
    ∧ (hd.valid = true → s.bankBusy sl (some hd) = false → EndsWith (.bfenceHandle h) s 0 0 id id)
    ∧ (hd.valid = true → s.bankBusy sl (some hd) = true → Waits (.bfenceHandle h) s (.bfence (some h)))
    ∧ (naming = true → Waits (.trsync a pre) s (.trsync (some tid)) ∧ Waits (.trsyncAll pre) s (.trsync none))
    ∧ (naming = false → (∃ t, exec (.trsync a pre) s = .next t ∧ drops t (fun x => x.tid = tid)
          ∧ mfind t.here.recFloor tid = some later)
        ∧ ∃ t, exec (.trsyncAll pre) s = .next t ∧ drops t (fun _ => True) ∧ t.here.recAll = later))
  ∧ (∀ (s : State) (h : Fin 16) (a b : Fin 64),
    let sl := s.cur.slot
    let va := (s.sreg a).toNat
    let off := va - 0x1FFFFFFB0000000
    let base := va / 0x10000 * 0x10000
    let area := inHandlerArea va = true
    let image := off < 0x800000 ∧ s.hasHandler sl.part = true
    let own := 0x800000 ≤ off ∧ off / 0x10000 = 0x100 + identity sl
    let same (t : State) : Prop := t.here.csr = s.here.csr ∧ OthersSame s t ∧ t.butSlots = s.butSlots
    let gives (x : Handle) : Prop := ∃ t, exec (.xlate h a b) s = .next t
      ∧ t.sreg b = written b (BitVec.ofNat 64 (va - x.va)) ∧ t.pc = s.nextPc ∧ t.here.readH h = x
      ∧ (∀ n, n < 16 → n ≠ h → t.here.readH n = s.here.readH n) ∧ ScalarsBut s t b ∧ same t
    (∀ p k, ¬area → s.pageOf sl va = some p → s.kernelOf sl = some k →
      let rights := k.rangeRights p
      gives ⟨p.va, p.frame, pageCode p.size, bitOf rights 0, bitOf rights 1, bitOf rights 2, p.cls, true,
        p.shadow⟩)
    ∧ (¬area → s.pageOf sl va = none → Traps (.xlate h a b) s 0x04 va)
    ∧ (area → s.here.level = false → Traps (.xlate h a b) s 0x04 va)
    ∧ (area → s.here.level = true → image → gives ⟨base, handlerPhys sl.part base, 0, true, false, false, 0, true, 0⟩)
    ∧ (area → s.here.level = true → own → gives ⟨base, handlerPhys sl.part base, 0, true, true, false, 0, true, 0⟩)
    ∧ (area → s.here.level = true → ¬image → ¬own → Traps (.xlate h a b) s 0x04 va)
    ∧ (∃ t, exec (.hinv h) s = .next t ∧ t.pc = s.nextPc ∧ (∀ n, n < 16 → t.here.readH n =
          if n = h then { s.here.readH n with valid := false } else s.here.readH n) ∧ ScalarsBut s t 64 ∧ same t)
    ∧ ∃ t, exec .hinvAll s = .next t ∧ t.pc = s.nextPc
        ∧ (∀ n, n < 16 → t.here.readH n = { s.here.readH n with valid := false }) ∧ ScalarsBut s t 64 ∧ same t)

/-- R121, R276: PUB of a shadow record waits until the slot's writes to the buffer have completed, then inverts SEL of
every page of it in one step and writes 0; of any other record it acts as FENCE.m of its scope and writes 1; an ill-
formed record traps FMTERR. -/
def Obligations.PublishInvertsEveryLeaf : Prop :=
  ∀ (s : State) (d a : Fin 64) (sc : Fin 16), wellFormed (.pub d a sc) = true →
    let sl := s.cur.slot
    let tid := (s.sreg a).toNat % 4096
    let l := s.lookup sl (.core sl) 0 tid
    let ps (r : Record) := l.1.bufferPages sl r
    let bad := exec (.pub d a sc) s = .next ((l.1.modSlot sl (fun v => { v with wait := none })).trapHere 0x0B
      (tid * 2 ^ 16 + 2 ^ 32))
    (l.2 = none → bad)
    ∧ ∀ r, l.2 = some r →
        (l.1.publishable sl r = false → bad)
        ∧ (l.1.publishable sl r = true → r.shadow = false → ∃ t, exec (.pub d a sc) s = .next t
            ∧ t.sreg d = written d 1 ∧ t.pc = s.nextPc ∧ t.here.wait = none ∧ t.mem = l.1.mem ∧ ScalarsBut s t d
            ∧ OthersSame l.1 t ∧ FencedM l.1 t sc)
        ∧ (l.1.publishable sl r = true → r.shadow = true → l.1.bufferBusy sl (ps r) = true →
            ∃ t, exec (.pub d a sc) s = .next t ∧ t.pc = s.pc ∧ t.mem = l.1.mem ∧ ScalarsBut s t 64
              ∧ t.here.wait = some ⟨.pub d tid sc, s.now, s.pc, s.nextPc, s.seqT, s.firstWord⟩)
        ∧ (l.1.publishable sl r = true → r.shadow = true → l.1.bufferBusy sl (ps r) = false →
            ((ps r).map (·.leaf)).Nodup →
            ∃ t, exec (.pub d a sc) s = .next t ∧ t.sreg d = written d 0 ∧ t.pc = s.nextPc ∧ t.here.wait = none
              ∧ ScalarsBut s t d ∧ OthersSame l.1 t ∧ t.seqT = l.1.seqT + 1
              ∧ (∃ p, t.pubs = p :: l.1.pubs ∧ p.leaves = (ps r).map (·.leaf) ∧ p.by_ = l.1.fenceHere sc sl)
              ∧ ∀ x, Memory.read t.mem x = if x ∈ (ps r).map (·.leaf) then Memory.read l.1.mem x ^^^ 0x40#8
                  else Memory.read l.1.mem x)

/-- R124, R58: KSET and XSET push one marker with the values that the registers hold now, or stall on a full queue.
R125: LOOPB opens a bundle over its participants and LOOPE closes the innermost one, with a marker for each; a bundle
that does not nest, or holds too much, or would be the fifth open loop of an engine, those open behind a handler
counted, and a LOOPE with none open trap ILLEGAL. -/
def Obligations.MarkersAndLoopBundles : Prop :=
  (∀ (s : State) (e n : Fin 8) (a b : Fin 64) (i : Fin 1024) (g : Fin 2) (l : Fin 4) (pre : Option Payload) (eng : Engine),
    Engine.ofCode e = some eng →
      let ks : EntryKind := .kset n ((s.sreg a + BitVec.ofInt 64 (extS pre 10 i)).toNat % 2 ^ 32)
      let xs : EntryKind := .xset n ((s.sreg a).toNat % 2 ^ 16) ((s.sreg b).toNat % 2 ^ 16)
        (if g.val = 1 then some l.val else none)
      (s.mayPush s.cur.slot eng = true →
        Pushes (.kset e n a i pre) s [(eng, ks)] id ∧ Pushes (.xset e n a b g l) s [(eng, xs)] id)
      ∧ (s.mayPush s.cur.slot eng = false →
        StallsOn (.kset e n a i pre) s eng ∧ StallsOn (.xset e n a b g l) s eng))
  ∧ (∀ (s : State) (e k f h j : Fin 8) (g i l : Fin 4) (pre : Option Payload),
    let v := s.here
    let ps := participants [(e.val, l.val), (j.val, i.val), (h.val, g.val), (f.val, 0)]
    let es := ps.map (·.1)
    let w := Instr.loopb e k f g h i j l pre
    let nests := match v.bundles with | [] => True | b :: _ => ∀ y ∈ es, y ∈ b.parts.map (·.1)
    let shallow := ∀ y ∈ es, ((v.bundles ++ v.outer.flatMap (·.1)).filter (fun b => (b.parts.map (·.1)).contains y)).length < 4
    let fits (xs : List Engine) := ∀ y ∈ xs, mget v.used y 0 < 32
    let blank (v : Slot) : Slot := { v with bundles := [], used := [], allBundles := [], nextBundle := 0 }
    (¬(nests ∧ shallow ∧ fits es) → Traps w s 0x01 s.encoding)
    ∧ (nests → shallow → fits es → es.Nodup → (∀ y ∈ es, s.mayPush s.cur.slot y = true) →
        Pushes w s (es.map (fun y => (y, .loopOpen k v.nextBundle))) blank
        ∧ Completes w s (fun t => t.here.bundles = ⟨v.nextBundle, ps⟩ :: v.bundles ∧ t.here.nextBundle = v.nextBundle + 1))
    ∧ (nests → shallow → fits es → (∃ y ∈ es, s.mayPush s.cur.slot y = false) → ∃ y ∈ es, StallsOn w s y)
    ∧ (v.bundles = [] → Traps .loope s 0x01 s.encoding)
    ∧ (∀ b rest, v.bundles = b :: rest →
        let cs := b.parts.map (·.1)
        (¬fits cs → Traps .loope s 0x01 s.encoding)
        ∧ (fits cs → cs.Nodup → (∀ y ∈ cs, s.mayPush s.cur.slot y = true) →
            Pushes .loope s (cs.map (fun y => (y, .loopClose b.id))) blank
            ∧ Completes .loope s (fun t => t.here.bundles = rest))
        ∧ (fits cs → (∃ y ∈ cs, s.mayPush s.cur.slot y = false) → ∃ y ∈ cs, StallsOn .loope s y)))

/-- R127, R248, R250: TSPAWN spawns a task whose block is new, marking the block; of any other block it answers 1.
R128: TDONE retires the task once nothing of it is left: each successor's DEPCNT goes down by one and stays at 0,
STATE of its own block becomes done and HOME all ones, tasks that became ready are listed, and the slot is free, with
its regions and their spilled copies. An ill-formed block counts as a failure of the kernel (R249). -/
def Obligations.SpawnAndRetire : Prop :=
  ∀ (s : State) (d b : Fin 64) (h : Fin 16) (a va : Nat) (k0 T : Task) (k : Kernel) (p : Part),
    let sl := s.cur.slot
    let u := s.flagged 32
    let bytes := u.readBytes (.core sl) a 128
    let fresh := blockNum bytes 104 4 % 8 = 0
    let ended := (∀ e, (s.here.seq e).isEmpty = true) ∧ s.counter sl 5 = 0 ∧ s.here.chain = none
    let list (w : State) : State := T.succ.foldl (fun w v => w.decDep k v) w
    (u.access h (s.sreg b).toNat 128 2 = .ok a va → u.Clean a 128 → u.here.task = some k0 → u.kernelOf sl = some k →
      (¬fresh → Completes (.tspawn d h b) s (fun t => t.sreg d = written d 1 ∧ t.pc = u.nextPc ∧ OnlyScalar u t d))
      ∧ (fresh → tcbIllFormed k va bytes = false → u.part? sl.part = some p →
          Completes (.tspawn d h b) s (fun t => t.sreg d = written d 0 ∧ t.pc = u.nextPc ∧ ∃ w : State,
            t = (w.settleReady sl.part).result d 0
            ∧ w.part? sl.part = some { p with spawned := p.spawned ++ [⟨k0.kernel, va⟩] }
            ∧ ∀ m, u.leasePhys k (va + 104) = some m →
                (∀ x, x < m ∨ m + 4 ≤ x → Memory.read w.mem x = Memory.read u.mem x)
                ∧ (Memory.read w.mem m).toNat % 8 = 1))
      ∧ (fresh → tcbIllFormed k va bytes = true →
          Completes (.tspawn d h b) s (fun t => t.sreg d = written d 0 ∧ t.pc = u.nextPc ∧
            ∀ k2, mfind u.kernels k0.kernel = some k2 →
              (mfind t.kernels k0.kernel).map (·.failed) = some (k2.failed + 1))))
    ∧ (ended → (s.here.task).isSome → (s.kernelOf sl).isSome →
        Completes .tdone s (fun t => t.here = { recSeq := s.here.recSeq } ∧ OthersSame s t
          ∧ ∀ n, n < 16 → let r : Region := mget (t.tile sl.tileId).regions n {}
              r.owner ≠ some sl.slot ∧ ∀ c ∈ r.spilled, c.slot ≠ sl.slot))
    ∧ (ended → s.here.task = some T → s.kernelOf sl = some k →
        exec .tdone s = .next ((((list s).endBlock sl 4).settleReady sl.part).releaseSlot sl))
    ∧ (∀ (w : State) (v m : Nat), w.leasePhys k (v + 96) = some m → ∀ x, Memory.read (w.decDep k v).mem x =
        if m ≤ x ∧ x < m + 4 then (toBytes 4 (w.readNum .bank m 4 - 1)).getD (x - m) 0 else Memory.read w.mem x)
    ∧ (∀ (w : State) (v m n : Nat), (w.slot sl).task = some T → w.kernelOf sl = some k → T.tcb = some v →
        w.leasePhys k (v + 104) = some m → w.leasePhys k (v + 108) = some n → (m + 4 ≤ n ∨ n + 4 ≤ m) →
        (Memory.read (w.endBlock sl 4).mem m).toNat % 8 = 4
        ∧ (∀ i, i < 4 → Memory.read (w.endBlock sl 4).mem (n + i) = 0xFF#8)
        ∧ ∀ x, (x < m ∨ m + 4 ≤ x) → (x < n ∨ n + 4 ≤ x) → Memory.read (w.endBlock sl 4).mem x = Memory.read w.mem x)
    ∧ (¬ended → Waits .tdone s .tdone)

/-- R129, R374: KLAUNCH appends the 64 bytes and then TAIL, or answers 1 where the queue is full or does not take it;
an argument on a bank page traps BANKX, and a ring whose page names a class above its frames' (R281) ends the task
with OUTLEASE. R130: RENQ pushes one entry to the member's queue and counts it; it answers 1 for a member that is not
there, and waits while the queue is full. -/
def Obligations.LaunchAndRemoteEnqueue : Prop :=
  ∀ (s : State) (d a b : Fin 64) (h : Fin 16) (q e : Fin 8) (m va : Nat) (k : Kernel) (Q : LaunchQueue) (eng : Engine)
      (g : Gang),
    let sl := s.cur.slot
    let u := s.flagged 32
    let takes := Q.en = true ∧ Q.feed = true ∧ Q.tail - Q.head ≠ 2 ^ Q.cap
    let o := (s.sreg b).toNat
    let who := (s.sreg a).toNat % 64
    let ill := (u.misclassAt k.fn (u.ctx k.fn k.ctx).ptroot (Q.record Q.tail)).isSome = true
    (u.access h o 64 0 = .ok m va → (s.here.readH h).bank = true →
      exec (.klaunch d h b q) s = .next (u.trapHere 0x0D va))
    ∧ (u.access h o 64 0 = .ok m va → (s.here.readH h).bank = false → s.kernelOf sl = some k →
        u.launchQueue k.fn k.ctx q = some Q →
      (¬takes → Completes (.klaunch d h b q) s (fun t => t.sreg d = written d 1 ∧ t.pc = u.nextPc ∧ OnlyScalar u t d))
      ∧ (takes → ill → exec (.klaunch d h b q) s
          = .next ((u.tellRefused k.part k.fn k.ctx (Q.record Q.tail)).trapHere 0x04 (Q.record Q.tail)))
      ∧ (∀ r, takes → ¬ill → u.Clean m 64 → u.ctxPhys k.fn k.ctx (Q.record Q.tail) = some r → u.here.wait = none →
          ObjectWord u (.klaunch d h b q) s d 0
            [(r, u.readBytes (.core sl) m 64), (Q.at_ + 8, toBytes 8 (Q.tail + 1))]))
    ∧ (o % 8 ≠ 0 → exec (.renq d a b e) s = .next (u.trapHere 0x06 o))
    ∧ (o % 8 = 0 → u.spanHeld sl o 8 = false → exec (.renq d a b e) s = .next (u.trapHere 0x04 o))
    ∧ (o % 8 = 0 → u.spanHeld sl o 8 = true → Engine.ofCode e = some eng → u.gangOf sl = some g →
        (mfind g.members who = none → EndsFrom u (.renq d a b e) s d 1 (fun v => { v with stall := none }) id)
        ∧ ∀ tgt, mfind g.members who = some tgt → u.here.stall = none →
            (u.queueIsFull tgt eng = true → WaitsFrom u (.renq d a b e) s (.renq d who o e))
            ∧ (u.queueIsFull tgt eng = false →
                Completes (.renq d a b e) s (fun t => t.sreg d = written d 0 ∧ t.pc = u.nextPc ∧ ScalarsBut u t d
                  ∧ ((t.slot tgt).seq eng).q = ((u.slot tgt).seq eng).q ++ [{ kind := .renq o sl, born := u.seqT }]
                  ∧ t.here.rq = u.here.rq + 1 ∧ t.butSlots = { u.butSlots with seqT := u.seqT + 1 })))

/-- R131 to R134: queues, semaphores and futures, each as one access whose address the checks of R132 gave; what such
an access reads is what memory holds there, also of writes that the slot has not come to see before. That QINIT leaves
header bytes 28 to 31 as they are is deduced (log entry 58), and when a word sees an asynchronous write that it has
not seen before is the model’s choice (log entry 6). -/
def Obligations.QueueSemaphoreAndFutureWords : Prop :=
  ∀ (s : State) (d b : Fin 64) (h c t : Fin 16) (pre : Option Payload) (a va ea ev : Nat),
    let sl := s.cur.slot
    let off := (s.sreg b).toNat
    let u8 := s.flagged 8
    let u16 := s.flagged 16
    let u32 := s.flagged 32
    let none32 := noIdentity
    let seen (u : State) (n : Nat) : State := u.showAt (.core sl) a n
    let hd (u : State) : Nat := (seen u 32).readNum (.core sl) a 32
    let head (u : State) : Nat := field (hd u) 0 64
    let tail (u : State) : Nat := field (hd u) 64 64
    let cap (u : State) : Nat := field (hd u) 128 4
    let full (u : State) : Prop := (tail u + 2 ^ 64 - head u) % 2 ^ 64 = 2 ^ cap u
    let pushed (u : State) : List (Nat × List Byte) :=
      [(ea, toBytes 8 (s.sreg d).toNat), (a, toBytes 8 (head u) ++ toBytes 8 ((tail u + 1) % 2 ^ 64))]
        ++ (if field (hd u) 160 32 = none32 then [(a + 20, toBytes 4 (identity sl))] else [])
    let popped (u : State) : List (Nat × List Byte) :=
      [(a, toBytes 8 ((head u + 1) % 2 ^ 64))]
        ++ (if field (hd u) 192 32 = none32 then [(a + 24, toBytes 4 (identity sl))] else [])
    let item (u : State) : Word := BitVec.ofNat 64 (((seen u 32).showAt (.core sl) ea 8).readNum (.core sl) ea 8)
    let sem := (seen u8 16).readNum (.core sl) a 16
    u8.here.wait = none → u32.here.wait = none →
    (u8.objectAddr sl h off 32 1 64 = .ok a va →
      ObjectWord u8 (.qinit h b c) s 0 0 [(a, toBytes 16 0 ++ toBytes 4 c ++ toBytes 4 none32 ++ toBytes 4 none32)])
    ∧ (u32.objectAddr sl h off 32 2 64 = .ok a va → u32.Clean a 32 →
        (full u32 → WaitsFrom u32 (.qpush d h b) s (.qpush d h off)
          ∧ (d.val % 2 = 0 → ObjectWord u32 (.qtryPush d h b) s (d + 1) 1 []))
        ∧ (¬full u32 → u32.access h (off + 32 + 8 * (tail u32 % 2 ^ cap u32)) 8 1 = .ok ea ev →
            ObjectWord u32 (.qpush d h b) s 0 0 (pushed u32)
            ∧ (d.val % 2 = 0 → ObjectWord u32 (.qtryPush d h b) s (d + 1) 0 (pushed u32))))
    ∧ (u8.objectAddr sl h off 32 2 64 = .ok a va → u8.Clean a 32 →
        (head u8 = tail u8 → WaitsFrom u8 (.qpop d h b) s (.qpop d h off)
          ∧ (d.val % 2 = 0 → ObjectWord u8 (.qtryPop d h b) s (d + 1) 1 []))
        ∧ (head u8 ≠ tail u8 → u8.access h (off + 32 + 8 * (head u8 % 2 ^ cap u8)) 8 0 = .ok ea ev → u8.Clean ea 8 →
            ObjectWord u8 (.qpop d h b) s d (item u8) (popped u8)
            ∧ (d.val % 2 = 0 → Completes (.qtryPop d h b) s (fun t => t.sreg d = written d (item u8)
                ∧ t.sreg (d + 1) = 0 ∧ t.pc = u8.nextPc
                ∧ ∀ x, Memory.read t.mem x
                    = Memory.read ((popped u8).foldl (fun m w => Memory.writeAll m w.1 w.2) u8.mem) x))))
    ∧ (u8.objectAddr sl h off 16 2 8 = .ok a va →
        (u8.Clean a 16 → sem % 2 ^ 64 = 0 → WaitsFrom u8 (.semw d b h t pre) s (.semw d h off t))
        ∧ (u8.Clean a 16 → sem % 2 ^ 64 ≠ 0 → ObjectWord u8 (.semw d b h t pre) s d 0
            [(a, toBytes 8 (sem % 2 ^ 64 - 1) ++ toBytes 4 (identity sl))])
        ∧ (u8.Clean a 8 → ObjectWord u8 (.semp h b) s 0 0 [(a, toBytes 8 ((seen u8 8).readNum (.core sl) a 8 + 1))]))
    ∧ (u16.objectAddr sl h off 8 2 8 = .ok a va →
        Completes (.ffill h b) s (fun t => ∃ w : State, t = (w.settleReady sl.part).advance ∧ w.mem = u16.mem
          ∧ (∀ x, w.full x = (decide (x / 8 = a / 8) || u16.full x)) ∧ w.here.regs = u16.here.regs))
    ∧ (u8.objectAddr sl h off 8 2 8 = .ok a va →
        Completes (.fclr d h b) s (fun t => t.pc = u8.nextPc ∧ ScalarsBut u8 t 64
          ∧ (∀ x, t.full x = (!decide (x / 8 = a / 8) && u8.full x))
          ∧ MemoryBut { u8 with tags := t.tags } t a 8
          ∧ ∀ i, i < 8 → Memory.read t.mem (a + i) = (toBytes 8 (if d.val = 0 then identity sl
              else (s.sreg d).toNat % 2 ^ 32)).getD i 0))

/-- R133, R303, R304, R311: TKSET answers the old tickets and sets at most 65,535; TKGET answers by its kind. R136,
R137: RALLOC gives the lowest free region, reading zero, or all ones where none can come free; RFREE releases one that
the slot holds; RPIN and RUNPIN answer 0, 1 or 2. R138, R329, R330: SEGB opens the segment and clears its totals; SEGE
waits until its words have been dispatched, then closes it where the totals agree with the record (in class U without
comparing), and traps SEGMIS with the first engine that differs where they do not, for another index, or with no
records. That a segment stays open when SEGE traps (log entry 39), that RALLOC may take a number of which the slot has
a spilled copy (log entry 51), and that TKGET gives the values at the moment of the word (log entry 55) are deduced.
-/
def Obligations.TicketRegionAndSegmentWords : Prop :=
  (∀ (s : State) (d a : Fin 64) (e : Fin 8) (k : Fin 16),
    let sl := s.cur.slot
    Completes (.tkset d a) s (fun t => t.sreg d = written d (BitVec.ofNat 64 s.here.csr.tickets) ∧ t.pc = s.nextPc
      ∧ t.here.csr = { s.here.csr with tickets := min (s.sreg a).toNat 65535 } ∧ ScalarsBut s t d ∧ OthersSame s t
      ∧ MemorySame s t
      ∧ ∀ p v tl x eng kl, mfind s.parts p = some v → mfind v.tiles tl = some x → mfind x.kilns eng = some kl →
          (t.kiln ⟨p, tl⟩ eng).stale = some (kl.stale.getD s.now))
    ∧ (k.val = 0 → WritesScalar (.tkget d e k) s d (BitVec.ofNat 64 s.here.csr.tickets))
    ∧ (k.val = 1 → (s.here.task).isSome → WritesScalar (.tkget d e k) s d (BitVec.ofNat 64
        (min (s.here.csr.tickets * s.rate 4 (s.nodeOf sl) / 2 ^ 16) (2 ^ 24 - 1))))
    ∧ ∀ eng, Engine.ofCode e = some eng →
        let kiln := s.kiln sl.tileId eng
        let own := min (mget kiln.base sl.slot 0 * kiln.factorOf sl.slot / 2 ^ 16) (2 ^ 24 - 1)
        (k.val = 2 → WritesScalar (.tkget d e k) s d (BitVec.ofNat 64 (min (own + s.loansOn sl eng) (2 ^ 24 - 1))))
        ∧ (k.val = 3 → WritesScalar (.tkget d e k) s d (BitVec.ofNat 64 (mget kiln.factor sl.slot 0x10000)))
        ∧ (k.val = 4 → WritesScalar (.tkget d e k) s d (BitVec.ofNat 64 (min (s.loansOn sl eng) (2 ^ 24 - 1)))))
  ∧ (∀ (s : State) (d : Fin 64) (c : Fin 4) (k : Fin 16) (pre : Option Payload),
    let sl := s.cur.slot
    let base (n : Nat) : Nat := s.window sl.tileId + n * 0x40000
    let reg (t : State) (n : Nat) : Region := mget (t.tile sl.tileId).regions n {}
    let frees := (List.range 16).filter (fun n => (s.region sl n).owner.isNone && !(s.region sl n).pinned
      && (s.tile sl.tileId).spilling.all (fun x => x.region != n))
    let got (n : Nat) : Prop := Completes (.ralloc d c pre) s (fun t => t.sreg d = written d (BitVec.ofNat 64 n)
      ∧ t.pc = s.nextPc ∧ ScalarsBut s t d ∧ (reg t n).owner = some sl.slot ∧ (reg t n).cls = c ∧ (reg t n).ralloc = true
      ∧ (∀ x, base n ≤ x → x < base n + 0x40000 → Memory.read t.mem x = 0)
      ∧ (∀ x, x < base n ∨ base n + 0x40000 ≤ x → Memory.read t.mem x = Memory.read s.mem x))
    let blocked := ∀ n, n < 16 → (s.region sl n).pinned = true ∨ s.holds sl n = true
    let pins := ((List.range 16).filter (fun i => (s.region sl i).pinned)).length
    (s.part? sl.part).isSome → s.here.wait = none →
      (s.cleared sl = none → (∀ n r, frees = n :: r → got n)
        ∧ (frees = [] → blocked → WritesScalar (.ralloc d c pre) s d (BitVec.ofNat 64 (2 ^ 64 - 1)))
        ∧ (frees = [] → ¬blocked → Waits (.ralloc d c pre) s (.ralloc d c)))
      ∧ (∀ n, s.cleared sl = some n → got n)
      ∧ (s.wordsDone sl = false → Waits (.rfree k pre) s (.rfree k))
      ∧ (s.wordsDone sl = true → s.holds sl k = false → JumpsTo (.rfree k pre) s s.nextPc)
      ∧ (s.wordsDone sl = true → (s.region sl k).owner = some sl.slot → Completes (.rfree k pre) s (fun t =>
          t.pc = s.nextPc ∧ t.here.wait = none ∧ (reg t k).owner = none ∧ (reg t k).pinned = false ∧ ScalarsBut s t 64))
      ∧ (s.wordsDone sl = true → s.holds sl k = true → (s.region sl k).owner ≠ some sl.slot →
          Completes (.rfree k pre) s (fun t => t.pc = s.nextPc ∧ t.here.wait = none ∧ t.holds sl k = false
            ∧ ScalarsBut s t 64 ∧ MemorySame s t))
      ∧ (s.holds sl k = true → (s.region sl k).owner ≠ some sl.slot → WritesScalar (.runpin d k pre) s d 0)
      ∧ (s.holds sl k = false → WritesScalar (.rpin d k pre) s d 2 ∧ WritesScalar (.runpin d k pre) s d 2)
      ∧ (s.holds sl k = true → (s.region sl k).owner ≠ some sl.slot → Waits (.rpin d k pre) s (.rpin d k))
      ∧ ((s.region sl k).owner = some sl.slot →
          ((s.region sl k).pinned = true → WritesScalar (.rpin d k pre) s d 0)
          ∧ ((s.region sl k).pinned = false → 12 ≤ pins → WritesScalar (.rpin d k pre) s d 1)
          ∧ ((s.region sl k).pinned = false → pins < 12 → Completes (.rpin d k pre) s (fun t => t.sreg d = written d 0
              ∧ t.pc = s.nextPc ∧ reg t k = { s.region sl k with pinned := true } ∧ ScalarsBut s t d ∧ MemorySame s t))
          ∧ Completes (.runpin d k pre) s (fun t => t.sreg d = written d 0
              ∧ t.pc = s.nextPc ∧ reg t k = { s.region sl k with pinned := false } ∧ ScalarsBut s t d ∧ MemorySame s t)))
  ∧ (∀ (s : State) (i : Fin 65536) (pre : Option Payload) (k : Kernel) (p : Page) (a : Nat),
    let sl := s.cur.slot
    let idx := extU pre 65536 i
    let c := s.here.csr
    let va := k.sigbase + 48 * idx
    let other := c.segOpen = false ∨ c.segIdx ≠ idx
    let clear (e : Nat) (b : Bool) (l : Nat) (c : Csrs) : Csrs := { c with segEng := e, segBeat := b, segLast := l }
    let closes := Completes (.sege i pre) s (fun t => t.pc = s.nextPc ∧ t.here.wait = none ∧ ScalarsBut s t 64
      ∧ t.here.csr = { clear 0 false 0 c with segOpen := false } ∧ MemorySame s t)
    let d := c.segDiff idx (s.readBytes (.core sl) a 48)
    let eng := (d.2.map (·.1)).getD 0
    let beat := (d.2.map (·.2)).getD false
    Completes (.segb i pre) s (fun t => t.pc = s.nextPc ∧ OthersSame s t ∧ t.butSlots = s.butSlots ∧ ScalarsBut s t 64
      ∧ t.here.csr = { c with segIdx := idx, segOpen := true, segCrc := [], segBeats := [] })
    ∧ (s.here.segmentTaken = false → Waits (.sege i pre) s (.sege idx))
    ∧ (s.here.segmentTaken = true → s.kclass sl = 2 →
        (¬other → closes)
        ∧ (other → exec (.sege i pre) s
            = .next ((s.modCsr sl (clear 0 false 0)).awake.trapHere 0x09 (idx % 65536 + 2 ^ 20))))
    ∧ (s.here.segmentTaken = true → s.kclass sl ≠ 2 → s.kernelOf sl = some k →
        (k.sigbase = 0 → exec (.sege i pre) s = .next (s.awake.trapHere 0x09 (idx % 65536 + 2 ^ 20)))
        ∧ (k.sigbase ≠ 0 → k.page? va = some p → grantsR (k.rangeRights p) = true → s.leasePhys k va = some a →
            s.leasePhys k (va + 47) = some (a + 47) → s.Clean a 48 →
            (¬other → d = (false, none) → closes)
            ∧ (other ∨ d ≠ (false, none) → ∃ w : State,
                exec (.sege i pre) s = .next (w.trapHere 0x09 (idx % 65536 + eng * 2 ^ 16 + (if beat then 2 ^ 19 else 0)
                  + (if other ∨ d.1 = true then 2 ^ 20 else 0)))
                ∧ w.here.csr = clear eng beat (if eng = 0 then 0 else (c.segPair eng).1) c ∧ w.mem = s.mem
                ∧ w.pc = s.pc ∧ w.cur = s.cur))))

/-- R146, R147: FP32 lane arithmetic, each lane rounded once to nearest even, flags of the admitted lanes together.
R36, R37, R148: VRCPA, VRSQA, VEXP2A and VLOG2A of special values, and of finite ones through a table entry t: the
multiple of 2^-9 that is nearest to the value at the middle of the interval, as whole-number bounds on t say. -/
def Obligations.VectorFloatLanes : Prop :=
  ∀ (s : State) (d a b : Fin 64) (x : Fin 8) (l : Fin 2),
    let v2 (k n : Nat) : Fl := decodeFl FP32 (s.src x [a, b] k n)
    let v3 (k n : Nat) : Fl := decodeFl FP32 (s.src x [a, b, d] k n)
    let v1 (n : Nat) : Fl := decodeFl FP32 (s.src x [a] 0 n)
    let w1 (n : Nat) : Nat := s.src x [a] 0 n
    let two (i : Instr) (f : Fl → Fl → Ex) : Prop :=
      MapsLanes i s [a, b] d x l 0 (fun n => (f (v2 0 n) (v2 1 n)).round FP32 0 true 0)
    let sign (i : Instr) (f : Nat → Nat) : Prop :=
      MapsLanes i s [a] d x l 0 (fun n => if (v1 n).isNaN then (0x7FC00000, if (v1 n).isSig then fNV else 0) else (f (w1 n), 0))
    two (.vadd d a b x l) (addFl 0)
    ∧ two (.vsub d a b x l) (fun p q => addFl 0 p q.negate)
    ∧ two (.vmul d a b x l) mulFl
    ∧ two (.vdiv d a b x l) divFl
    ∧ two (.vmin d a b x l) (minMaxFl false)
    ∧ two (.vmax d a b x l) (minMaxFl true)
    ∧ MapsLanes (.vfma d a b x l) s [a, b, d] d x l 0
        (fun n => (fmaFl 0 (v3 0 n) (v3 1 n) (v3 2 n)).round FP32 0 true 0)
    ∧ MapsLanes (.vfms d a b x l) s [a, b, d] d x l 0
        (fun n => (fmaFl 0 (v3 0 n).negate (v3 1 n) (v3 2 n)).round FP32 0 true 0)
    ∧ sign (.vabs d a x l) (fun w => w % 2 ^ 31)
    ∧ sign (.vneg d a x l) (fun w => w ^^^ 2 ^ 31)
    ∧ MapsLanes (.vrcpa d a x l) s [a] d x l 0 (fun n => rcpa (v1 n))
    ∧ MapsLanes (.vrsqa d a x l) s [a] d x l 0 (fun n => rsqa (v1 n))
    ∧ MapsLanes (.vexp2a d a x l) s [a] d x l 0 (fun n => exp2a (v1 n))
    ∧ MapsLanes (.vlog2a d a x l) s [a] d x l 0 (fun n => log2a (v1 n))
    ∧ (∀ sig, let n := (0x7FC00000, if sig then fNV else 0)
        rcpa (.nan sig) = n ∧ rsqa (.nan sig) = n ∧ exp2a (.nan sig) = n ∧ log2a (.nan sig) = n)
    ∧ rcpa (.inf false) = (0, 0) ∧ rcpa (.inf true) = (0x80000000, 0)
    ∧ rsqa (.inf false) = (0, 0) ∧ rsqa (.inf true) = (0x7FC00000, fNV)
    ∧ exp2a (.inf false) = (0x7F800000, 0) ∧ exp2a (.inf true) = (0, 0)
    ∧ log2a (.inf false) = (0x7F800000, 0) ∧ log2a (.inf true) = (0x7FC00000, fNV)
    ∧ (∀ neg e, let infinity := if neg then 0xFF800000 else 0x7F800000
        rcpa (.fin neg 0 e) = (infinity, fDZ) ∧ rsqa (.fin neg 0 e) = (infinity, fDZ) ∧ log2a (.fin neg 0 e) = (0xFF800000, fDZ))
    ∧ (∀ p e, 0 < p → rsqa (.fin true p e) = (0x7FC00000, fNV) ∧ log2a (.fin true p e) = (0x7FC00000, fNV))
    ∧ (∀ neg p (e : Int), 0 < p →
        let E := e + Nat.log2 p
        let j := p * 64 / 2 ^ Nat.log2 p - 64
        let c := 129 + 2 * j
        (∃ t : Nat, 2 * t * c ≤ 131072 + c ∧ 131072 ≤ 2 * t * c + c ∧ rcpa (.fin neg p e) = rne32 (.fin neg t (-9 - E)))
        ∧ (∃ t : Nat, let r := (E % 2).toNat
            0 < t ∧ (2 * t - 1) ^ 2 * c * 2 ^ r ≤ 2 ^ 27 ∧ 2 ^ 27 ≤ (2 * t + 1) ^ 2 * c * 2 ^ r
            ∧ rsqa (.fin false p e) = rne32 (.fin false t (-9 - (E - r) / 2)))
        ∧ ∃ t : Nat, 2 ^ (2 * t + 7168) ≤ 2 * c ^ 1024 ∧ c ^ 1024 ≤ 2 ^ (2 * t + 7169)
            ∧ let u := 512 * E + t
              log2a (.fin false p e) = rne32 (.fin (decide (u < 0)) u.natAbs (-9)))
    ∧ (∀ neg (p : Nat) (e : Int),
        let k : Int := (if neg then -1 else 1) * p
        let y := if 0 ≤ e + 6 then k * 2 ^ (e + 6).toNat else k / 2 ^ (-(e + 6)).toNat
        ∃ t : Nat, 0 < t ∧ (2 * t - 1) ^ 128 ≤ 2 ^ (1153 + 2 * (y % 64).toNat) ∧ 2 ^ (1153 + 2 * (y % 64).toNat) ≤ (2 * t + 1) ^ 128
          ∧ exp2a (.fin neg p e) = rne32 (.fin false (2 * t) (y / 64 - 9)))

/-- R147, R150, R151, R158: integer, logic, pack and movement lanes. -/
def Obligations.VectorIntegerAndMoveLanes : Prop :=
  ∀ (s : State) (d a b : Fin 64) (x : Fin 8) (l h g : Fin 2),
    let u (k n : Nat) : Nat := s.src x [a, b] k n
    let i (k n : Nat) : Int := toSigned 32 (u k n)
    let w (n : Nat) : Nat := s.src x [a] 0 n
    let two (j : Instr) (f : Nat → Nat) : Prop := MapsLanes j s [a, b] d x l 0 (fun n => (f n, 0))
    let wrap (v : Int) : Nat := (v % 2 ^ 32).toNat
    let half (k n : Nat) : Nat := u k n % 2 ^ 16
    let part (n : Nat) : Nat := w (16 * h.val + n / 2) / 2 ^ (16 * (n % 2)) % 2 ^ 16
    two (.viadd d a b x l) (fun n => wrap (i 0 n + i 1 n))
    ∧ two (.visub d a b x l) (fun n => wrap (i 0 n - i 1 n))
    ∧ two (.vimul d a b x l) (fun n => wrap (i 0 n * i 1 n))
    ∧ two (.vimin d a b x l) (fun n => wrap (min (i 0 n) (i 1 n)))
    ∧ two (.vimax d a b x l) (fun n => wrap (max (i 0 n) (i 1 n)))
    ∧ two (.vnmin d a b x l) (fun n => min (u 0 n) (u 1 n))
    ∧ two (.vnmax d a b x l) (fun n => max (u 0 n) (u 1 n))
    ∧ MapsLanes (.viadds d a b x l) s [a, b] d x l 0 (fun n =>
        let v := i 0 n + i 1 n
        let c := max (-2 ^ 31) (min v (2 ^ 31 - 1))
        (wrap c, if c = v then 0 else fISAT))
    ∧ MapsLanes (.vnadds d a b x l) s [a, b] d x l 0 (fun n =>
        let v := u 0 n + u 1 n
        (min v (2 ^ 32 - 1), if v < 2 ^ 32 then 0 else fISAT))
    ∧ two (.vand d a b x l) (fun n => u 0 n &&& u 1 n)
    ∧ two (.vor d a b x l) (fun n => u 0 n ||| u 1 n)
    ∧ two (.vxor d a b x l) (fun n => u 0 n ^^^ u 1 n)
    ∧ MapsLanes (.vnot d a x l) s [a] d x l 0 (fun n => (2 ^ 32 - 1 - w n, 0))
    ∧ two (.vsll d a b x l) (fun n => u 0 n * 2 ^ (u 1 n % 32) % 2 ^ 32)
    ∧ two (.vsrl d a b x l) (fun n => u 0 n / 2 ^ (u 1 n % 32))
    ∧ two (.vsra d a b x l) (fun n => wrap (i 0 n / 2 ^ (u 1 n % 32)))
    ∧ two (.vpack d a b x l) (fun n => half (n / 16) (2 * (n % 16)) + 2 ^ 16 * half (n / 16) (2 * (n % 16) + 1))
    ∧ MapsLanes (.vunpk d a g h x l) s [a] d x l 0 (fun n =>
        (if g.val = 1 ∧ 2 ^ 15 ≤ part n then part n + 2 ^ 32 - 2 ^ 16 else part n, 0))
    ∧ two (.vperm d a b x l) (fun n => u 0 (u 1 n % 32))
    ∧ MapsLanes (.vmov d a x l) s [a] d x l 0 (fun n => (w n, 0))
    ∧ MapsLanes (.vbcst d a x) s [] d x 0 0 (fun _ => (s.cur.entry.cap1.toNat % 2 ^ 32, 0))
    ∧ MapsLanes (.vidx d x) s [] d x 0 0 (fun n => (s.here.xval .v x + n, 0))

/-- R149, R28, R29: conversions, under .sr with one draw a lane from generator 1 in lane order, admitted or not. -/
def Obligations.VectorConversionLanes : Prop :=
  ∀ (s : State) (d a : Fin 64) (r : Fin 8) (e : Fin 2) (x : Fin 8) (l : Fin 2),
    let w (n : Nat) : Nat := s.src x [a] 0 n
    let v (n : Nat) : Fl := decodeFl FP32 (w n)
    let q (n : Nat) : Nat := s.laneDraw r n
    let low (F : Fmt) (n : Nat) : Fl := decodeFl F (w n % 2 ^ F.bits)
    let narrowed (i : Instr) (F : Fmt) : Prop := MapsLanes i s [a] d x l r (fun n =>
      (Ex.of (v n) (sigFlag [v n])).round F r (e.val == 1) (q n))
    let widened (i : Instr) (F : Fmt) : Prop := MapsLanes i s [a] d x l 0 (fun n =>
      (Ex.of (low F n) (sigFlag [low F n])).round FP32 0 true 0)
    narrowed (.vcvtF16F32 d a r e x l) FP16 ∧ narrowed (.vcvtBf16F32 d a r e x l) BF16
    ∧ narrowed (.vcvtE4m3F32 d a r e x l) E4M3 ∧ narrowed (.vcvtE5m2F32 d a r e x l) E5M2
    ∧ widened (.vcvtF32F16 d a x l) FP16 ∧ widened (.vcvtF32Bf16 d a x l) BF16
    ∧ widened (.vcvtF32E4m3 d a x l) E4M3 ∧ widened (.vcvtF32E5m2 d a x l) E5M2
    ∧ MapsLanes (.vcvtI32F32 d a r x l) s [a] d x l r (fun n => floatToInt (v n) 32 true r (q n))
    ∧ MapsLanes (.vcvtN32F32 d a r x l) s [a] d x l r (fun n => floatToInt (v n) 32 false r (q n))
    ∧ MapsLanes (.vcvtF32I32 d a r x l) s [a] d x l r (fun n =>
        roundTo FP32 r true (q n) (Fl.ofInt (toSigned 32 (w n))) 1)
    ∧ MapsLanes (.vcvtF32N32 d a r x l) s [a] d x l r (fun n => roundTo FP32 r true (q n) (Fl.ofInt (w n)) 1)

/-- R152, R153, R154, R144: compares write the admitted bits of a predicate; predicate logic; the guard; the mask
stack: VMPUSH completes wherever fewer than 8 entries stand on it, VMINV and VMPOP wherever one does, with FMTERR
otherwise. R156, R157, R35: reductions combine the lanes pairwise in a tree of five levels, lanes that are not
admitted giving the identity; scans add the lane 2^t below at level t. -/
def Obligations.VectorPredicatesReductionsAndScans : Prop :=
  (∀ (s : State) (d p r : Fin 128) (a b : Fin 64) (x : Fin 8) (z : Fin 2),
    let w (k n : Nat) : Nat := s.src x [a, b] k n
    let v (k n : Nat) : Fl := decodeFl FP32 (w k n)
    let i (k n : Nat) : Int := toSigned 32 (w k n)
    let nan (n : Nat) : Bool := (v 0 n).isNaN || (v 1 n).isNaN
    let sig (n : Nat) : Bool := (v 0 n).isSig || (v 1 n).isSig
    let cmp (j : Instr) (c : Nat → Bool) (fl : Nat → Nat) : Prop := LaneReady s [a, b] none x →
      let f := s.laneFlags fl
      Completes j s (fun t => ∃ u, t = finished .v f u ∧ u.here.csr.fpcsr = s.here.csr.fpcsr ||| f
        ∧ (∀ m e, m < 16 → e < 1024 → u.here.regs.el m e = s.here.regs.el m e)
        ∧ (∀ n, n < 128 → ∀ k, k < 32 → (u.here.readP n).getLsbD k =
            if n = d ∧ n ≠ 0 ∧ s.lane k then c k else (s.here.readP n).getLsbD k)
        ∧ (∀ q, mfind u.here.regs.streams q = (mfind s.here.regs.streams q).map (streamAfter [a, b] none (fun _ => none) q))
        ∧ u.here.butLanes.butPreds = s.here.butLanes.butPreds
        ∧ OthersSame s u ∧ MemorySame s u)
    let logic (j : Instr) (f : Bool → Bool → Bool) : Prop := Completes j s (fun t => t.cur.status = .done
      ∧ (∀ n, n < 128 → ∀ k, k < 32 → (t.here.readP n).getLsbD k =
          if n = d ∧ n ≠ 0 then (f ((s.here.readP p).getLsbD k) ((s.here.readP r).getLsbD k) ^^ (z.val == 1))
          else (s.here.readP n).getLsbD k)
      ∧ { t.here.regs with p := [] } = { s.here.regs with p := [] } ∧ t.here.csr = s.here.csr
      ∧ OthersSame s t ∧ MemorySame s t)
    let mask (j : Instr) (m : List W32) : Prop := Completes j s (fun t => t.cur.status = .done
      ∧ t.here = { s.here with regs := { s.here.regs with mask := m } } ∧ OthersSame s t ∧ MemorySame s t)
    let fails (j : Instr) (sub : Nat) : Prop := exec j s = .next (s.engineTrap s.cur.slot .v (fmtStream sub 0 1))
    let top := s.here.regs.mask.headD 0xFFFFFFFF#32
    let pm := if z.val = 1 then ~~~(s.here.readP p) else s.here.readP p
    (d.val < 96 →
      cmp (.vcmpEqF32 d a b x) (fun n => (v 0 n).eq (v 1 n)) (fun n => if sig n then fNV else 0)
      ∧ cmp (.vcmpNeF32 d a b x) (fun n => !(v 0 n).eq (v 1 n)) (fun n => if sig n then fNV else 0)
      ∧ cmp (.vcmpLtF32 d a b x) (fun n => (v 0 n).lt (v 1 n)) (fun n => if nan n then fNV else 0)
      ∧ cmp (.vcmpLeF32 d a b x) (fun n => !nan n && !(v 1 n).lt (v 0 n)) (fun n => if nan n then fNV else 0)
      ∧ cmp (.vcmpEqI32 d a b x) (fun n => w 0 n == w 1 n) (fun _ => 0)
      ∧ cmp (.vcmpLtI32 d a b x) (fun n => decide (i 0 n < i 1 n)) (fun _ => 0)
      ∧ cmp (.vcmpLeI32 d a b x) (fun n => decide (i 0 n ≤ i 1 n)) (fun _ => 0)
      ∧ cmp (.vcmpLtN32 d a b x) (fun n => decide (w 0 n < w 1 n)) (fun _ => 0)
      ∧ cmp (.vcmpLeN32 d a b x) (fun n => decide (w 0 n ≤ w 1 n)) (fun _ => 0)
      ∧ logic (.vpand d p r z) (· && ·) ∧ logic (.vpor d p r z) (· || ·) ∧ logic (.vpxor d p r z) (· ^^ ·)
      ∧ logic (.vpandn d p r z) (fun m n => m && !n))
    ∧ Completes (.vpsel p) s (fun t => t.cur.status = .done ∧ t.here = { s.here with regs := { s.here.regs with g := p } }
        ∧ OthersSame s t ∧ MemorySame s t)
    ∧ (s.here.regs.mask.length < 8 → ∃ t, exec (.vmpush p z) s = .next t ∧ t.cur.status = .done
        ∧ t.here = { s.here with regs := { s.here.regs with mask := (top &&& pm) :: s.here.regs.mask } }
        ∧ OthersSame s t ∧ MemorySame s t)
    ∧ (8 ≤ s.here.regs.mask.length → fails (.vmpush p z) 4)
    ∧ (s.here.regs.mask = [] → fails .vminv 5 ∧ fails .vmpop 5)
    ∧ (∀ m rest, s.here.regs.mask = m :: rest →
        mask .vminv ((rest.headD 0xFFFFFFFF#32 &&& ~~~m) :: rest) ∧ mask .vmpop rest))
  ∧ (∀ (s : State) (d a : Fin 64) (x : Fin 8) (l : Fin 2),
    let lanes (ident : Nat) : List Nat := (List.range 32).map (fun n => if s.lane n then s.src x [a] 0 n else ident)
    let red (i : Instr) (f : Nat → Nat → Nat × Nat) (ident : Nat) : Prop :=
      let r := pairwise f 5 (lanes ident)
      LaneWord i s [a] (some d) x (freed l a) 0 (fun n => some (if n = 0 then r.1 else 0)) r.2
    let level (f : Nat → Nat → Nat × Nat) (t : Nat) (c : (Nat → Nat) × Nat) : (Nat → Nat) × Nat :=
      (fun n => if 2 ^ t ≤ n then (f (c.1 (n - 2 ^ t)) (c.1 n)).1 else c.1 n,
       (List.range 32).foldl (fun fl n => fl ||| if 2 ^ t ≤ n then (f (c.1 (n - 2 ^ t)) (c.1 n)).2 else 0) c.2)
    let scanned (i : Instr) (f : Nat → Nat → Nat × Nat) (ident : Nat) : Prop :=
      let r := level f 4 (level f 3 (level f 2 (level f 1 (level f 0 (fun n => (lanes ident).getD n 0, 0)))))
      LaneWord i s [a] (some d) x (freed l a) 0 (fun n => if s.lane n then some (r.1 n) else none) r.2
    let fadd (p q : Nat) : Nat × Nat := (addFl 0 (decodeFl FP32 p) (decodeFl FP32 q)).round FP32 0 true 0
    let fsel (m : Bool) (p q : Nat) : Nat × Nat := (minMaxFl m (decodeFl FP32 p) (decodeFl FP32 q)).round FP32 0 true 0
    let iadd (p q : Nat) : Nat × Nat := ((p + q) % 2 ^ 32, 0)
    red (.vredAddF32 d a x l) fadd 0x80000000
    ∧ red (.vredMaxF32 d a x l) (fsel true) 0xFF800000
    ∧ red (.vredMinF32 d a x l) (fsel false) 0x7F800000
    ∧ red (.vredAddI32 d a x l) iadd 0
    ∧ scanned (.vscanAddF32 d a x l) fadd 0x80000000
    ∧ scanned (.vscanAddI32 d a x l) iadd 0)

/-- R159 to R161: loads and stores of lanes: the addresses, the check of every admitted lane before any access, stores
in lane order, and OUTLEASE with the lowest lane's address or a stall where a region is not there. VSCT with a write-
stream as va stores what it would with a read-stream of the elements at the stream's next 32 positions, and the stream
moves on. What elements VSCT stores of a write-stream is deduced (log entry 93). -/
def Obligations.VectorLoadsAndStores : Prop :=
  ∀ (s : State) (d a b o : Fin 64) (x : Fin 8) (l : Fin 2),
    let sl := s.cur.slot
    let base : Int := s.cur.entry.cap1.toNat
    let line (n : Nat) : Int := base + 128 * (toSigned 6 o + s.here.xval .v x) + 4 * n
    let at_ (srcs : List Nat) (k n : Nat) : Int := base + 4 * s.src x srcs k n
    let load (i : Instr) (srcs : List Nat) (f : Nat → Int) : Prop :=
      let as := s.laneSpots f
      (s.SpotsReady as → (∀ y, some y ∈ as → s.Clean (s.localSpot y) 4) →
        LaneWord i s srcs (some d) x none 0
          (fun n => (as.getD n none).map (fun y => s.readNum (.eng sl .v) (s.localSpot y) 4)) 0)
    let store (i : Instr) (srcs : List Nat) (f : Nat → Int) : Prop :=
      let as := s.laneSpots f
      let ws := as.zipIdx.filterMap (fun e => e.1.map (fun y => (s.localSpot y, toBytes 4 (s.src x srcs 0 e.2))))
      (LaneReady s srcs none x → s.SpotsReady as → Completes i s (fun t => ∃ u, t = finished .v 0 u
        ∧ (∀ z, Memory.read u.mem z = Memory.read (ws.foldl (fun m w => Memory.writeAll m w.1 w.2) s.mem) z)
        ∧ u.tags = s.tags ∧ u.poison = s.poison
        ∧ (∀ m e, m < 16 → e < 1024 → u.here.regs.el m e = if freed l a = some m then 0 else s.here.regs.el m e)
        ∧ (∀ q, mfind u.here.regs.streams q = (mfind s.here.regs.streams q).map (streamAfter srcs none (fun _ => none) q))
        ∧ u.here.butLanes.butReplayable = s.here.butLanes.butReplayable
        ∧ ∀ y, y ≠ sl → (u.slot y).butReplayable = (s.slot y).butReplayable))
    let refuse (i : Instr) (srcs : List Nat) (dst : Option Nat) (f : Nat → Int) : Prop :=
      let as := s.laneSpots f
      LaneReady s srcs dst x →
        (∀ y, s.badLane sl as = some y → exec i s = .next (s.engineTrap sl .v { cause := 0x04, val := y, addr := y }))
        ∧ (s.badLane sl as = none → s.lanesResident sl as = false → Completes i s (fun t => t.cur.status = .stalled
            ∧ t.slots = s.slots ∧ t.mem = s.mem))
    let q := opReg a
    let borrowed (xs : List (W32 × Bool)) : State := s.modStream sl q (fun g => { g with write := false, filled := xs })
    let returned (r : State) : State := r.modStream sl q (fun g => { g with write := true, filled := [] })
    let held (f : Stream) : List (W32 × Bool) := (List.range 32).map (fun k =>
      (BitVec.ofNat 32 (s.readNum (.eng sl .v) (s.localSpot (f.addr (f.next + k))) 4), false))
    let scatters (f : Stream) : Prop :=
      let spots := (List.range 32).map (fun k => some (f.addr (f.next + k)))
      (s.SpotsReady spots → (∀ k, k < 32 → s.Clean (s.localSpot (f.addr (f.next + k))) 4) →
          ∀ r, exec (.vsct d a b x l) (borrowed (held f)) = .next r → exec (.vsct d a b x l) s = .next (returned r))
        ∧ (∀ y, s.badLane sl spots = some y →
            exec (.vsct d a b x l) s = .next (s.engineTrap sl .v { cause := 0x04, val := y, addr := y }))
        ∧ (s.badLane sl spots = none → s.lanesResident sl spots = false → Completes (.vsct d a b x l) s (fun t =>
            t.cur.status = .stalled ∧ t.slots = s.slots ∧ t.mem = s.mem))
    load (.vld d a o x) [] line ∧ load (.vgth d a b x) [b] (at_ [b] 0)
    ∧ store (.vst d a o x l) [a] line ∧ store (.vsct d a b x l) [a, b] (at_ [a, b] 1)
    ∧ refuse (.vld d a o x) [] (some d) line ∧ refuse (.vgth d a b x) [b] (some d) (at_ [b] 0)
    ∧ refuse (.vst d a o x l) [a] none line ∧ refuse (.vsct d a b x l) [a, b] none (at_ [a, b] 1)
    ∧ (∀ f, isStream a = true → a ≠ b → mfind s.here.regs.streams q = some f → f.write = true →
        (s.here.seq .x).bindsStream q s.cur.entry.stamp = false →
        (f.next + 32 ≤ f.count → scatters f)
        ∧ (f.count < f.next + 32 → exec (.vsct d a b x l) s = .next (returned ((borrowed []).engineTrap sl .v
            { cause := 0x0B, val := 1 + q * 2 ^ 16 + 3 * 2 ^ 32, sub := 3, tid := q }))))

/-- R155, R158, R162, R163, R164, R329: transpose, freeing, skipping, breaking out of loops, and events of the vector
queue. The segment signature takes the words that VBRK passes over and that it has not taken yet. R143, R166, R325:
what stops a word of the vector engine before it begins: a stream that is not ready makes it wait, one that is
unbound, of the wrong direction or exhausted halts the queue with FMTERR and its sub-code, and poison in an operand
counts a detected event and halts the queue with POISON, except in class U, where the word goes on; a word whose
region is away waits first, and consumes nothing before it goes on: in class U it does from the state with the event
counted what it does there from the start, once that counter counts no more (LaneReady gives the words' own results in
that case). VSCT with a write-stream as va is the one word that does not fault with sub-code 2 (R161; log entry 93).
That poison in a lane that the mask does not admit stops the word is deduced (log entry 30), as are that VBRK leaves
what loops are open where a block names more (log entry 53) and that VSCT alone takes a write-stream (log entry 93).
-/
def Obligations.VectorControlWordsAndOperandFaults : Prop :=
  (∀ (s : State) (d a f : Fin 16) (l z : Fin 2) (n : Fin 65536) (c : Fin 4) (pre : Option Payload),
    let sl := s.cur.slot
    let q := s.here.seq .v
    let same (t : State) : Prop := OthersSame s t ∧ MemorySame s t ∧ ScalarsBut s t 64
    let kept (t : State) : Prop := t.cur.status = .done ∧ t.slots = s.slots ∧ t.mem = s.mem
    let stalls (i : Instr) : Prop := Completes i s (fun t => t.cur.status = .stalled ∧ t.slots = s.slots ∧ t.mem = s.mem)
    let zero := s.here.regs.mask.head? = some 0#32
    let taken := z.val = 1 ∨ zero
    let k := min (c.val + 1) q.loops.length
    let close := closeFrom (q.q.drop (q.pos + 1)) (q.pos + 1) 0 k
    let unsigned (es : List Entry) : List Entry := es.map (fun y => { y with signed := false })
    let signature (c : Csrs) : Nat := mget c.segCrc 1 0xFFFFFFFF
    ((∀ e, e < 1024 → s.here.regs.elBad a e = false) → s.here.csr.armed 2 2 = false →
      Completes (.vtrn d a l) s (fun t => ∃ u, t = finished .v 0 u ∧ same u ∧ ∀ m e, m < 16 → e < 1024 →
        u.here.regs.el m e = if m = d then s.here.regs.el a (32 * (e % 32) + e / 32)
          else if l.val = 1 ∧ m = a then 0 else s.here.regs.el m e))
    ∧ Completes (.vfree d) s (fun t => t.cur.status = .done ∧ same t ∧ t.here.regs.mbound.contains d.val = false
        ∧ ∀ m e, m < 16 → e < 1024 → t.here.regs.el m e = if m = d then 0 else s.here.regs.el m e)
    ∧ (zero → Completes (.vskipz n pre) s (fun t => t.cur.status = .done ∧ same t
        ∧ t.here.seq .v = { q with skip := extU pre 65536 n }))
    ∧ (¬zero → Completes (.vskipz n pre) s kept)
    ∧ (¬taken ∨ q.loops = [] → Completes (.vbrk z c pre) s kept)
    ∧ (taken → q.loops ≠ [] → close = none → stalls (.vbrk z c pre))
    ∧ (∀ p, taken → q.loops ≠ [] → close = some p → Completes (.vbrk z c pre) s (fun t => t.cur.status = .moved ∧ same t
        ∧ (t.here.seq .v).loops = q.loops.drop k ∧ (t.here.seq .v).pos = p + 1 ∧ (t.here.seq .v).x = q.x
        ∧ unsigned (t.here.seq .v).q = unsigned q.q ∧ { t.here.csr with segCrc := s.here.csr.segCrc } = s.here.csr
        ∧ signature t.here.csr = (if s.here.csr.segOpen then
            (((q.q.drop (q.pos + 1)).take (p - q.pos)).filter (fun y =>
              decide (y.kind = .word) && !y.signed && decide (0 < y.stamp))).foldl crcEntry (signature s.here.csr)
          else signature s.here.csr)))
    ∧ (s.here.drained = true → Completes (.esetV f) s (fun t => t.cur.status = .done ∧ same t
        ∧ ∀ y, mget t.here.regs.f y 0 = if y = f then 1 else mget s.here.regs.f y 0))
    ∧ (s.here.drained = false → stalls (.esetV f))
    ∧ (mget s.here.regs.f f 0 = 1 → Completes (.ewaitV f) s (fun t => t.cur.status = .done ∧ same t
        ∧ ∀ y, mget t.here.regs.f y 0 = if y = f then 0 else mget s.here.regs.f y 0))
    ∧ (mget s.here.regs.f f 0 ≠ 1 → stalls (.ewaitV f)))
  ∧ (∀ (s : State) (i : Instr) (srcs : List Nat) (dst : Option Nat) (x : Nat), vectorOperands i = some (srcs, dst, x) →
    let sl := s.cur.slot
    let g := s.here.gate s.cur.entry.stamp srcs dst
    let bad := firstBad (s.here.readLines (s.here.xval .v x) [] srcs)
    let hurt := s.coneEvent sl 1 1
    let memory := match i with | .vld .. | .vgth .. | .vst .. | .vsct .. => True | _ => False
    let scatters (q : Nat) : Prop := match i with
      | .vsct _ a b _ _ => isStream a.val = true ∧ a ≠ b ∧ q = opReg a.val
      | _ => False
    let here := memory → ∀ k, k < 16 → (s.region sl k).owner = some sl.slot
    (g = .stall → exec i s = .next { s with cur := { s.cur with status := .stalled } })
    ∧ (∀ sub q, g = .fault sub q → ¬(sub = 2 ∧ scatters q) → exec i s = .next (s.engineTrap sl .v
        { cause := 0x0B, val := 1 + q * 2 ^ 16 + sub * 2 ^ 32, sub := sub, tid := q }))
    ∧ (∀ a, g = .ok → s.here.csr.armed 2 2 = false → bad = some a → s.kclass sl ≠ 2 → here →
        let v := a % 2 ^ 57 + 2 ^ 60 + 2 ^ 61
        exec i s = .next (hurt.engineTrap sl .v { cause := 0x07, val := v, addr := v % 2 ^ 57 }))
    ∧ (∀ a, g = .ok → s.here.csr.armed 2 2 = false → bad = some a → s.kclass sl = 2 →
        (∃ t, exec i s = .next t) ∧ (here → hurt.coneEvent sl 1 1 = hurt → exec i s = exec i hurt)))

/-- R167 to R173: an accumulating word takes every element of its tile through its groups, raises their flags, and
keeps checksums where it is checked; a descriptor that fails a test halts the queue with FMTERR. That the roundings of
the checksums raise flags and draw nothing is deduced (log entry 31), and so is the order of the tests of a descriptor
(log entry 26). -/
def Obligations.MatrixAccumulateWords : Prop :=
  ∀ (s : State) (c : Fin 4) (a b : Fin 64) (k : Fin 8) (z q p u : Fin 2),
    let sl := s.cur.slot
    let A := Desc.of s.cur.entry.cap1.toNat
    let B := Desc.of s.cur.entry.cap2.toNat
    let old := s.acc sl c
    let word (i : Instr) (op : Nat) (ck : Nat) (gather : Bool) : Prop :=
      let w := 0x40000000 + op * 0x400000 + c.val * 2 ^ 20 + k.val * 32 + z.val * 8 + ck * 4 + p.val * 2 + u.val
      (∀ sub, accCheck w A B old gather = some sub → MatrixFault i s c sub 0)
      ∧ ∀ fa fb, accCheck w A B old gather = none → A.fmt? = some fa → B.fmt? = some fb →
        let isInt := fa.isMxi
        let idx : List (Nat × Nat) := if gather then [(A.scales, A.scales + 4 * A.rows)] else []
        let row (i : Nat) : Nat := if gather then s.elemAt sl 0 A.scales 32 i i else i
        let areaA := if fa.isMx && !isInt then some (A.scales + (if gather then 512 else 0)) else none
        let areaB := if fb.isMx && !isInt then some B.scales else none
        let spans := operandSpans A fa (128 * k) A.klen ((List.range A.rows).map row) areaA
          ++ operandSpans B fb (128 * k) A.klen (List.range B.rows) areaB
        let xs (i : Nat) := s.rowEls sl 0 (A.row (row i)) fa (128 * k) A.klen (row i) areaA
        let ys (j : Nat) := s.rowEls sl 1 (B.row j) fb (128 * k) A.klen j areaB
        let start (i j : Nat) : Nat := if z.val = 1 then 0 else old.at i j
        let el (i j : Nat) : Nat × Nat := accumulate isInt fa fb (start i j) (xs i) (ys j)
        let checked := ck = 1 ∨ op = 3 ∨ s.kclass sl = 0
        let sums := updateChecksums isInt fa fb (if z.val = 1 then Acc.zeroed [] else old) ((List.range A.rows).map xs)
          ((List.range B.rows).map ys)
        MatrixReady s c (idx ++ spans) (fun e => decide (e / 128 < A.rows) && decide (e % 128 < B.rows) && z.val == 0) →
        s.here.csr.armed 0 1 = false →
        Completes i s (fun t => QueuedDone s t
          ∧ (∀ i j, i < 128 → j < 128 → (t.acc sl c).at i j =
              if i < A.rows ∧ j < B.rows then (el i j).1 % 2 ^ 40 else start i j)
          ∧ (t.acc sl c).mode = (if z.val = 1 ∨ old.mode = 0 then (if isInt then 2 else 1) else old.mode)
          ∧ ((t.acc sl c).ckv = true ↔ checked ∧ (z.val = 1 ∨ old.ckv = true))
          ∧ (t.acc sl c).window.length = (if z.val = 1 then 0 else old.window.length) + 1
          ∧ (checked → (t.acc sl c).cr = sums.1.cr ∧ (t.acc sl c).mr = sums.1.mr ∧ (t.acc sl c).cc = sums.1.cc
              ∧ (t.acc sl c).mc = sums.1.mc)
          ∧ (∀ n, n ≠ c.val → t.acc sl n = s.acc sl n)
          ∧ ∀ f, bitOf t.here.csr.fpcsr f = true ↔ bitOf s.here.csr.fpcsr f = true ∨
              (∃ i j, i < A.rows ∧ j < B.rows ∧ bitOf (el i j).2 f = true) ∨ checked ∧ bitOf sums.2 f = true)
    word (.mma c a b k z q p u) 1 q false ∧ word (.mmag c a b k z q p u) 2 q true ∧ word (.mmac c a b k z p u) 3 1 false

/-- R175, R176, R183, R185: MZERO, MLOADA and MDRAIN, MNOP, and the events and barrier of the matrix queue. A format
that the word does not allow, a base or object out of place or not held, reserved fields and an invalid tile halt the
queue with FMTERR, and a region that is away makes the word wait. -/
def Obligations.MatrixTileAndEventWords : Prop :=
  ∀ (s : State) (c : Fin 4) (a : Fin 64) (r : Fin 8) (v : Fin 2) (f : Fin 16),
    let sl := s.cur.slot
    let D := Desc.of s.cur.entry.cap1.toNat
    let old := s.acc sl c
    let obj := s.cur.entry.cap1.toNat
    let draw (g : Format) (n : Nat) : Nat := if r.val = 4 ∧ g.isInt = false then drawNth (n + 1) (s.here.csr.gen 2) else 0
    let fault (i : Instr) (sub : Nat) : Prop := MatrixFault i s c sub 0
    let mem4 (t : State) (o : Nat) : Nat := ofBytes ((List.range 4).map (fun i => Memory.read t.mem (s.localSpot obj + o + i)))
    Completes .mnop s (fun t => QueuedDone s t ∧ t.slots = s.slots)
    ∧ Completes (.mzero c) s (fun t => QueuedDone s t ∧ (∀ i j, (t.acc sl c).at i j = 0) ∧ (t.acc sl c).mode = 0
        ∧ (t.acc sl c).valid = true ∧ (t.acc sl c).ckv = true ∧ ∀ n, n ≠ c.val → t.acc sl n = s.acc sl n)
    ∧ (∀ g, D.fmt? = some g →
        let spans := operandSpans D g 0 D.klen (List.range D.rows) none
        let shaped := D.base % 64 = 0 ∧ D.rsv = 0 ∧ D.soff = 0
        let row (i : Nat) := s.rowEls sl 0 (D.row i) g 0 D.klen i none
        let read : WindowEntry := ⟨0x41400000, s.cur.entry.cap1, 0, (List.range D.rows).map row, [], spans⟩
        let refused (i : Instr) (allowed : Bool) : Prop :=
          (allowed = false → fault i 2)
          ∧ (allowed = true → D.base % 64 ≠ 0 ∨ s.spansHeld sl spans = false → fault i 4)
          ∧ (allowed = true → D.base % 64 = 0 → s.spansHeld sl spans = true → D.rsv ≠ 0 ∨ D.soff ≠ 0 → fault i 6)
        let drains := drainFormat old.mode g && (old.mode != 2 || r.val == 0)
        refused (.mloada c a) (loadFormat g) ∧ refused (.mdrain c a r v) drains
        ∧ (drains = true → shaped → s.spansHeld sl spans = true → old.valid = false → fault (.mdrain c a r v) 7)
        ∧ (shaped → s.spansHeld sl spans = true → s.spansResident sl spans = false →
            (loadFormat g = true → StaysQueued (.mloada c a) s)
            ∧ (drains = true → old.valid = true → StaysQueued (.mdrain c a r v) s))
        ∧ (loadFormat g = true → shaped → MatrixReady s c spans (fun _ => false) →
          Completes (.mloada c a) s (fun t => QueuedDone s t ∧ (t.acc sl c).valid = true ∧ (t.acc sl c).ckv = true
            ∧ (t.acc sl c).mode = (match g with | .int40 => 2 | _ => 1)
            ∧ t.here.csr.fpcsr = s.here.csr.fpcsr ||| (runLoad read).2
            ∧ ∀ i j, i < 128 → j < 128 → (t.acc sl c).at i j = if i < D.rows ∧ j < D.klen then
                (match g with
                  | .flt _ => ((Ex.of (decodeFl FP32 ((row i).getD j (0, 0)).1) 0).round FA40 0 true 0).1
                  | _ => ((row i).getD j (0, 0)).1) % 2 ^ 40 else 0))
        ∧ (drains = true → shaped → old.valid = true →
            MatrixReady s c spans (fun e => decide (e / 128 < D.rows) && decide (e % 128 < D.klen)) →
          IssuesCommand (.mdrain c a r v) s (fun m => m.engine = .m ∧ m.matrix = true ∧ m.ordered = false
            ∧ m.moves.length = D.rows * D.klen
            ∧ ∀ i j, i < D.rows → j < D.klen → ∃ y, m.moves[i * D.klen + j]? = some y
                ∧ y.addr = s.localSpot (D.row i + j * (g.size / 8))
                ∧ y.bytes = toBytes (g.size / 8) (drainValue g r (v.val == 0) (draw g (i * D.klen + j)) (old.at i j)).1)))
    ∧ (D.fmt? = none → MatrixFault (.mloada c a) s c 1 0 ∧ MatrixFault (.mdrain c a r v) s c 1 0)
    ∧ (obj % 16 = 0 → s.spanHeld sl obj 16 = true → s.matrixQuiet sl = true → s.resident sl obj 16 = true →
        s.here.csr.armed 1 2 = false →
        Completes (.mbar a) s (fun t => t.cur.status = .done ∧ ScalarsBut s t 64 ∧ t.here.mstat = 0
          ∧ mem4 t 8 = mem4 s 8 ||| s.here.mstat % 2 ^ 32
          ∧ (mem4 s 4 ≤ 1 → mem4 t 0 = mem4 s 0 ^^^ 1 ∧ mem4 t 4 = mem4 s 12)
          ∧ (1 < mem4 s 4 → mem4 t 0 = mem4 s 0 ∧ mem4 t 4 = mem4 s 4 - 1)
          ∧ MemoryBut s t (s.localSpot obj) 12))
    ∧ (obj % 16 = 0 → s.spanHeld sl obj 16 = true → s.matrixQuiet sl = false ∨ s.resident sl obj 16 = false →
        StaysQueued (.mbar a) s)
    ∧ (obj % 16 ≠ 0 ∨ s.spanHeld sl obj 16 = false → exec (.mbar a) s = .next (s.engineTrap sl .m
        { cause := 0x0B, val := 2 + 4 * 2 ^ 32, sub := 4 }))
    ∧ (s.matrixQuiet sl = true → Completes (.esetM f) s (fun t => QueuedDone s t
        ∧ ∀ y, mget t.here.regs.f y 0 = if y = f then 1 else mget s.here.regs.f y 0))
    ∧ (s.matrixQuiet sl = false → StaysQueued (.esetM f) s)
    ∧ (mget s.here.regs.f f 0 = 1 → Completes (.ewaitM f) s (fun t => QueuedDone s t
        ∧ ∀ y, mget t.here.regs.f y 0 = if y = f then 0 else mget s.here.regs.f y 0))
    ∧ (mget s.here.regs.f f 0 ≠ 1 → StaysQueued (.ewaitM f) s)

/-- R177 to R182: MCHK passes, corrects one element, or fails with CKFAIL and an invalid tile (in class U it goes on);
MEPI writes every element of its area through the fused epilogue as one command, and where the tile has its checksums
checks it after the last of these writes: a corrected element is written once more, a tile beyond correction fails as
in MCHK. That the roundings of the check and of a correction raise flags and draw nothing is deduced (log entry 31),
as are the flags and the draw of a corrected element that MEPI rewrites and what a window replay keeps (log entry 83)
and the sign of an exact sum of zero (log entry 11). -/
def Obligations.CheckedTilesAndEpilogue : Prop :=
  ∀ (s : State) (c : Fin 4) (a b : Fin 64) (r : Fin 8) (v : Fin 2),
    let sl := s.cur.slot
    let T := s.acc sl c
    let found := T.check s.here.csr.cktolAbs s.here.csr.cktolRel
    let fixed (i j : Nat) : Nat := (T.corrected i j).1 % 2 ^ 40
    let e := Epi.of s.cur.entry.cap1.toNat s.cur.entry.cap2.toNat
    let look := s.lookup sl (.eng sl .m) 2 e.tid
    let u := look.1
    let spans : List (Nat × Nat) := if e.bias then [(e.baddr, e.baddr + 4 * e.cols)] else []
    let used (i : Nat) : Bool := T.ckv || (decide (i / 128 < e.rows) && decide (i % 128 < e.cols))
    let draw (n : Nat) : Nat := if r.val = 4 ∧ T.mode ≠ 2 then drawNth (n + 1) (u.here.csr.gen 2) else 0
    let checked := T.ckv = true ∧ T.mode ≠ 0
    let mepi := Instr.mepi c a b r v
    let raised (t : State) (fl : Nat) : Prop := t.here.csr.fpcsr = s.here.csr.fpcsr ||| fl
    let failed : State := (s.modSlot sl (fun v => { v with mstat := v.mstat ||| 4 })).setAcc sl c { T with valid := false }
    let ckfail (m n : Nat) : Trap :=
      { cause := 0x0A, val := 2 + c.val * 16 + min 255 m * 2 ^ 8 + min 255 n * 2 ^ 16 }
    let stops := s.kclass sl ≠ 2 ∧ (s.kclass sl = 0 → T.mayReplay = false)
    (T.valid = false → MatrixFault (.mchk c) s c 7 0)
    ∧ (T.valid = true → T.mode = 0 → Completes (.mchk c) s (fun t => QueuedDone s t ∧ t.slots = s.slots))
    ∧ (T.valid = true → T.mode ≠ 0 → T.ckv = false → MatrixFault (.mchk c) s c 9 0)
    ∧ (T.valid = true → T.mode ≠ 0 → T.ckv = true → MatrixReady s c [] (fun _ => true) →
        (found.1 = .pass → Completes (.mchk c) s (fun t => QueuedDone s t ∧ t.here.regs = s.here.regs
            ∧ t.here.mstat = s.here.mstat ∧ raised t found.2))
        ∧ (∀ i j, found.1 = .correct i j → Completes (.mchk c) s (fun t => QueuedDone s t
            ∧ (t.acc sl c).at i j = fixed i j ∧ t.here.mstat = s.here.mstat ||| 8
            ∧ raised t (found.2 ||| (T.corrected i j).2)
            ∧ ∀ k l, k < 128 → l < 128 → (k, l) ≠ (i, j) → (t.acc sl c).at k l = T.at k l))
        ∧ (∀ m n, found.1 = .bad m n → s.kclass sl = 2 → Completes (.mchk c) s (fun t => QueuedDone s t
            ∧ t.here.regs = s.here.regs ∧ t.here.mstat = s.here.mstat ||| 4 ∧ raised t found.2))
        ∧ (∀ m n, found.1 = .bad m n → stops → exec (.mchk c) s = .next (failed.engineTrap sl .m (ckfail m n))))
    ∧ (∀ sub, s.epiCmd sl = none → epiCheck u sl T r e look.2 = some sub → exec mepi s = .next (State.engineTrap
        (u.setAcc sl c { u.acc sl c with valid := false }) sl .m
        { cause := 0x0B, val := 2 + e.tid * 2 ^ 16 + sub * 2 ^ 32, sub := sub, tid := e.tid }))
    ∧ (∀ rec, s.epiCmd sl = none → look.2 = some rec → epiCheck u sl T r e look.2 = none →
        (u.epiPlaces sl rec e).findSome? (fun p => match p with | .outlease va => some va | _ => none) = none →
        MatrixReady u c spans used → u.acc sl c = T →
        Completes mepi s (fun t => (t.cur.status = .moved ↔ checked) ∧ (t.cur.status = .done ↔ ¬checked)
          ∧ t.mem = u.mem ∧ ScalarsBut u t 64
          ∧ ∃ m, t.cmds = u.cmds ++ [m] ∧ m.slot = sl ∧ m.engine = .m ∧ m.matrix = true ∧ (m.epi.isSome = true ↔ checked)
            ∧ ∀ i j p, i < e.rows → j < e.cols → u.pageOf sl (rec.elem (e.col0 + j) (e.row0 + i) 0 0).1 = some p →
                ∃ y, m.moves[i * e.cols + j]? = some y
                  ∧ y.addr = p.frame + ((rec.elem (e.col0 + j) (e.row0 + i) 0 0).1 - p.va)
                  ∧ y.leaf = p.shadow ∧ y.half = p.size ∧ y.visible = false
                  ∧ y.bytes = toBytes (rec.fmt.size / 8) (epiValue e rec.fmt T.mode r (v.val == 0) (draw (i * e.cols + j)) (T.at i j)
                      (if e.bias then u.elemAt sl 1 e.baddr 32 j j else 0)).1))
    ∧ (∀ k, s.epiCmd sl = some k → k.moves ≠ [] → exec mepi s = .next { s with cur := { s.cur with status := .moved } })
    ∧ (∀ k x f, s.epiCmd sl = some k → k.moves = [] → k.epi = some x → formatOf x.fmt = some f →
        (found.1 = .pass → Completes mepi s (fun t => QueuedDone s t ∧ t.slots = s.slots
            ∧ ∀ m ∈ t.cmds, m.id = k.id → m.epi = none ∧ m.moves = []))
        ∧ (∀ i j, found.1 = .correct i j → Completes mepi s (fun t => QueuedDone s t ∧ (t.acc sl c).at i j = fixed i j
            ∧ t.here.mstat = s.here.mstat ||| 8
            ∧ ∀ m ∈ t.cmds, m.id = k.id → m.epi = none
              ∧ (¬(i < e.rows ∧ j < e.cols) → m.moves = [])
              ∧ ∀ y, i < e.rows → j < e.cols → x.moves[i * e.cols + j]? = some y → m.moves = [{ y with
                  bytes := toBytes (f.size / 8) (epiValue e f T.mode r (v.val == 0) (x.draws.getD (i * e.cols + j) 0)
                    (fixed i j) (x.bias.getD j 0)).1 }]))
        ∧ (∀ m n, found.1 = .bad m n → stops → exec mepi s
            = .next ((failed.discardEpi k).engineTrap sl .m (ckfail m n))))

/-- R191, R196, R199: which element goes to which. A transfer moves the rows from ORG on, transposed where TR is set;
a gather takes the row that the index row names, a scatter goes to it; elements move in destination order. R192, R196,
R197, R199: the words that copy between records issue one command that writes every element to its place: the bits of
the source, or for XCPYT their conversion, each with its poison and, in an MX destination, its block's scale. That
scale bytes are copied with their own poison, and that poison of one element spreads over its MX block, is deduced
(log entry 34). -/
def Obligations.CopiesBetweenRecords : Prop :=
  (∀ (k : CopyKind) (S : SrcWindow) (T : DstWindow) (r d : Record) (idx : List Nat),
    let xs := copyPairs k S T r d idx
    let first (a b : Ix) : Prop := a.i3 < b.i3 ∨ a.i3 = b.i3 ∧ (a.i2 < b.i2 ∨ a.i2 = b.i2 ∧
      (a.i1 < b.i1 ∨ a.i1 = b.i1 ∧ a.i0 < b.i0))
    (k.indexed = false → xs.Pairwise (fun x y => first x.2 y.2)
      ∧ ∀ a b : Ix, (a, b) ∈ xs ↔ a.i0 < r.e0 ∧ S.org ≤ a.i1 ∧ a.i1 < r.e1 ∧ a.i2 < r.e2 ∧ a.i3 < r.e3
          ∧ b.i2 = a.i2 ∧ b.i3 = a.i3
          ∧ (if S.tr then b.i0 = a.i1 - S.org ∧ b.i1 = T.org + a.i0 else b.i0 = a.i0 ∧ b.i1 = T.org + (a.i1 - S.org)))
    ∧ (k = .gth → xs.Pairwise (fun x y => first x.2 y.2)
      ∧ ∀ a b : Ix, (a, b) ∈ xs ↔ a.i0 < r.e0 ∧ b.i0 = a.i0 ∧ T.org ≤ b.i1 ∧ idx[b.i1 - T.org]? = some a.i1
          ∧ a.i2 = 0 ∧ a.i3 = 0 ∧ b.i2 = 0 ∧ b.i3 = 0)
    ∧ (k = .sct → ∀ a b : Ix, (a, b) ∈ xs ↔ a.i0 < r.e0 ∧ b.i0 = a.i0 ∧ S.org ≤ a.i1 ∧ idx[a.i1 - S.org]? = some b.i1
          ∧ a.i2 = 0 ∧ a.i3 = 0 ∧ b.i2 = 0 ∧ b.i3 = 0)
    ∧ (k.indexed = false → (shapeBad k S T r d = false ↔
        S.org < r.e1 ∧ T.org < d.e1 ∧ d.e2 = r.e2 ∧ d.e3 = r.e3
        ∧ (if S.tr then d.e0 = r.e1 - S.org ∧ T.org + r.e0 ≤ d.e1 else d.e0 = r.e0 ∧ T.org + (r.e1 - S.org) ≤ d.e1)
        ∧ (k = .cpyt → d.fmt.isMx = true → d.e0 % 32 = 0))))
  ∧ (∀ (s u : State) (p : CopyPlan) (idx : List Nat) (d a b : Fin 64) (q v : Fin 2),
    CopyRecords s u p → CopyReady u p idx → p.ui = (v.val == 1) →
    let sl := s.cur.slot
    let flags := if p.T.fle then [(sl, p.T.flag)] else []
    let cell (n : Nat) := u.copied p n
    let byte (n : Nat) := u.copiedScale p n
    let block (n : Nat) := (List.range 32).map (fun j => cell (n / 32 * 32 + j))
    let encoded (n : Nat) := mxEncode p.d.fmt p.S.rm ((List.range 32).map (fun j => u.copyDraw p.S.rm (n / 32 * 32 + j)))
      ((block n).map (fun x => blockValue p.r.fmt x.1))
    let el (n : Nat) : Nat × Nat := if p.d.fmt.isMx then ((encoded n).2.1.getD (n % 32) 0, (encoded n).2.2)
      else convertElement p.r.fmt p.d.fmt p.S.rm p.S.ieee (u.copyDraw p.S.rm n) (cell n).1 (byte n).1
    let bad (n : Nat) : Bool := if p.d.fmt.isMx then (block n).any (fun x => x.2) else (cell n).2 || (byte n).2
    let plain (i : Instr) (k : CopyKind) : Prop := p.kind = k → IssuesFrom u i s (fun c => c.flags = flags ∧ c.fl = 0
      ∧ Copies p (fun n => { val := (cell n).1, poison := (cell n).2 })
          (fun n => { val := (byte n).1, poison := (byte n).2 }) c)
    plain (.xcpy d a b q v) .cpy ∧ plain (.xclass d a b q v) .cls ∧ plain (.xgth d a b q v) .gth
      ∧ plain (.xsct d a b q v) .sct
    ∧ (p.kind = .cpyt → IssuesFrom u (.xcpyt d a b q v) s (fun c => c.flags = flags
        ∧ (∀ f, bitOf c.fl f = true ↔ ∃ n, n < p.pairs.length ∧ bitOf (el n).2 f = true)
        ∧ Copies { p with srcScale := [] } (fun n => { val := (el n).1, poison := bad n })
            (fun n => { val := (encoded (32 * n)).1, poison := bad (32 * n) }) c)))

/-- R202, R203, R260: the words with a remote record, over the gang window: every element goes to the member that owns
the place, or comes from it; XRED combines instead; a member that does not hold the place makes FAIL. -/
def Obligations.TransfersOverTheGangWindow : Prop :=
  ∀ (s u : State) (p : CopyPlan) (idx : List Nat) (d a b : Fin 64) (q v : Fin 2),
    CopyRecords s u p → CopyReady u p idx → p.ui = (v.val == 1) →
    (∀ x ∈ p.srcSpots ++ p.dstSpots, ∀ y, x.2 ≠ .peer y) →
    let cell (n : Nat) := u.copied p n
    let byte (n : Nat) := u.copiedScale p n
    let at_ (m : List SlotId) := if p.T.fle then m.map (fun x => (x, p.T.flag)) else []
    let member := (mfind ((u.gangOf s.cur.slot).map (·.members)).toList.flatten (memberOf p.d.base))
    let put (n : Nat) : Put := { val := (cell n).1, poison := (cell n).2 }
    let scale (n : Nat) : Put := { val := (byte n).1, poison := (byte n).2 }
    let red (n : Nat) : Put := { put n with op := some p.S.op, rm := p.S.rm, draw := u.copyDraw p.S.rm n }
    (p.kind = .get → anyLost p.srcSpots = false → IssuesFrom u (.xget d a b q v) s (fun c =>
        c.flags = at_ [s.cur.slot] ∧ Copies p put scale c))
    ∧ (p.kind = .get → anyLost p.srcSpots = true → IssuesFrom u (.xget d a b q v) s (fun c =>
        c.moves = [] ∧ c.regMoves = [] ∧ bitOf c.stat 1 = true))
    ∧ (p.kind = .put → inGangWindow p.d.base = true → IssuesFrom u (.xput d a b q v) s (fun c =>
        c.flags = at_ member.toList ∧ Copies p put scale c))
    ∧ (p.kind = .red → inGangWindow p.d.base = true → IssuesFrom u (.xred d a b q v) s (fun c =>
        c.flags = at_ member.toList ∧ Copies p red scale c))
    ∧ (p.kind = .bcst → IssuesFrom u (.xbcst d a b q v) s (fun c =>
        c.flags = at_ (p.targets.filterMap id) ∧ Copies p put scale c))

/-- R198, R200, R204 to R207: fills, streams, publishes, chains, status and the events of the copy queue. -/
def Obligations.CopyQueueWords : Prop :=
  ∀ (s : State) (d a b : Fin 64) (q v : Fin 2) (f : Fin 16),
    let sl := s.cur.slot
    let x := s.cur.entry.cap1.toNat
    let y := s.cur.entry.cap2.toNat
    let T := DstWindow.of y
    let plain (c : Cmd) (v : Fin 2) (r : Nat) := c.engine = .x ∧ c.ui = (v.val == 1) ∧ c.reply = some r ∧ c.moves = []
      ∧ c.regMoves = []
    let fmt (u : State) (sub tid : Nat) : State := u.engineTrap sl .x
      { cause := 0x0B, val := 3 + tid * 2 ^ 16 + sub * 2 ^ 32, sub := sub, tid := tid }
    let others (t : State) (n : Nat) := ∀ m, m ≠ n → mfind t.here.regs.streams m = mfind s.here.regs.streams m
    let bytes := (List.range 4).flatMap (fun i => toBytes 8 (s.viewNum (.eng sl .x) s.cur.entry.view s.cur.entry.own
      (Config.pick s.fresh (x + 8 * i)) (s.localPhys sl (x + 8 * i)) 8))
    let look (t : Nat) := s.lookup sl (.eng sl .x) 3 t
    let room := s.copyFull sl = false
    (∀ u r, room → look T.tid = (u, some r) → u.shadowAgrees sl r = true → inGangWindow r.base = false → T.rsv = 0 →
        T.unused = false → r.fmt.isMx = false → T.org < r.e1 →
        s.barrierAway sl T = false → (T.barv = true → T.baddr % 16 = 0 ∧ u.spanHeld sl T.baddr 16 = true) →
        (∀ i, i.i0 < r.e0 → T.org ≤ i.i1 → i.i1 < r.e1 → i.i2 < r.e2 → i.i3 < r.e3 → ∀ z ∈ r.parts i,
          (∃ a c g h, u.spot sl r false true none z.va = .mem a c g h)
          ∧ u.copyOverlap sl ((u.spot sl r false true none z.va).span z) = false) →
        IssuesFrom u (.xfill d a b q v) s (fun c => c.engine = .x ∧ c.ui = (v.val == 1) ∧ c.bar = T.bar ∧ c.stat = 0
          ∧ c.flags = (if T.fle then [(sl, T.flag)] else [])
          ∧ (∀ i, i.i0 < r.e0 → T.org ≤ i.i1 → i.i1 < r.e1 → i.i2 < r.e2 → i.i3 < r.e3 →
              Writes c r { val := x % 2 ^ r.fmt.size, poison := false }
                ((r.parts i).map (fun z => (z, u.spot sl r false true none z.va))))
          ∧ ∀ m ∈ c.moves, ∃ i : Ix, i.i0 < r.e0 ∧ T.org ≤ i.i1 ∧ i.i1 < r.e1 ∧ i.i2 < r.e2 ∧ i.i3 < r.e3
              ∧ m ∈ elementMoves r { val := x % 2 ^ r.fmt.size, poison := false }
                ((r.parts i).map (fun z => (z, u.spot sl r false true none z.va)))))
    ∧ (∀ base ext str, room → s.here.streamBusy (y % 16) s.cur.entry.stamp = false → y < 32 → x % 8 = 0 →
        s.spanHeld sl x 32 = true → s.resident sl x 32 = true → s.Clean (s.localSpot x) 32 → s.here.csr.armed 1 2 = false →
        s.copyOverlap sl [(s.localPhys sl x, 32)] = false →
        parsePattern bytes = some (base, ext, str) → 0 ≤ (patternReach base ext str).1 →
        s.spanHeld sl (patternReach base ext str).1.toNat
          ((patternReach base ext str).2 - (patternReach base ext str).1 + 4).toNat = true →
        (s.here.undrained (y % 16) = true → StaysQueued (.xbind d a b v) s)
        ∧ (s.here.undrained (y % 16) = false → IssuesCommand (.xbind d a b v) s (fun c => plain c v 0)
          ∧ Completes (.xbind d a b v) s (fun t => others t (y % 16) ∧ ∃ z, mfind t.here.regs.streams (y % 16) = some z
              ∧ z.write = decide (16 ≤ y) ∧ z.base = base ∧ z.ext = ext ∧ z.str = str ∧ z.next = 0 ∧ z.filled = []
              ∧ z.out = [])))
    ∧ (room → s.here.streamBusy (y % 16) s.cur.entry.stamp = false → 32 ≤ y →
        exec (.xbind d a b v) s = .next (fmt s 2 0))
    ∧ (room → s.here.streamBusy (x % 16) s.cur.entry.stamp = false → x < 16 →
        (s.here.undrained x = true → StaysQueued (.xunb d a v) s)
        ∧ (s.here.undrained x = false → IssuesCommand (.xunb d a v) s (fun c => plain c v 0)
          ∧ Completes (.xunb d a v) s (fun t => others t x ∧ mfind t.here.regs.streams x = none)))
    ∧ (s.copyQuiet sl = false → StaysQueued (.xpub d a v) s)
    ∧ (∀ u r, s.copyQuiet sl = true → room → look (x % 4096) = (u, some r) → u.publishable sl r = true → x < 65536 →
        let scope := x / 4096
        let leaves := (u.bufferPages sl r).map (·.leaf)
        (scope = 6 ∨ 9 < scope → exec (.xpub d a v) s = .next (fmt u 8 (x % 4096)))
        ∧ (scope ≠ 6 → scope ≤ 9 →
            u.epiPending sl s.cur.entry.born (u.bufferPages sl r) (fun t => u.targets sl (u.bufferPages sl r) t) = false →
          (r.shadow = false → IssuesFrom u (.xpub d a v) s (fun c => plain c v 0x100))
          ∧ (r.shadow = true → leaves.Nodup → Completes (.xpub d a v) s (fun t => t.cur.status = .done ∧ ScalarsBut u t 64
              ∧ (∃ c, t.cmds = u.cmds ++ [c] ∧ plain c v 0) ∧ t.seqT = u.seqT + 1
              ∧ ∀ m, Memory.read t.mem m = if m ∈ leaves then Memory.read u.mem m ^^^ 0x40#8 else Memory.read u.mem m))))
    ∧ (s.here.chain.isSome → StaysQueued (.xchain d a b v) s)
    ∧ (s.here.chain = none → Completes (.xchain d a b v) s (fun t => t.cur.status = .moved ∧ OthersSame s t
        ∧ t.mem = s.mem ∧ { t.here with chain := none } = s.here
        ∧ ∃ c, t.here.chain = some c ∧ c.next = x ∧ c.left = (if y = 0 then none else some y) ∧ c.done = 0 ∧ c.stat = 0
            ∧ c.begun = false ∧ c.entries = []))
    ∧ (room → x < 4 → IssuesCommand (.xstat d a v) s (fun c => plain c v
        (if x = 0 then s.counter sl 2 - 1 else if x = 1 then s.here.xdoneCount else if x = 2 then s.here.xchain
          else s.here.xbytes)))
    ∧ (room → 4 ≤ x → exec (.xstat d a v) s = .next (fmt s 8 0))
    ∧ (s.copyQuiet sl = true → Completes (.esetX f) s (fun t => QueuedDone s t
        ∧ ∀ n, mget t.here.regs.f n 0 = if n = f then 1 else mget s.here.regs.f n 0))
    ∧ (s.copyQuiet sl = false → StaysQueued (.esetX f) s)
    ∧ (mget s.here.regs.f f 0 = 1 → Completes (.ewaitX f) s (fun t => QueuedDone s t
        ∧ ∀ n, mget t.here.regs.f n 0 = if n = f then 0 else mget s.here.regs.f n 0))
    ∧ (mget s.here.regs.f f 0 ≠ 1 → StaysQueued (.ewaitX f) s)

/-- R208, R210: what a B word checks before it leaves the tile, in the order of the rule, and the command that it then
sends to its bank; R207: the events of the bank queue. The first two checks look at y, at x or at the index list where
it begins and where it goes on beyond the slab. That BKGSUM’s list of rows is read when the word is checked at the
head of its queue is deduced (log entry 36). -/
def Obligations.BankWordsCheckAndIssue : Prop :=
  ∀ (s : State) (d a b : Fin 64) (v : Fin 2) (f : Fin 16) (p : Page),
    let sl := s.cur.slot
    let x := s.cur.entry.cap1.toNat
    let y := s.cur.entry.cap2.toNat
    let word (i : Instr) (fn : Nat) : Prop :=
      let o := BankOp.of fn x y
      let phys := p.frame + (o.y - p.va)
      let align := if fn = 7 then 4 else 32
      let trap (c va : Nat) : Prop := exec i s = .next (s.engineTrap sl .b
        { cause := c, val := va % 2 ^ 57 + 5 * 2 ^ 61, addr := va })
      let fmt (u : State) (sub : Nat) : State := u.engineTrap sl .b { cause := 0x0B, val := 5 + sub * 2 ^ 32, sub := sub }
      let list := phys / 0x8000 * 0x8000 + o.list.1
      let idx := (List.range o.list.2).map (fun k =>
        s.viewNum (.eng sl .b) s.cur.entry.view s.cur.entry.own (Config.pick s.fresh k) (list + 2 * k) 2)
      let inSlab := o.y + o.len ≤ o.slab + 0x8000 ∧ (fn ≤ 1 → o.xoff + o.len ≤ 0x8000)
        ∧ (fn = 3 → o.list.1 + 2 * o.list.2 ≤ 0x8000)
      let from_ (va n : Nat) : List Nat :=
        va :: if va < o.slab + 0x8000 ∧ o.slab + 0x8000 < va + n then [o.slab + 0x8000] else []
      let touched := from_ o.y o.len ++ (if fn ≤ 1 then from_ (o.slab + o.xoff) o.len else [])
        ++ (if fn = 3 ∧ o.list.2 ≠ 0 then from_ (o.slab + o.list.1) (2 * o.list.2) else [])
      let banked := ∀ z ∈ touched, ∃ q, s.bankPage sl z = some q ∧ q.bk = true
      let aligned := o.y % align = 0 ∧ (usesX fn = true → o.xoff % 32 = 0) ∧ (fn = 3 → o.list.1 % 2 = 0)
      (∀ m va n, touched = m ++ va :: n → (∀ z ∈ m, (s.bankPage sl z).isSome) → s.bankPage sl va = none →
          exec i s = .next (s.engineTrap sl .b { cause := 0x04, val := va, addr := va }))
      ∧ (∀ m va n q, touched = m ++ va :: n → (∀ z ∈ touched, (s.bankPage sl z).isSome) →
          (∀ z ∈ m, ∃ r, s.bankPage sl z = some r ∧ r.bk = true) → s.bankPage sl va = some q → q.bk = false → trap 0x0D va)
      ∧ (banked → s.bankPage sl o.y = some p →
          (o.y % align ≠ 0 → trap 0x06 o.y)
          ∧ (o.y % align = 0 → usesX fn = true → o.xoff % 32 ≠ 0 → trap 0x06 (o.slab + o.xoff))
          ∧ (o.y % align = 0 → fn = 3 → o.xoff % 32 = 0 → o.list.1 % 2 ≠ 0 → trap 0x06 (o.slab + o.list.1))
          ∧ (aligned → ¬inSlab → trap 0x0D (o.slab + 0x8000))
          ∧ (aligned → inSlab → fn ≠ 7 → o.typ = 3 → exec i s = .next (fmt s 1))
          ∧ (aligned → inSlab → (fn = 7 ∨ o.typ ≠ 3) → bankZeros fn x y = true → exec i s = .next (fmt s 2))
          ∧ (aligned → inSlab → fn = 3 → o.typ ≠ 3 → bankZeros fn x y = false → o.list.2 = 0 → exec i s = .next (fmt s 3))
          ∧ (aligned → inSlab → (fn = 7 ∨ o.typ ≠ 3) → bankZeros fn x y = false →
              (fn = 3 → o.list.2 ≠ 0 ∧ s.Clean list (2 * o.list.2)) →
              ((fn = 3 → ∀ k ∈ idx, o.xoff + (k + 1) * o.len ≤ 0x8000) → IssuesCommand i s (fun c =>
                c.engine = .b ∧ c.ui = (v.val == 1) ∧ c.cap1 = s.cur.entry.cap1 ∧ c.cap2 = s.cur.entry.cap2
                ∧ c.word = s.cur.entry.word ∧ c.rd = s.cur.entry.rd ∧ c.phys = phys ∧ c.slab = phys / 0x8000 * 0x8000
                ∧ c.bank = some (slabBank phys) ∧ c.view = s.cur.entry.view
                ∧ c.own = s.cur.entry.own ∧ c.executed = false ∧ c.moves = []
                ∧ c.src.map (fun k => k.1) = if fn = 3 then idx else []))
              ∧ (fn = 3 → (∃ k ∈ idx, 0x8000 < o.xoff + (k + 1) * o.len) → exec i s = .next (fmt s 3))))
    word (.bkadd d a b v) 0 ∧ word (.bkaxpy d a b v) 1 ∧ word (.bkred d a b v) 2 ∧ word (.bkgsum d a b v) 3
    ∧ word (.bkfill d a b v) 4 ∧ word (.bkscal d a b v) 5 ∧ word (.bkmax d a b v) 6 ∧ word (.bkcas d a b v) 7
    ∧ (s.bankQuiet sl = true → Completes (.esetB f) s (fun t => QueuedDone s t
        ∧ ∀ n, mget t.here.regs.f n 0 = if n = f then 1 else mget s.here.regs.f n 0))
    ∧ (s.bankQuiet sl = false → StaysQueued (.esetB f) s)
    ∧ (mget s.here.regs.f f 0 = 1 → Completes (.ewaitB f) s (fun t => QueuedDone s t
        ∧ ∀ n, mget t.here.regs.f n 0 = if n = f then 0 else mget s.here.regs.f n 0))
    ∧ (mget s.here.regs.f f 0 ≠ 1 → StaysQueued (.ewaitB f) s)

/-- R209, R211, R296, R325: what a command does at its bank: it reads each unit of 32 bytes at a place of its own in
T; the new elements in units of 32 bytes, ascending, or a reply; BKCAS compares and writes its word in one access; a
bank runs the commands of a slot in order, one at a time. BKADD and BKAXPY go in ascending address: where x lies below
y, an element of x that the command has written enters as written. On a class-D page a CRC mismatch in what the
command reads aborts it: the reply is all ones, nothing is written, and the poison is consumed as the kernel's class
says, unless its task ends already. That floating bank commands raise flags, and that BKAXPY and BKSCAL in TYPE INT32
round once, is deduced (log entry 35). -/
def Obligations.BankCommandsAtTheBank : Prop :=
  ∀ (s : State) (id : Nat) (c : Cmd), s.cmd? id = some c → c.bank.isSome →
    let fn := c.word / 0x400000 % 128
    let o := BankOp.of fn c.cap1.toNat c.cap2.toNat
    let sz := bankSize o.typ
    let n := o.len / sz
    let floor := s.bankFloor c
    let el (base e : Nat) := s.viewBy (s.orderedBank c.slot floor c.own) (.eng c.slot .b) floor
      (Config.pick s.fresh ((base + sz * e) / 32)) (base + sz * e) sz
    let Y (e : Nat) := el c.phys e
    let X (e : Nat) := el (c.slab + o.xoff) e
    let imm := decodeFl FP32 o.imm
    let scaled (v : Nat) : Ex := { mulFl imm (bankVal o.typ v) with
      fl := (mulFl imm (bankVal o.typ v)).fl ||| sigFlag [imm] }
    let gather (e : Nat) : Nat × Nat := c.src.foldl (fun acc k =>
      let q := bankAdd o.typ acc.1 (el (c.slab + o.xoff + k.1 * o.len) e)
      (q.1, acc.2 ||| q.2)) (0, 0)
    let back := (o.y % 0x8000 - o.xoff) / sz
    let ascending (f : Nat → Nat → Nat × Nat) (new : Nat → Nat × Nat) : Prop :=
      ∀ e, new e = f (Y e) (if 0 < back ∧ back ≤ e then (new (e - back)).1 else X e)
    let reads := bankReads fn o c
    let quiet := ∀ r ∈ reads, ∀ f ∈ s.flips, f.bits = [] ∨ f.seg * 64 + 64 ≤ r.1 ∨ r.1 + r.2 ≤ f.seg * 64
    let aborted := s.modCmd id (fun c => { c with executed := true, reply := some (2 ^ 64 - 1) })
    let taken : Entry := { word := c.word, cap1 := c.cap1, cap2 := c.cap2 }
    let eaten : State := { aborted with cur := { slot := c.slot, engine := some .b, entry := taken } }
    let leaves (t : State) := t.mem = s.mem
      ∧ (∃ b, t.slots = (s.modSlot c.slot (fun v => { v with bankAt := b })).slots) ∧ t.tags = s.tags ∧ t.poison = s.poison
      ∧ ∀ k, k ≠ id → t.cmd? k = s.cmd? k
    let writes (new : Nat → Nat × Nat) : Prop := Completes (.bankCommandExecution id) s (fun t => leaves t ∧ ∃ c2,
      t.cmd? id = some c2 ∧ c2.executed = true ∧ c2.reply = some 0 ∧ c2.moves.length = n / (32 / sz)
      ∧ (∀ k, k < n / (32 / sz) → ∃ m, c2.moves[k]? = some m ∧ m.addr = c.phys + 32 * k ∧ m.op = none ∧ m.width = 0
          ∧ m.leaf = 0 ∧ m.bytes = (List.range (32 / sz)).flatMap (fun l => toBytes sz (new (32 / sz * k + l)).1))
      ∧ ∀ g, bitOf c2.fl g = true ↔ ∃ e, e < n ∧ bitOf (new e).2 g = true)
    let replies (r : Nat) : Prop := Completes (.bankCommandExecution id) s (fun t => leaves t ∧ ∃ c2,
      t.cmd? id = some c2 ∧ c2.executed = true ∧ c2.reply = some r ∧ c2.moves = []
      ∧ ((∃ e, e < n ∧ (bankVal o.typ (Y e)).isSig = true) → c2.fl &&& fNV = fNV))
    (s.bankReady c = false → Completes (.bankCommandExecution id) s (fun t => t = s))
    ∧ (∀ m r n, s.bankReady c = true → quiet → s.classOf c.phys = 1 → reads = m ++ r :: n →
        (∀ z ∈ m, s.poisonedIn z.1 z.2 = false) → s.poisonedIn r.1 r.2 = true →
        let v := poisonVal (o.slab + (r.1 - c.slab)) false false 5
        let counted := eaten.coneEvent c.slot 1 5
        exec (.bankCommandExecution id) s = .next (if (s.slot c.slot).ending.isSome then aborted
          else if s.kclass c.slot = 2 then counted
          else counted.engineTrap c.slot .b { cause := 0x07, val := v, addr := v % 2 ^ 57 }))
    ∧ (s.bankReady c = true → quiet → (s.classOf c.phys = 1 → ∀ r ∈ reads, s.poisonedIn r.1 r.2 = false) →
        (fn = 0 → ∃ new, ascending (bankAdd o.typ) new ∧ writes new)
        ∧ (fn = 1 → ∃ new, ascending (fun v w => bankRound o.typ (fmaFl 0 imm (bankVal o.typ w) (bankVal o.typ v))) new
            ∧ writes new)
        ∧ (fn = 3 → writes gather)
        ∧ (fn = 4 → writes (fun _ => (o.imm % 2 ^ (8 * sz), 0)))
        ∧ (fn = 5 → writes (fun e => bankRound o.typ (scaled (Y e))))
        ∧ (fn = 2 → o.typ = 2 → replies (wrapTo 64 ((List.range n).map (fun e => toSigned 32 (Y e))).sum))
        ∧ (fn = 2 → o.typ ≠ 2 → replies ((List.range (n / (32 / sz))).foldl (fun acc k =>
            (addRne32 acc (pairwise addRne32 (if o.typ = 0 then 4 else 3)
              ((List.range (32 / sz)).map (fun l => bankLane o.typ (Y (32 / sz * k + l))))).1).1) 0))
        ∧ (fn = 6 → o.typ = 2 → ∃ m : Int, (∀ e, e < n → toSigned 32 (Y e) ≤ m) ∧ (∃ e, e < n ∧ toSigned 32 (Y e) = m)
            ∧ replies (wrapTo 64 m))
        ∧ (fn = 6 → o.typ ≠ 2 → replies ((List.range (n - 1)).foldl (fun acc e =>
            (minMaxFl true (decodeFl FP32 acc) (decodeFl FP32 (bankLane o.typ (Y (e + 1))))).rne32.1) (bankLane o.typ (Y 0))))
        ∧ (fn = 7 → c.regMoves = [] → s.tileOfPhys c.phys = none →
            let old := ofBytes ((List.range 4).map (fun i => Memory.read s.mem (c.phys + i)))
            let hit := old = c.cap2.toNat % 2 ^ 32
            Completes (.bankCommandExecution id) s (fun t => (∃ b, ∀ y, t.slot y =
                if y = c.slot then { s.slot y with bankAt := b } else s.slot y) ∧ t.tags = s.tags ∧ t.poison = s.poison
              ∧ (∃ c2, t.cmd? id = some c2 ∧ c2.executed = true ∧ c2.reply = some old ∧ c2.moves = [])
              ∧ (hit → ∀ k, k < 4 → Memory.read t.mem (c.phys + k) = (toBytes 4 (c.cap2.toNat / 2 ^ 32)).getD k 0)
              ∧ (hit → MemoryBut s t c.phys 4) ∧ (¬hit → MemorySame s t))))

/-- R216 to R220, R231 to R233: images in scratchpad, building and tagging of distributions, extraction, and the
events of the distribution queue. -/
def Obligations.DistributionMovesAndExtraction : Prop :=
  ∀ (s : State) (d a : Fin 16) (j x : Fin 8) (c : Fin 2) (m : Fin 64) (k : Fin 4) (f : Fin 16),
    let sl := s.cur.slot
    let at_ := imageAddr s x
    let p := s.localSpot at_
    let line := s.pointLine x m 0
    let old := if c.val = 1 then ({} : Dist) else s.dist sl d
    let A := s.dist sl a
    let t0 := line 0 % 2 ^ 32
    let image (o n : Nat) : Nat := ofBytes (((s.readBytes (.eng sl .d) p 2112).drop o).take n)
    let row (i : Instr) (srcs : List Nat) (el : Nat → Nat × Nat) : Prop :=
      PointsReady s srcs x false → Completes i s (fun t => ∃ u, t = finished .d (allLanes (fun l => (el l).2)) u
        ∧ (∀ n e, n < 16 → e < 1024 → u.here.regs.el n e = if n = d ∧ e / 32 = s.here.xval .d x % 32 then
            BitVec.ofNat 32 (el (e % 32)).1 else s.here.regs.el n e)
        ∧ (∀ n, u.dist sl n = s.dist sl n)
        ∧ (∀ q, mfind u.here.regs.streams q = (mfind s.here.regs.streams q).map (streamAfter srcs none (fun _ => none) q))
        ∧ u.here.regs.frameCounter = s.here.regs.frameCounter ∧ u.here.butPoints = s.here.butPoints ∧ OthersSame s u
        ∧ u.butTiles = s.butTiles ∧ MemorySame s u)
    let lane (g : Nat → List Pair → Nat × Nat) (l : Nat) : Nat × Nat :=
      let q := alive (lanePairs (A.lane l))
      if total q = 0 then (FP32.canonNaN, fNV)
      else if q.any (fun y => (decodeFl FP32 y.val).isNaN) then
        (FP32.canonNaN, sigFlag (q.map (fun y => decodeFl FP32 y.val))) else g l q
    (at_ % 64 ≠ 0 → exec (.dld d m x) s = .next (s.engineTrap sl .d (fmtStream 4 0 4))
        ∧ exec (.dst a m x) s = .next (s.engineTrap sl .d (fmtStream 4 0 4)))
    ∧ (s.imageReady at_ → s.Clean p 2112 → s.here.csr.armed 1 2 = false →
        Completes (.dld d m x) s (fun t => ∃ u, t = finished .d 0 u ∧ PointsWritten s u [] d false
          (fun l i => (image (64 * l + 8 * i) 4, image (64 * l + 8 * i + 4) 4)) (image 2048 4)))
    ∧ (s.imageReady at_ → Completes (.dst a m x) s (fun t => ∃ u, t = finished .d 0 u
        ∧ (∀ l i, l < 32 → i < 8 → ∀ b, b < 4 →
            Memory.read u.mem (p + 64 * l + 8 * i + b) = (toBytes 4 (A.point l i).1).getD b 0
            ∧ Memory.read u.mem (p + 64 * l + 8 * i + 4 + b) = (toBytes 4 (A.point l i).2).getD b 0)
        ∧ (∀ b, b < 4 → Memory.read u.mem (p + 2048 + b) = (toBytes 4 A.tag.toNat).getD b 0)
        ∧ (∀ b, b < 60 → Memory.read u.mem (p + 2052 + b) = 0)
        ∧ (∀ y, y < p ∨ p + 2112 ≤ y → Memory.read u.mem y = Memory.read s.mem y)
        ∧ (∀ n, u.dist sl n = s.dist sl n) ∧ ScalarsBut s u 64))
    ∧ PointWord (.dfromvV d j c m x) s [m.val] x false d false
        (fun l i => if i = j then (line l, (old.point l i).2) else old.point l i) old.tag.toNat 0
    ∧ PointWord (.dfromvW d j c m x) s [m.val] x false d false
        (fun l i => if i = j then ((old.point l i).1, line l) else old.point l i) old.tag.toNat 0
    ∧ PointWord (.dtag d a m x) s [m.val] x false d (tagFrame t0 == 0) (fun l i => A.point l i)
        (tagMask t0 + (if tagFrame t0 = 0 then s.here.regs.frameCounter else tagFrame t0) * 65536) 0
    ∧ row (.dmom d a k x) [] (lane (fun _ q => if k.val = 0 then meanOf q else if k.val = 1 then momentOf 2 q else momentOf 3 q))
    ∧ row (.dqnt d a m x) [m.val] (lane (fun l q => quantile (line l) q))
    ∧ row (.dcdf d a m x) [m.val] (lane (fun l q => cdfAt (line l) q))
    ∧ Completes (.esetD f) s (fun t => QueuedDone s t
        ∧ ∀ n, mget t.here.regs.f n 0 = if n = f then 1 else mget s.here.regs.f n 0)
    ∧ (mget s.here.regs.f f 0 = 1 → Completes (.ewaitD f) s (fun t => QueuedDone s t
        ∧ ∀ n, mget t.here.regs.f n 0 = if n = f then 0 else mget s.here.regs.f n 0))
    ∧ (mget s.here.regs.f f 0 ≠ 1 → StaysQueued (.ewaitD f) s)

/-- R221 to R229: pairing by tags, and the arithmetic of weighted points, exact and condensed. -/
def Obligations.DistributionArithmetic : Prop :=
  ∀ (s : State) (d a b : Fin 16) (m : Fin 64) (x : Fin 8),
    let sl := s.cur.slot
    let A := s.dist sl a
    let B := s.dist sl b
    let ta := A.tag.toNat
    let tb := B.tag.toNat
    let line (skip l : Nat) := s.pointLine x m skip l
    let frame := s.here.regs.frameCounter
    let joint := tagMask ta = tagMask tb ∧ tagMask ta ≠ 0 ∧ tagFrame ta = tagFrame tb
    let apart := tagMask ta &&& tagMask tb = 0
    let pairs (f : Fl → Fl → Ex) (l : Nat) : List Pair := (List.range 8).map (fun i =>
      let v := (f (decodeFl FP32 (A.point l i).1) (decodeFl FP32 (B.point l i).1)).rne32
      ⟨v.1, (A.point l i).2, i, v.2⟩)
    let points (f : Nat → Nat → Nat × Nat) (l : Nat) : List Point × Nat := plainLane ((List.range 8).map (fun i =>
      let v := f l (A.point l i).1
      ⟨v.1, (A.point l i).2, i, v.2⟩))
    let two (i : Instr) (f : Fl → Fl → Ex) : Prop :=
      (joint → MapsPoints i s [] 0 false d false (fun l => plainLane (pairs f l)) ta)
      ∧ (¬joint → MapsPoints i s [] 0 false d true
          (fun l =>
            let r := crossLane (pairOp f) (A.lane l) (B.lane l)
            (r.1, r.2 ||| (if apart then 0 else fDPOV)))
          ((tagMask ta ||| tagMask tb) + frame * 65536))
    let one (i : Instr) (f : Fl → Fl → Ex) : Prop :=
      MapsPoints i s [m.val] x false d false
        (points (fun l v => (f (decodeFl FP32 v) (decodeFl FP32 (line 0 l))).rne32)) ta
    let affine (f : Nat → Nat → Nat × Nat) (l : Nat) : List Point × Nat :=
      ((List.range 8).map (fun i => ((f l (A.point l i).1).1, (A.point l i).2)),
        (List.range 8).foldl (fun g i => g ||| (f l (A.point l i).1).2) 0)
    let unary (i : Instr) (f : Nat → Nat) : Prop :=
      MapsPoints i s [] 0 false d false (fun l => plainLane ((List.range 8).map (fun i =>
        let p := A.point l i
        ⟨if p.2 != 0 && (decodeFl FP32 p.1).isNaN then p.1 else f p.1, p.2, i, 0⟩))) ta
    two (.dadd d a b) (addFl 0) ∧ one (.daddExact d a m x) (addFl 0)
    ∧ two (.dsub d a b) subFl ∧ one (.dsubExact d a m x) subFl
    ∧ two (.dmul d a b) mulFl ∧ one (.dmulExact d a m x) mulFl
    ∧ two (.dmax d a b) (minMaxFl true) ∧ one (.dmaxExact d a m x) (minMaxFl true)
    ∧ two (.dmin d a b) (minMaxFl false) ∧ one (.dminExact d a m x) (minMaxFl false)
    ∧ MapsPoints (.daff d a m x) s [m.val] x true d false
        (affine (fun l v => (fmaFl 0 (decodeFl FP32 (line 0 l)) (decodeFl FP32 v) (decodeFl FP32 (line 1 l))).rne32)) ta
    ∧ unary (.drelu d a) (fun v => if Fl.zero.lt (decodeFl FP32 v) then v else 0)
    ∧ unary (.dabs d a) absBits
    ∧ MapsPoints (.dmix d a b m x) s [m.val] x false d true (fun l => mixLane (line 0 l) (A.lane l) (B.lane l))
        ((tagMask ta ||| tagMask tb) + frame * 65536)
    ∧ MapsPoints (.dcond d a) s [] 0 false d true (fun l => laneOf (lanePairs (A.lane l)) true) (tagMask ta + frame * 65536)
    ∧ PointWord (.dsuml d a) s [] 0 false d true
        (fun l j => if l = 0 then ((sumTree 5 ((List.range 32).map A.lane)).1.headD resetLane).getD j (0, 0)
          else if j = 0 then (0, 0x80000000) else (0, 0))
        (tagMask ta + frame * 65536) (sumTree 5 ((List.range 32).map A.lane)).2

/-- R55 to R58, R66, R241: a queued engine's word is checked at split and pushed with the values that it captures; it
waits for a pending register and stalls on a full queue. R130, R205: a RENQ entry's block takes the entry's place in
the queue; a chain reads its next block, and after a block posts and goes on or ends with its reply. -/
def Obligations.SplittingAndBlocksOfEntries : Prop :=
  (∀ (s : State) (sl : SlotId) (w : Nat) (pre : Option Nat) (e : Engine),
    (s.slot sl).task.isSome → s.fetch sl = .word w pre → queuedEngine w = some e →
    let i := Instr.splitIntoQueue sl
    let u := s.atWord sl w pre
    let v := u.slot sl
    let cap (k : Nat) : Word := match (capturedFields w)[k]? with
      | some n => v.readS n
      | none => 0
    (∀ c, u.check w pre = .trap c → exec i s = .next (u.trapHere c u.encoding))
    ∧ (∀ k, u.check w pre = .ok k → v.breaksTooFar w = true → exec i s = .next (u.trapHere 0x01 u.encoding))
    ∧ (∀ k, u.check w pre = .ok k → v.breaksTooFar w = false → v.bundles = [] →
        ((∃ n ∈ replyField w :: capturedFields w, v.isPending n = true) → Completes i s (fun t => t = u))
        ∧ ((∀ n ∈ replyField w :: capturedFields w, v.isPending n = false) →
            (barMismatch w (cap 1).toNat = true → exec i s = .next (u.trapHere 0x01 u.encoding))
            ∧ (barMismatch w (cap 1).toNat = false → u.mayPush sl e = false → Completes i s (fun t =>
                (∃ x, (t.slot sl).stall = some x ∧ x.target = sl ∧ x.engine = e) ∧ { t.slot sl with stall := none } = { v with stall := none }
                ∧ t.butSlots = u.butSlots ∧ ∀ m, m ≠ sl → t.slot m = u.slot m))
            ∧ (barMismatch w (cap 1).toNat = false → u.mayPush sl e = true → Completes i s (fun t =>
                (∃ x, ((t.slot sl).seq e).q = (v.seq e).q ++ [x] ∧ x.kind = .word ∧ x.word = w ∧ x.pre = pre
                  ∧ x.cap1 = cap 0 ∧ x.cap2 = cap 1 ∧ x.stamp = u.seqT ∧ x.held = u.queueIsFull sl e
                  ∧ x.rd = (if replyField w = 0 then 0 else v.sIndex (replyField w)))
                ∧ (∀ o, o ≠ e → (t.slot sl).seq o = v.seq o)
                ∧ (t.slot sl).pc = v.pc + BitVec.ofNat 64 (if pre.isSome then 8 else 4)
                ∧ (t.slot sl).pending = (if replyField w = 0 ∨ v.sIndex (replyField w) = 0 then v.pending
                    else v.sIndex (replyField w) :: v.pending)
                ∧ (t.slot sl).stall = none ∧ (∀ n, (t.slot sl).readS n = v.readS n) ∧ t.mem = u.mem)))))
  ∧ (∀ (s : State) (sl : SlotId) (e : Engine) (en : Entry) (iss : SlotId) (at_ n : Nat) (c : Chain),
    ((s.slot sl).seq e).q[((s.slot sl).seq e).pos]? = some en →
    let v := s.slot sl
    let q := v.seq e
    let base := s.window iss.tileId + at_
    let piece (bs : List Byte) (k o l : Nat) : Nat := blockNum (bs.drop (24 * k)) o l
    let here : State := { s with cur := { slot := sl, engine := some e, entry := en } }
    let items (bs : List Byte) : Prop := ∀ k, k < n → here.entryBad e
      (piece bs k 0 4, piece bs k 4 4, piece bs k 8 8, piece bs k 16 8) = false
    let same (t : State) : Prop := t.mem = s.mem ∧ t.cmds = s.cmds ∧ ∀ k, (t.slot sl).readS k = v.readS k
    (∀ bs, en.kind = .renq at_ iss → s.sameGang iss sl = true → s.spanHeld iss at_ (8 + 24 * n) = true → s.resident iss at_ (8 + 24 * n) = true →
        s.Clean base (8 + 24 * n) → v.csr.armed 1 2 = false → s.readNum (.eng sl e) base 8 = n → 1 ≤ n → n ≤ 16 →
        bs = s.readBytes (.eng sl e) (base + 8) (24 * n) → items bs →
        Completes (.renqBlockRead sl e) s (fun t => same t ∧ t.cur.status = .moved ∧ (t.slot iss).rq = (s.slot iss).rq - 1 ∧ ∃ es : List Entry, es.length = n
          ∧ ((t.slot sl).seq e).q = q.q.take q.pos ++ es ++ q.q.drop (q.pos + 1)
          ∧ ∀ k, k < n → ∃ y, es[k]? = some y ∧ y.kind = .word ∧ y.word = piece bs k 0 4
              ∧ y.cap1 = BitVec.ofNat 64 (piece bs k 8 8) ∧ y.cap2 = BitVec.ofNat 64 (piece bs k 16 8) ∧ y.rd = 0
              ∧ y.block = at_ ∧ y.counts = decide (k + 1 = n)))
    ∧ (e = .x → v.chain = some c → c.begun = false → c.next % 64 = 0 →
        ∀ a hd bs, s.chainPhys sl c.next 64 false = some (a, false) → s.Clean a (64 + 24 * n) →
          hd = toBytes 64 (s.viewNum (.eng sl .x) en.view en.own (Config.pick s.fresh a) a 64) →
          bs = toBytes (24 * n) (s.viewNum (.eng sl .x) en.view en.own (Config.pick s.fresh a) (a + 64) (24 * n)) →
          blockNum hd 40 4 = n → 1 ≤ n → n ≤ 16 → blockNum hd 44 20 = 0 →
          (s.chainPhys sl c.next (64 + 24 * n) false).isSome → items bs →
          (∀ k, k < n → chainForbids (piece bs k 0 4) = false) → blockNum hd 8 8 = 0 →
          Completes (.chainBlock sl) s (fun t => same t ∧ t.cur.status = .moved ∧ ∃ k2, (t.slot sl).chain = some k2
            ∧ k2.begun = true ∧ k2.next = c.next ∧ k2.after = blockNum hd 0 8 ∧ k2.paddr = blockNum hd 24 8
            ∧ k2.pinc = blockNum hd 32 8 ∧ k2.left = c.left ∧ k2.done = c.done ∧ k2.entries.length = n
            ∧ ∀ k, k < n → ∃ y, k2.entries[k]? = some y ∧ y.word = piece bs k 0 4
                ∧ y.cap1 = BitVec.ofNat 64 (piece bs k 8 8) ∧ y.cap2 = BitVec.ofNat 64 (piece bs k 16 8)))
    ∧ (e = .x → v.chain = some c → c.begun = true → c.entries = [] → (∀ x ∈ s.inflight sl, x.chained = false) →
        let last := c.after = 0 ∨ c.left = some 1
        (last → s.copyFull sl = false) →
        let done (t : State) : Prop := (t.slot sl).xchain = c.next
          ∧ (¬last → ∃ k2, (t.slot sl).chain = some k2 ∧ k2.next = c.after ∧ k2.begun = false ∧ k2.done = c.done + 1
              ∧ k2.left = c.left.map (fun x => x - 1) ∧ t.cmds = s.cmds)
          ∧ (last → (t.slot sl).chain = none ∧ ∃ k2, t.cmds = s.cmds ++ [k2] ∧ k2.engine = .x ∧ k2.rd = en.rd
              ∧ k2.reply = some (c.done + 1 + 2 ^ 32 * c.stat))
        (c.paddr = 0 → Completes (.chainBlock sl) s (fun t => done t ∧ t.mem = s.mem))
        ∧ ∀ a, c.paddr ≠ 0 → s.chainCounter sl c.paddr true = .inl a → s.Clean a 8 →
            Completes (.chainBlock sl) s (fun t => done t
              ∧ (∀ b, b < 8 → Memory.read t.mem (a + b) = (toBytes 8 ((s.showAt (.eng sl .x) a 8).readNum (.eng sl .x) a 8 + c.pinc)).getD b 0)
              ∧ ∀ y, y < a ∨ a + 8 ≤ y → Memory.read t.mem y = Memory.read s.mem y)))

/-- R69, R246, R327: what a core takes at a boundary: the oldest trap that an engine raised, a user-level event, an
exhausted budget. R109, R111, R112, R116: a word that waits is tried again: it ends with the value of its condition,
or once its limit has passed with TO and the state of the condition, or it waits on. -/
def Obligations.BoundaryEventsAndWaits : Prop :=
  (∀ (s : State) (sl : SlotId) (x : Trap) (rest : List Trap) (k : Nat),
    let v := s.slot sl
    let alone (t : State) : Prop := t.butSlots = s.butSlots ∧ ∀ m, m ≠ sl → t.slot m = s.slot m
    let page := 0x1FFFFFFB1000000 + 0x10000 * identity sl
    let entered (t : State) (cause : Nat) (val : Nat) : Prop :=
      (t.slot sl).csr = { v.csr with trapcause := cause, trappc := v.pc, trapval := BitVec.ofNat 64 val }
      ∧ (t.slot sl).level = true ∧ (t.slot sl).pc = 0x1FFFFFFB0000000#64 ∧ (t.slot sl).wait = none ∧ (t.slot sl).stall = none
      ∧ ((t.slot sl).readH 15).va = page ∧ ((t.slot sl).readH 15).valid = true
      ∧ { (t.slot sl).regs with h := [] } = { v.regs with h := [] } ∧ alone t
    (v.traps = x :: rest → v.level = false → s.hasHandler sl.part = true → x.cause ≠ 0x04 →
        ((x.cause = 0x07 ∨ x.cause = 0x0A) → s.kclass sl ≠ 0) →
        Completes (.kernelTrapEntry sl) s (fun t => entered t x.cause x.val ∧ (t.slot sl).traps = rest))
    ∧ (v.level = true → Completes (.kernelTrapEntry sl) s (fun t => t = s))
    ∧ (v.deliverable = true → Completes (.userInterruptDelivery sl) s (fun t => alone t
        ∧ (t.slot sl).pc = BitVec.ofNat 64 v.csr.uivec ∧ (t.slot sl).wait = none ∧ (t.slot sl).stall = none
        ∧ (t.slot sl).csr = { v.csr with inh := true } ∧ (t.slot sl).readS 63 = v.pc
        ∧ ∀ n, n ≠ 127 → mget (t.slot sl).regs.s n 0 = mget v.regs.s n 0))
    ∧ (v.deliverable = false → Completes (.userInterruptDelivery sl) s (fun t => t = s))
    ∧ (v.conex = some k → bitOf v.csr.conecfg 3 = true → Completes (.conex sl) s (fun t =>
        (∃ y, (t.slot sl).ending = some (.fail y) ∧ y.cause = 0x08 ∧ y.val = k) ∧ (∀ e, ((t.slot sl).seq e).q = [])
        ∧ (t.slot sl).wait = none ∧ (t.slot sl).conex = none ∧ (t.slot sl).regs = v.regs))
    ∧ (v.conex = some k → bitOf v.csr.conecfg 3 = false → v.level = false → s.hasHandler sl.part = true →
        Completes (.conex sl) s (fun t => entered t 0x08 k ∧ (t.slot sl).conex = none)))
  ∧ (∀ (s : State) (sl : SlotId) (w : Wait), (s.slot sl).wait = some w →
    let v := s.slot sl
    let again := Instr.blockingWaitRelease sl
    let limit := Instr.waitTimeout sl
    let passed (tmo : Nat) : Prop := tmo ≠ 0 ∧ w.since + 2 ^ (tmo + 8) ≤ s.now
    let ends (i : Instr) (d : Nat) (x : Nat) : Prop := Completes i s (fun t => (t.slot sl).wait = none ∧ (t.slot sl).pc = w.next
      ∧ (t.slot sl).readS d = written d (BitVec.ofNat 64 x) ∧ (∀ n, n < 64 → n ≠ d → (t.slot sl).readS n = v.readS n)
      ∧ t.mem = s.mem ∧ ∀ m, m ≠ sl → t.slot m = s.slot m)
    let stays (i : Instr) : Prop := Completes i s (fun t => t.slots = s.slots ∧ t.mem = s.mem)
    (∀ d sel cnt tmo, d < 64 → w.kind = .waitc d sel cnt tmo →
        let c := s.counter sl sel
        (c ≤ cnt → ends again d c ∧ (passed tmo → ends limit d c))
        ∧ (cnt < c → passed tmo → ends again d (2 ^ 63 + c) ∧ ends limit d (2 ^ 63 + c))
        ∧ (cnt < c → ¬passed tmo → stays again) ∧ (¬passed tmo → Completes limit s (fun t => t = s)))
    ∧ (∀ d f tmo clr, d < 64 → w.kind = .waitf d f tmo clr →
        let b := mget v.ready f 0
        (b ≠ 0 → ends again d (if bitOf b 0 then 0 else 2 ^ 63 + if bitOf b 1 then 2 ^ 62 else 0))
        ∧ (b = 0 → passed tmo → ends again d (2 ^ 63) ∧ ends limit d (2 ^ 63))
        ∧ (b = 0 → ¬passed tmo → stays again))
    ∧ (∀ d gen n tmo g, d < 64 → w.kind = .barw d gen n tmo → s.gangOf sl = some g →
        (gen < mget g.completed n 0 → ends again d 0)
        ∧ (mget g.completed n 0 ≤ gen → passed tmo → ends limit d
            (2 ^ 63 + ((List.range g.size).filter (fun m => decide (mget g.arrived (n, m) 0 ≤ gen))).length))
        ∧ (mget g.completed n 0 ≤ gen → ¬passed tmo → stays again)))

/-- R114, R193: completion of a command: its reply, its ready flags in slots that still hold its gang, its barrier
object, its counts and its event, and it is in flight no more. R200, R201: a read-stream takes its next element from
the scratchpad at the place that the pattern gives, and a write-stream stores its oldest one there. -/
def Obligations.CommandCompletionAndStreams : Prop :=
  (∀ (s : State) (c : Cmd), s.cmd? c.id = some c →
    let i := Instr.commandCompletion c.id
    let v := s.slot c.slot
    let ok := c.stat &&& 3 = 0
    let value := c.reply.getD c.stat
    let a := s.window c.slot.tileId
    let mem4 (t : State) (o : Nat) : Nat := ofBytes ((List.range 4).map (fun k => Memory.read t.mem (a + o + k)))
    ((c.executed = false ∨ c.remote ≠ [] ∨ c.epi.isSome) → Completes i s (fun t => t = s))
    ∧ (c.executed = true → c.remote = [] → c.epi = none → c.moves = [] → c.regMoves = [] → v.csr.armed 1 2 = false → Completes i s (fun t =>
        t.cmds = s.cmds.filter (fun x => x.id != c.id)
        ∧ (c.rd ≠ 0 → mget (t.slot c.slot).regs.s c.rd 0 = BitVec.ofNat 64 value
            ∧ c.rd ∉ (t.slot c.slot).pending)
        ∧ (∀ n, n ≠ c.rd → mget (t.slot c.slot).regs.s n 0 = mget v.regs.s n 0)
        ∧ (∀ f ∈ c.flags, s.reaches c f.1 = true → bitOf (mget (t.slot f.1).ready f.2 0) (if c.stat &&& 3 = 0 then 0 else 1) = true)
        ∧ (∀ x f, ((x, f) ∉ c.flags ∨ s.reaches c x = false) → mget (t.slot x).ready f 0 = mget (s.slot x).ready f 0)
        ∧ ((∃ f ∈ c.flags, f.1 = c.slot) → ok → (t.slot c.slot).csr.evlatch = true)
        ∧ (t.slot c.slot).xdoneCount = v.xdoneCount + (if c.engine = .x then 1 else 0)
        ∧ (t.slot c.slot).xbytes = v.xbytes + (if c.engine = .x then c.bits / 8 else 0)
        ∧ (t.slot c.slot).csr.fpcsr = v.csr.fpcsr ||| c.fl
        ∧ (t.slot c.slot).csr.xdone = (if c.ui ∧ c.engine ≠ .b then min 255 (v.csr.xdone + 1) else v.csr.xdone)
        ∧ (t.slot c.slot).csr.bdone = (if c.ui ∧ c.engine = .b then min 255 (v.csr.bdone + 1) else v.csr.bdone)
        ∧ (c.ui = true → (if c.engine = .b then v.csr.bdone else v.csr.xdone) = 255 → (t.slot c.slot).csr.ovf = true)
        ∧ (c.bar = none → t.mem = s.mem)
        ∧ (∀ b, c.bar = some b →
            mem4 t (b + 8) = mem4 s (b + 8) ||| c.stat % 2 ^ 32
            ∧ (mem4 s (b + 4) ≤ 1 → mem4 t b = mem4 s b ^^^ 1 ∧ mem4 t (b + 4) = mem4 s (b + 12))
            ∧ (1 < mem4 s (b + 4) → mem4 t b = mem4 s b ∧ mem4 t (b + 4) = mem4 s (b + 4) - 1)
            ∧ ∀ y, y < a + b ∨ a + b + 12 ≤ y → Memory.read t.mem y = Memory.read s.mem y))))
  ∧ (∀ (s : State) (sl : SlotId) (q : Fin 16) (z : Stream), (s.slot sl).task.isSome → mfind (s.slot sl).regs.streams q = some z →
    let v := s.slot sl
    let p := z.next + z.filled.length
    let at_ (n : Nat) := s.window sl.tileId + z.addr n
    let others (t : State) : Prop := (∀ m, m ≠ q.val → mfind (t.slot sl).regs.streams m = mfind v.regs.streams m)
      ∧ (∀ n, (t.slot sl).readS n = v.readS n) ∧ ∀ m, m ≠ sl → (t.slot m).butReplayable = (s.slot m).butReplayable
    (∀ e0 e1 e2 e3 s0 s1 s2 s3 i0 i1 i2 i3, z.ext = [e0, e1, e2, e3] → z.str = [s0, s1, s2, s3] →
        i0 < e0 → i1 < e1 → i2 < e2 → i3 < e3 →
        z.addr (i0 + e0 * (i1 + e1 * (i2 + e2 * i3))) =
          ((z.base : Int) + 4 * ((i0 : Int) * s0 + i1 * s1 + i2 * s2 + i3 * s3)).toNat)
    ∧ (z.write = false → p < z.count → z.filled.length < 256 → s.spanHeld sl (z.addr p) 4 = true →
        s.resident sl (z.addr p) 4 = true → s.Clean (at_ p) 4 → v.csr.armed 1 2 = false →
        Completes (.streamFill sl q) s (fun t => t.mem = s.mem ∧ others t
          ∧ mfind (t.slot sl).regs.streams q = some { z with filled := z.filled ++
              [(BitVec.ofNat 32 (s.viewNum (.eng sl .v) z.view z.own (Config.pick s.fresh (z.addr p)) (at_ p) 4), false)] }))
    ∧ ((z.write = true ∨ z.count ≤ p ∨ 256 + Config.streamExtra ≤ z.filled.length) → Completes (.streamFill sl q) s (fun t => t = s))
    ∧ (∀ n x rest, z.out = (n, x) :: rest → s.spanHeld sl (z.addr n) 4 = true → s.resident sl (z.addr n) 4 = true →
        Completes (.streamDrain sl q) s (fun t => others t
          ∧ (∀ b, b < 4 → Memory.read t.mem (at_ n + b) = (toBytes 4 x.toNat).getD b 0)
          ∧ (∀ y, y < at_ n ∨ at_ n + 4 ≤ y → Memory.read t.mem y = Memory.read s.mem y)
          ∧ ∃ z2, mfind (t.slot sl).regs.streams q = some z2 ∧ z2.out = rest ∧ z2.next = z.next))
    ∧ (z.out = [] → Completes (.streamDrain sl q) s (fun t => t = s)))

/-- R248, R251 to R253: the scheduler admits the first entry that fits among the first eight of the highest level, on
the lowest tile that fits, and starts the task; each full wait raises an entry by a level. R254 to R256: a core
blocked for a further 4,096 cycles sends a token; each hop takes it along the wait edges, at most eight times; a token
that comes back gives its core the reserve entry of the queue, unless that is taken. What is overdue happens as time
passes: a token goes on within 8 cycles where its hop stays in a tile, and within 64 otherwise. -/
def Obligations.AdmissionAndDeadlockProbe : Prop :=
  (∀ (s : State) (p n : Nat) (v : Part) (r : Ready) (k : Kernel) (k0 : Task) (tile : Nat), s.part? p = some v →
    let cs := candidates (s.admissible v)
    let runs := v.resetting = false ∧ v.paused = false ∧ s.fatal = none
    let i := Instr.admission p
    (∀ x ∈ cs, x ∈ v.ready ∧ ∀ y ∈ s.admissible v, y.level ≤ x.level)
    ∧ (runs → (∀ x ∈ cs, s.place p x.tasks 0 = none) → Completes i s (fun t => t = s))
    ∧ (¬runs → Completes i s (fun t => t = s))
    ∧ (∀ j, runs → cs[j]? = some r → (∀ x ∈ cs.take j, s.place p x.tasks 0 = none) → r.tasks = [k0] →
        mfind s.kernels r.kernel = some k → k.part = p → tile < 4 * s.nclus p → s.fits ⟨p, tile⟩ k0 = true →
        (∀ y, y < tile → s.fits ⟨p, y⟩ k0 = false) →
        Completes i s (fun t => (∃ w, t.part? p = some w ∧ w.ready = v.ready.erase r)
          ∧ ∃ m g k1, m < 8 ∧ (s.slot ⟨p, tile, m⟩).task = none ∧ (t.slot ⟨p, tile, m⟩).task = some k1
            ∧ k1.kernel = k0.kernel ∧ k1.status % 8 = 3 ∧ k1.gang = s.nextGang ∧ k1.rsub = k0.rsub
            ∧ mfind t.gangs s.nextGang = some g ∧ g.members = [(k0.member, ⟨p, tile, m⟩)]
            ∧ (t.slot ⟨p, tile, m⟩).pc = BitVec.ofNat 64 k0.entry ∧ (t.slot ⟨p, tile, m⟩).csr.tickets = k0.tickets
            ∧ (t.slot ⟨p, tile, m⟩).csr.cone = k.cone ∧ (t.slot ⟨p, tile, m⟩).level = false
            ∧ (∀ e, ((t.slot ⟨p, tile, m⟩).seq e).q = [])
            ∧ (∀ va a, k0.tcb = some va → s.leasePhys k va = some a →
                (∀ j, j < 4 → (t.slot ⟨p, tile, m⟩).readS (j + 1) = BitVec.ofNat 64 (s.readNum .bank (a + 16 + 8 * j) 8))
                ∧ ∀ j, 4 < j → j < 64 → (t.slot ⟨p, tile, m⟩).readS j = 0)
            ∧ ∀ j, j < 16 → bitOf k0.reqr j = true → (t.region ⟨p, tile, m⟩ j).owner = some m))
    ∧ Completes (.readyLevelRaise p n) s (fun t => ∃ w, t.part? p = some w ∧ w.ready.length = v.ready.length
        ∧ ∀ j x, v.ready[j]? = some x → w.ready[j]? = some (
            let up := min ((s.now - x.since) / 65536) (3 - x.level)
            if j = n then { x with level := x.level + up, since := x.since + 65536 * up } else x)))
  ∧ (∀ (s : State) (sl : SlotId) (x : Stall), (s.slot sl).stall = some x →
    let v := s.slot sl
    let taken := ((s.slot x.target).seq x.engine).reserve = true ∨ ∃ m u y, (m, u) ∈ s.slots ∧ u.stall = some y ∧
      y.granted = true ∧ y.target = x.target ∧ y.engine = x.engine
    let only (t : State) : Prop := { t.slot sl with stall := none } = { v with stall := none } ∧ t.butSlots = s.butSlots
      ∧ ∀ m, m ≠ sl → t.slot m = s.slot m
    let next (q : Party) : Prop := ∃ r ∈ x.token, q ∈ s.edges r
    let ends : Prop := next (.core sl) ∨ (∀ q, ¬next q) ∨ 7 ≤ x.hops
    let still (y : Stall) : Prop := y.granted = x.granted ∧ y.target = x.target ∧ y.engine = x.engine ∧ y.since = x.since
    (s.now < x.probed + 4096 → (x.token = [] ∨ s.now ≤ x.moved) → Completes (.probeToken sl) s (fun t => t = s))
    ∧ (x.probed + 4096 ≤ s.now → Completes (.probeToken sl) s (fun t => only t ∧ ∃ y, (t.slot sl).stall = some y ∧ still y
        ∧ y.probed = s.now ∧ y.probe = false ∧ y.token = [.core sl] ∧ y.hops = 0 ∧ y.moved = s.now))
    ∧ (s.now < x.probed + 4096 → x.token ≠ [] → x.moved < s.now → Completes (.probeToken sl) s (fun t => only t ∧ ∃ y,
        (t.slot sl).stall = some y ∧ still y ∧ y.probed = x.probed ∧ (y.probe = true ↔ x.probe = true ∨ next (.core sl))
        ∧ (ends → y.token = [])
        ∧ (¬ends → (∀ q, q ∈ y.token ↔ next q) ∧ y.hops = x.hops + 1 ∧ y.moved = s.now)))
    ∧ (x.probe = false → Completes (.reserveEntryGrant sl) s (fun t => t = s))
    ∧ (x.probe = true → Completes (.reserveEntryGrant sl) s (fun t => only t ∧ ∃ y,
        (t.slot sl).stall = some y ∧ y.probe = false ∧ (y.granted = true ↔ x.granted = true ∨ ¬taken)))
    ∧ (s.now < x.probed + 8192 → ∃ y, ((s.settleProbe sl).slot sl).stall = some y ∧ s.now < y.probed + 4096 ∧ y.probe = false
        ∧ (y.token ≠ [] → s.now < y.moved +
            (if ∀ r ∈ y.token, ∀ q ∈ s.edges r, q.tile = r.tile then 8 else 64))))

/-- R332 to R334: replay restarts a task in its slot once its commands in flight are complete; failure counts in the
kernel, spawns the error handler and frees the slot. That a replay keeps the budget event of CONEX that waits (log
entry 61) and that the error handler’s tickets are the current TICKETS (log entry 88) are deduced. -/
def Obligations.ReplayAndFailureOfTasks : Prop :=
  ∀ (s : State) (sl : SlotId) (k0 : Task) (k : Kernel) (x : Trap) (w : Part),
    (s.slot sl).task = some k0 → s.kernelOf sl = some k →
    let v := s.slot sl
    let quiet := s.inflight sl = []
    (v.ending = some .replay → ¬quiet → Completes (.taskReplay sl) s (fun t => t = s))
    ∧ (v.ending = some .replay → quiet → Completes (.taskReplay sl) s (fun t =>
        let u := t.slot sl
        u.pc = BitVec.ofNat 64 k0.entry ∧ u.ending = none ∧ u.wait = none ∧ u.level = false
        ∧ (∃ k1, u.task = some k1 ∧ k1.status = 64 + 3 ∧ { k1 with status := k0.status, args := k0.args } = k0)
        ∧ u.conex = v.conex ∧ u.csr.cone = v.csr.cone ∧ u.csr.conecfg = v.csr.conecfg ∧ u.csr.tickets = v.csr.tickets
        ∧ u.regs.frameCounter = 1 ∧ (∀ c, u.csr.gen c = seedGenerator 0 c) ∧ (∀ e, (u.seq e).q = [])
        ∧ (∀ f, mget u.ready f 0 = 0) ∧ (∀ n, (t.acc sl n).mode = 0 ∧ ∀ i j, (t.acc sl n).at i j = 0)
        ∧ (∀ m e, u.regs.el m e = 0) ∧ (∀ h, h < 16 → (u.readH h).valid = false)
        ∧ (∀ va a, k0.tcb = some va → s.leasePhys k va = some a → ∀ j, j < 4 →
            u.readS (j + 1) = BitVec.ofNat 64 (s.readNum .bank (a + 16 + 8 * j) 8))
        ∧ (∀ j, j < 16 → (s.region sl j).owner = some sl.slot →
            ((s.region sl j).ralloc = true → (t.region sl j).owner = none)
            ∧ ((s.region sl j).ralloc = false → (t.region sl j).owner = some sl.slot ∧ (t.region sl j).pinned = false
                ∧ (k0.tcb = none → ∀ o, o < 0x40000 →
                    Memory.read t.mem (s.window sl.tileId + j * 0x40000 + o) = 0)))))
    ∧ (v.ending = some (.fail x) → s.inflight sl ≠ [] → Completes (.taskFailure sl) s (fun t => t = s))
    ∧ (v.ending = some (.fail x) → s.inflight sl = [] → mfind s.kernels k0.kernel = some k → s.part? k.part = some w →
        Completes (.taskFailure sl) s (fun t => (t.slot sl).task = none
          ∧ (mfind t.kernels k0.kernel).map (fun y => y.failed) = some (k.failed + 1)
          ∧ (k0.handler = false → k.ehentry ≠ 0 → ∃ u r h, t.part? k.part = some u ∧ r ∈ u.ready ∧ r.level = 3 ∧ r.tasks = [h]
              ∧ h.entry = k.ehentry ∧ h.handler = true ∧ h.tcb = none ∧ h.reqm = k0.reqm ∧ h.reqa = k0.reqa ∧ h.reqr = k0.reqr
              ∧ h.rsub = k0.rsub ∧ h.tickets = v.csr.tickets
              ∧ h.args = [k0.tcb.getD 0, s.errorRecordVa sl, x.cause, identity sl].map (BitVec.ofNat 64))
          ∧ ((k0.handler = true ∨ k.ehentry = 0) → ∀ u, t.part? k.part = some u → u.ready = w.ready)))

/-- R305, R308 to R310, R313, R317, R340: an idle engine draws, once a cycle, among its ready slots in proportion to
their weights at the start of the cycle, with the bound on losses and the round robin of zero weights; a grant ends
with its compensation factor, by its quantum or YIELD only where no MEPI is in progress; revaluations are installed;
loans and the records of issuers travel. R319, R320: a slot that finds no region draws a victim in inverse proportion
to its owner's weight, and the victim's bytes are kept; an owner that stalls on its spilled region has them back. What
an access meets that has a resident region and a spilled copy of one number (log entry 51) and how loans are shared
and pass on (log entry 54) are deduced. -/
def Obligations.KilnsAndResidency : Prop :=
  (∀ (s : State) (tl : TileId) (e : Engine) (p : Part) (n : Nat), s.part? tl.part = some p →
    let k := s.kiln tl e
    let u := s.settleLoans tl.part
    let r (i : Nat) : Bool := s.cur.ready.contains i && decide (i < 8)
    let w (i : Nat) : Nat := mget k.start i 0
    let upTo (i : Nat) : Nat := (((List.range i).filter r).map w).sum
    let x := xorshift k.gen
    let q := quantum e
    let slotAt (i : Nat) : SlotId := ⟨tl.part, tl.tile, i⟩
    (∀ i, i < 8 → mget ((s.noteWeights tl e).kiln tl e).start i 0 = s.weight (slotAt i) e)
    ∧ (e ≠ .b → k.grant = none → k.drawn ≠ some s.now → (∃ i, r i = true) → Completes (.kilnDraw tl e) s (fun t =>
        let k2 := t.kiln tl e
        ∃ win, r win = true ∧ k2.grant = some ⟨win, s.now⟩ ∧ k2.drawn = some s.now ∧ k2.gen = x ∧ mget k2.factor win 0x10000 = 0x10000
          ∧ (∀ i, mget k2.loss i 0 = if i = win then 0 else if r i = true ∧ 0 < w i then min (mget k.loss i 0 + 1) 1024
              else mget k.loss i 0)
          ∧ ((∃ i, r i = true ∧ 0 < w i ∧ mget k.loss i 0 = 1024) → 0 < w win ∧ mget k.loss win 0 = 1024 ∧ k2.rr = k.rr
              ∧ ∀ i, i < win → ¬(r i = true ∧ 0 < w i ∧ mget k.loss i 0 = 1024))
          ∧ ((¬∃ i, r i = true ∧ 0 < w i ∧ mget k.loss i 0 = 1024) → 0 < upTo 8 →
              upTo win ≤ x * upTo 8 / 2 ^ 32 ∧ x * upTo 8 / 2 ^ 32 < upTo (win + 1) ∧ k2.rr = k.rr)
          ∧ (upTo 8 = 0 → k2.rr = win ∧ ∃ d, d < 8 ∧ win = (k.rr + 1 + d) % 8 ∧ ∀ c, c < d → r ((k.rr + 1 + c) % 8) = false)))
    ∧ ((e = .b ∨ k.grant ≠ none ∨ k.drawn = some s.now ∨ ∀ i, r i = false) → Completes (.kilnDraw tl e) s (fun t => t = s))
    ∧ (∀ g, k.grant = some g →
        let yields := e ∈ (s.slot (slotAt g.slot)).yield
        let used := max 1 (min (s.now - g.start) q)
        let between := ¬(e = .m ∧ (s.epiCmd (slotAt g.slot)).isSome)
        let ended := between ∧ (g.start + q ≤ s.now ∨ yields) ∨ ((s.slot (slotAt g.slot)).seq e).next = false ∨ g.slot ∉ s.cur.ready
          ∨ s.engineStopped (slotAt g.slot) e = true
        (ended → Completes (.grantEnd tl e) s (fun t => (t.kiln tl e).grant = none ∧ (t.kiln tl e).gen = k.gen
            ∧ mget (t.kiln tl e).factor g.slot 0x10000 =
              (if used < q ∧ ¬yields then min (2 ^ 16 * q / used) 0x100000 else 0x10000)
            ∧ e ∉ (t.slot (slotAt g.slot)).yield))
        ∧ (¬ended → Completes (.grantEnd tl e) s (fun t => t = s)))
    ∧ (k.stale ≠ none → Completes (.revaluation tl e) s (fun t => (t.kiln tl e).stale = none ∧ (t.kiln tl e).grant = k.grant
        ∧ ∀ i, i < 8 → mget (t.kiln tl e).base i 0 = s.baseValue (slotAt i)))
    ∧ (k.stale = none → Completes (.revaluation tl e) s (fun t => t = s))
    ∧ Completes (.loanHop tl.part n) s (fun t => ∃ v v2, u.part? tl.part = some v ∧ t.part? tl.part = some v2
        ∧ v2.loans.length = v.loans.length ∧ ∀ j l, v.loans[j]? = some l → v2.loans[j]? = some (if j = n then
            { l with hops := if l.gone then l.hops - 1 else min l.path.length (l.hops + 1) } else l))
    ∧ (∀ v m f i d rest, u.part? tl.part = some v → v.loans.length ≤ n → (s.arrivals tl.part)[n - v.loans.length]? = some m →
        (s.slot m).arriving = (f, i, d) :: rest → Completes (.loanHop tl.part n) s (fun t => (t.slot m).arriving = rest
          ∧ ∀ y, mget (t.slot m).issuer y noIdentity = if y = f then i else mget (s.slot m).issuer y noIdentity)))
  ∧ (∀ (s : State) (sl : SlotId) (k : Fin 16) (p : Part) (wt : Wait) (d cls : Nat), s.part? sl.part = some p →
    let tl := sl.tileId
    let u := s.settleLoans sl.part
    let at_ (j : Nat) := s.window tl + j * 0x40000
    let cand (j : Nat) : Bool := decide (j < 16) && s.spillable tl j && (s.region sl j).owner != some sl.slot
    let w (j : Nat) : Nat := u.ownerWeight tl j
    let total := (((List.range 16).filter cand).map w).sum
    let share (j : Nat) : Nat := if total = 0 then 1 else total - w j
    let upTo (j : Nat) : Nat := (((List.range j).filter cand).map share).sum
    let x := xorshift (s.tile tl).resGen
    let r := s.region sl k
    ((s.slot sl).wait = some wt → wt.kind = .ralloc d cls → (∀ j, j < 16 → s.freeFor sl j = false) → s.cleared sl = none →
        (∃ j, cand j = true) → (∀ j, cand j = true → s.Clean (at_ j) 0x40000) →
        Completes (.regionSpill sl) s (fun t => ∃ v o c, cand v = true ∧ (s.region sl v).owner = some o
          ∧ (∀ j, cand j = true → j ≠ v → upTo v ≤ x * upTo 16 / 2 ^ 32 ∧ x * upTo 16 / 2 ^ 32 < upTo (v + 1))
          ∧ (t.tile tl).resGen = x ∧ (t.region sl v).owner = none ∧ (t.region sl v).spilled = (s.region sl v).spilled ++ [c]
          ∧ c.slot = o ∧ c.cls = (s.region sl v).cls
          ∧ (∀ n, n < 0x40000 → Memory.read c.cells n = Memory.read s.mem (at_ v + n) ∧ Memory.read t.mem (at_ v + n) = 0)
          ∧ (∀ n, n < at_ v ∨ at_ v + 0x40000 ≤ n → Memory.read t.mem n = Memory.read s.mem n)
          ∧ (t.tile tl).spilling = (s.tile tl).spilling ++ [⟨v, sl.slot, false⟩] ∧ t.slots = s.slots))
    ∧ ((s.slot sl).wait = none → Completes (.regionSpill sl) s (fun t => t = s))
    ∧ (∀ c, r.firstWant = some c → c.slot = sl.slot → (s.slot sl).csr.armed 1 0 = false → (∀ y ∈ (s.tile tl).spilling, y.region ≠ k.val) → r.owner = none →
        Memory.wf c.cells = true → (∀ y ∈ c.cells, y.1 < 0x40000) → (∀ n, n < 0x40000 → Memory.read s.mem (at_ k + n) = 0) →
        Completes (.regionRefill sl k) s (fun t => (t.region sl k).owner = some sl.slot ∧ (t.region sl k).cls = c.cls
          ∧ (t.region sl k).pinned = false ∧ (t.region sl k).immune = s.now + 65536
          ∧ (t.region sl k).spilled = r.spilled.erase c
          ∧ (∀ n, n < 0x40000 → Memory.read t.mem (at_ k + n) = Memory.read c.cells n)
          ∧ (∀ n, n < at_ k ∨ at_ k + 0x40000 ≤ n → Memory.read t.mem n = Memory.read s.mem n) ∧ t.slots = s.slots))
    ∧ (r.firstWant = none → Completes (.regionRefill sl k) s (fun t => t = s)))

/-- R372, R377, R378, R380, R381: a doorbell moves TAIL or is dropped and counted; a launch begins with the next
record of a queue and its checks; an answer to a page request; the moment when no task of a kernel is left to run, and
its completion with its entry. A fatal error, a reset of the partition (R431, R441) or a kill of the context (R384)
holds a waiting launch and a completion where they are. Which queue a launch takes is free (log entry 20). -/
def Obligations.LaunchesOfKernels : Prop :=
  ∀ (s : State) (fn c q tail p kid group : Nat) (v : Part) (k : Kernel) (lq : LaunchQueue) (g : PageReq),
    let counted (t : State) (lo : Nat) : Prop := field (t.reg fn 0x1040) lo 16 = min (field (s.reg fn 0x1040) lo 16 + 1) 65535
      ∧ t.mem = s.mem ∧ t.slots = s.slots ∧ t.kernels = s.kernels
    let may (Q : LaunchQueue) : Prop := Q.tail ≤ tail ∧ tail ≤ Q.head + 2 ^ Q.cap ∧ Q.feed = false ∧ Q.en = true
    let pages (k : Kernel) : List Page := (List.range k.ranges.length).flatMap (fun r => (s.pagesOf k r).mapped.map (·.1))
    let ready (t : State) (kid : Nat) (k : Kernel) : Prop := ∃ w, t.part? k.part = some w ∧
      w.ready.length = v.ready.length + k.gangs ∧ ∀ j, j < k.gangs → ∃ r, w.ready[v.ready.length + j]? = some r
        ∧ r.level = k.prio ∧ r.kernel = kid ∧ r.since = s.now ∧ r.tasks = initialGang kid k j (s.partCycle k.part)
    let runs (k : Kernel) : Prop := s.firstBadRange k = none ∧ s.absentPages k = [] ∧ ∀ r ∈ v.ready, r.tasks.length ≤ 4 * s.nclus p
    let kept (k : Kernel) : Prop := ∀ g ∈ pages k, ∀ a ∈ g.frames, (s.frame a).state = 1
      ∧ (s.frame a).keyVal = ((mfind s.mp.keySlots g.key).map (·.2)).getD 0
    let idle (i : Nat) : Prop := ∀ e ∈ s.kernels, e.1 ≠ i → e.2.fn = fn → e.2.phase ≠ 0
    ((s.ctx fn c).state ≠ 0 → s.launchQueue fn c q = some lq → may lq →
        Completes (.launchDoorbell fn c q tail) s (fun t => t.slots = s.slots
          ∧ (∀ b, b < 8 → Memory.read t.mem (lq.at_ + 8 + b) = (toBytes 8 tail).getD b 0)
          ∧ ∀ y, y < lq.at_ + 8 ∨ lq.at_ + 16 ≤ y → Memory.read t.mem y = Memory.read s.mem y))
    ∧ ((s.ctx fn c).state = 0 ∨ (∀ Q, s.launchQueue fn c q = some Q → ¬may Q) →
        Completes (.launchDoorbell fn c q tail) s (fun t => counted t 0))
    ∧ (s.part? p = some v → v.resetting = false → v.paused = false → s.fatal = none → s.startable p ≠ [] →
        Completes (.launchStart p) s (fun t => t.nextKernel = s.nextKernel + 1 ∧ ∃ x Q, x ∈ s.startable p
          ∧ s.launchQueue x.1 x.2.1 x.2.2 = some Q
          ∧ (let no := s.mayNotReplay v x.1 x.2.1 x.2.2 Q.head (Q.record Q.head)
            let read := s.parseLaunch p x.1 x.2.1 x.2.2 Q.head (Q.record Q.head)
            let fails (st : Nat) : Prop := ∃ k1, mfind t.kernels s.nextKernel = some k1 ∧ k1.phase = 2 ∧ k1.status = st
              ∧ k1.index = Q.head
            (no = true → fails 6 ∧ t.mem = s.mem)
            ∧ (no = false → read = none → fails 4)
            ∧ ∀ k0, no = false → read = some k0 →
              (4 * s.nclus p < k0.gangSize → mfind t.kernels s.nextKernel = some { k0 with phase := 2, status := 5 } ∧ t.mem = s.mem)
              ∧ (k0.gangSize ≤ 4 * s.nclus p → s.groupLocked k0 = true →
                  mfind t.kernels s.nextKernel = some k0 ∧ t.mem = s.mem)
              ∧ (k0.gangSize ≤ 4 * s.nclus p → s.groupLocked k0 = false →
                  (∀ r, s.firstBadRange k0 = some r →
                    mfind t.kernels s.nextKernel = some { k0 with phase := 2, status := 3, detail := r })
                  ∧ (runs k0 → mfind t.kernels s.nextKernel = some { k0 with phase := 1, pages := pages k0, asked := [] }
                      ∧ ready t s.nextKernel k0
                      ∧ ∀ Q2, s.launchQueue k0.fn k0.ctx k0.queue = some Q2 → kept k0 →
                          (∀ b, b < 8 → Memory.read t.mem (Q2.at_ + b) = (toBytes 8 (Q.head + 1)).getD b 0))))))
    ∧ ((s.fn fn).groups.find? (fun x => x.group == group) = some g →
        let stale := g.tag ≠ (s.ctx fn g.ctx).tag ∨ (s.ctx fn g.ctx).state = 0 ∨ (s.ctx fn g.ctx).state = 5
        (stale → ∀ ok, Completes (.pageRequestResponse fn group ok) s (fun t =>
            (∀ e ∈ s.kernels, e.2.fn = fn → e.2.phase ≠ 0) → counted t 16
              ∧ (t.fn fn).groups = (s.fn fn).groups.filter (fun x => x.group != group)))
        ∧ (¬stale → mfind s.kernels g.kernel = some k → k.phase = 0 → k.refused = none → k.fn = fn → k.ctx = g.ctx →
            Completes (.pageRequestResponse fn group false) s (fun t =>
              (idle g.kernel → (t.fn fn).groups = (s.fn fn).groups.filter (fun x => x.group != group))
              ∧ ∃ k1, mfind t.kernels g.kernel = some k1 ∧ k1.refused = some g.range
                ∧ (s.launchHeld k = true → k1.phase = 0)
                ∧ (s.launchHeld k = false → (∀ x ∈ (s.fn fn).groups, x.group ≠ group → x.kernel ≠ g.kernel) →
                    k1.phase = 2 ∧ k1.status = 2 ∧ k1.detail = g.range))))
    ∧ (mfind s.kernels kid = some k →
        let held := s.fatal ≠ none ∨ (∃ w, s.part? k.part = some w ∧ w.resetting = true) ∨ (s.ctx k.fn k.ctx).state = 5
        let busy := k.phase ≤ 1 ∨ held ∨ s.groupsOf kid k ≠ []
        let left := (v.spawned.filter (fun w => w.kernel == kid)).length
        let status := if k.phase = 2 then k.status else if k.failed = 0 then 0 else 1
        (busy → Completes (.kernelCompletion kid) s (fun t => t = s))
        ∧ (¬busy → Completes (.kernelCompletion kid) s (fun t => mfind t.kernels kid = none))
        ∧ (k.phase = 1 → s.kernelBusy kid k = false → s.part? k.part = some v →
            let t := s.abandonIdle kid
            mfind t.kernels kid = some { k with phase := 3, abandoned := k.abandoned + left }
            ∧ (∃ w, t.part? k.part = some w ∧ w.spawned = v.spawned.filter (fun y => y.kernel != kid)) ∧ t.slots = s.slots
            ∧ t.mem = s.mem)
        ∧ (∀ pg, ¬busy → s.part? k.part = some v → k.phase = 3 → k.lf = false → v.spawned = [] →
            s.launchQueue k.fn k.ctx k.queue = some lq → s.residentPage k.fn k.ctx (lq.entry k.index) 0 = some pg →
            pg.bk = false →
            let a := s.backing .bank pg.frame pg.size pg.shadow (lq.entry k.index - pg.va)
            Completes (.kernelCompletion kid) s (fun t =>
              (∀ b, b < 32 → Memory.read t.mem (a + b) = (toBytes 1 status ++ toBytes 3 0
                ++ toBytes 4 k.index ++ toBytes 8 k.index ++ toBytes 4 k.failed ++ toBytes 4 k.abandoned
                ++ toBytes 8 (s.partCycle k.part)).getD b 0)
              ∧ (∀ y, y < a ∨ a + 32 ≤ y → Memory.read t.mem y = Memory.read s.mem y) ∧ a / 8 ∈ t.tags)))

/-- R387 to R390, R398 to R405: the commands of a context: which are refused, what CREATE, KILL, PREEMPT and RESUME
start, and how they end; the slice timer, the deadline of a drain, the saving of a task. That a discarded gang is one
ready entry again (log entry 65), which event of a command is the host’s write (log entry 97), the turn that a tile
keeps (log entry 81) and the packing of a saved image (log entry 29) are the model’s reading. -/
def Obligations.ContextsAreCreatedSavedAndKilled : Prop :=
  ∀ (s : State) (fn c : Nat) (sl : SlotId) (k : Kernel) (k0 : Task) (v : Part), fn < 32 → c < 8 →
    let st := s.reg fn 0x1118
    let x := s.ctx fn c
    let b := s.descriptor fn
    let quiet : Prop := ∀ d, d < 8 → (s.ctx fn d).state ≠ 5
    let free := bitOf st 0 = false ∧ fn ≠ 0 ∧ quiet
    let answered (t : State) (r n : Nat) : Prop := t.reg fn 0x1118 = st / 2 % 2 * 2 + r * 16 + n * 2 ^ 32
    let still (t : State) : Prop := t.slots = s.slots ∧ t.mem = s.mem ∧ t.kernels = s.kernels ∧ t.ctx fn c = x
    let refuses (i : Instr) (op : Nat) (from_ : Nat → Prop) : Prop :=
      (bitOf st 0 = true → op ≠ 2 → s.commandIs fn op c = false → Completes i s (fun t => bitOf (t.reg fn 0x1118) 1 = true ∧ still t))
      ∧ (bitOf st 0 = false → ¬quiet → Completes i s (fun t => bitOf (t.reg fn 0x1118) 1 = true ∧ still t))
      ∧ (bitOf st 0 = false → fn = 0 → quiet → Completes i s (fun t => answered t 1 0 ∧ still t))
      ∧ (free → ¬from_ x.state → Completes i s (fun t => answered t 2 0 ∧ still t))
    let ended := x.started + x.deadline ≤ s.now
    let place := s.gangPlaces (s.partOfFn fn) fn c
    let image := s.imageVa fn c
    refuses (.create fn c) 1 (fun n => n = 0) ∧ refuses (.kill fn c) 2 (fun n => n ≠ 0)
    ∧ (s.fnResetting fn = false → refuses (.preempt fn c) 3 (fun n => n = 1) ∧ refuses (.revoke fn c) 5 (fun n => n = 1 ∨ n = 3)
        ∧ refuses (.release fn c) 6 (fun n => n = 1 ∨ n = 3))
    ∧ (x.state ≠ 3 → x.state ≠ 4 → refuses (.resume fn c) 4 (fun n => n = 3))
    ∧ (free → x.state = 0 → s.checkDescriptor fn b = none → Completes (.create fn c) s (fun t => answered t 1 0
        ∧ t.slots = s.slots ∧ t.kernels = s.kernels ∧ t.ctx fn c = x))
    ∧ (∀ pins, free → x.state = 0 → s.checkDescriptor fn b = some pins → Completes (.create fn c) s (fun t =>
        let y := t.ctx fn c
        let tag := ((s.fn fn).lastTag + 1) % 65536
        answered t 0 tag ∧ (t.fn fn).lastTag = tag ∧ y.state = 1 ∧ y.tag = tag ∧ y.pinned = pins ∧ y.ran = s.now
          ∧ y.ptroot = blockNum b 0 8 ∧ y.lqBase = blockNum b 8 8 ∧ y.errBase = blockNum b 16 8 ∧ y.spillBase = blockNum b 24 8
          ∧ y.saveBase = blockNum b 32 8 ∧ y.node = blockNum b 40 2 ∧ y.pdeadline = blockNum b 42 2 ∧ y.slice = blockNum b 48 4
          ∧ t.slots = s.slots ∧ t.mem = s.mem))
    ∧ (free → x.state ≠ 0 → x.state ≠ 5 → s.fnResetting fn = false → Completes (.kill fn c) s (fun t => (t.ctx fn c).state = 5
        ∧ (t.ctx fn c).saved = [] ∧ bitOf (t.reg fn 0x1118) 0 = true ∧ ∀ m ∈ s.slotsOf fn c, (∀ e, ((t.slot m).seq e).q = [])
          ∧ (t.slot m).wait = none ∧ (t.slot m).traps = [] ∧ (t.slot m).chain = none))
    ∧ (x.state ≠ 5 → Completes (.killAcknowledged fn c) s (fun t => t = s))
    ∧ (x.state = 5 → (s.fn fn).flr = false → Completes (.killAcknowledged fn c) s (fun t => (t.ctx fn c).state = 0
        ∧ (∀ m ∈ s.slotsOf fn c, (t.slot m).task = none ∧ ∀ d ∈ t.cmds, d.slot ≠ m)
        ∧ (∀ i y, mfind s.kernels i = some y → y.fn = fn → y.ctx = c → mfind t.kernels i = none)
        ∧ (∀ a, (s.frame a).state = 1 → (s.frame a).fn = fn → (s.frame a).ctx = c → (s.frame a).tag = x.tag → (t.frame a).state = 2)
        ∧ (s.commandIs fn 2 c = true → answered t 0 0)))
    ∧ (free → x.state = 1 → s.fnResetting fn = false →
        let us := if s.reg fn 0x1108 % 65536 ≠ 0 then s.reg fn 0x1108 % 65536 else if x.pdeadline ≠ 0 then x.pdeadline else 200
        (s.slotsOf fn c ≠ [] → Completes (.preempt fn c) s (fun t => (t.ctx fn c).state = 2 ∧ (t.ctx fn c).started = s.now
          ∧ (t.ctx fn c).deadline = 2100 * us ∧ SlotsButYield s t
          ∧ ∀ m ∈ s.slotsOf fn c, 1 ≤ ((t.ctx fn c).modeOf (s.gangNo m)).1 ∧ ((t.ctx fn c).modeOf (s.gangNo m)).1 ≤ 3
            ∧ ((∃ g, s.gangOf m = some g ∧ g.members ≠ []) → ((t.ctx fn c).modeOf (s.gangNo m)).2 = s.modeCluster m)))
        ∧ (s.slotsOf fn c = [] → Completes (.preempt fn c) s (fun t => (t.ctx fn c).state = 3 ∧ answered t 0 0)))
    ∧ (s.part? (s.partOfFn fn) = some v →
        let starved := ∃ r k1, r ∈ v.ready ∧ (∃ u, r.unfit = some u ∧ u + 21000 ≤ s.now) ∧ s.place (s.partOfFn fn) r.tasks 0 = none ∧
          mfind s.kernels r.kernel = some k1 ∧ ¬(k1.fn = fn ∧ k1.ctx = c)
        (x.state = 1 → x.slice ≠ 0 → x.ran + 2100 * x.slice ≤ s.now → starved → s.slotsOf fn c ≠ [] →
          Completes (.sliceTimer fn c) s (fun t => (t.ctx fn c).state = 2 ∧ (t.ctx fn c).started = s.now))
        ∧ (¬(x.state = 1 ∧ x.slice ≠ 0 ∧ x.ran + 2100 * x.slice ≤ s.now ∧ starved) →
          Completes (.sliceTimer fn c) s (fun t => t = s)))
    ∧ (∀ cl, s.kernelOf sl = some k → k.fn = fn → k.ctx = c → x.state = 2 → mfind x.modes (s.gangNo sl) = some (1, cl) →
        (ended → Completes (.drainDeadline sl) s (fun t => cl ∈ (t.ctx fn c).overran ∧ t.slots = s.slots
          ∧ ∀ g, (t.ctx fn c).modeOf g = if mfind x.modes g = some (1, cl) then (2, cl) else x.modeOf g))
        ∧ (¬ended → Completes (.drainDeadline sl) s (fun t => t = s)))
    ∧ (s.kernelOf sl = some k → k.fn = fn → k.ctx = c → x.state = 2 → (s.slot sl).task = some k0 → (s.slot sl).ending = none →
        ((x.modeOf k0.gang).1 = 2 →
          (s.settled sl = false → Completes (.taskSave sl) s (fun t => t = s))
          ∧ (s.settled sl = true → s.flips = [] → Completes (.taskSave sl) s (fun t => (t.slot sl).task = none
              ∧ (t.ctx fn c).nSaved = x.nSaved + 1 ∧ ∃ y, (t.ctx fn c).saved = x.saved ++ [y] ∧ y.tile = sl.tile
                ∧ y.slotNo = sl.slot ∧ y.gang = k0.gang ∧ y.slot = (s.slot sl).atSave)))
        ∧ ((x.modeOf k0.gang).1 = 3 → s.gangSlots sl = [sl] → s.inflight sl = [] → savedGang x.saved k0.gang = [] →
            s.part? k.part = some v → k0.member < 64 → 1 ≤ s.nclus k.part →
            (∀ r ∈ v.ready, r.tasks.length ≤ 4 * s.nclus k.part) → Completes (.taskSave sl) s (fun t => (t.slot sl).task = none
              ∧ (t.ctx fn c).nDiscarded = x.nDiscarded + 1 ∧ ∃ w r, t.part? k.part = some w ∧ w.ready = v.ready ++ [r]
                ∧ r.level = k0.prio ∧ r.rdyc = k0.rdyc ∧ r.seqNo = k0.seqNo
                ∧ r.tasks = [{ k0 with status := k0.status / 64 % 4 * 64 + 2 }])))
    ∧ (free → x.state = 3 → x.auto = false → Completes (.resume fn c) s (fun t => (t.ctx fn c).state = 4
        ∧ (t.ctx fn c).restored = 0 ∧ bitOf (t.reg fn 0x1118) 0 = true ∧ t.slots = s.slots))
    ∧ (x.state = 4 → x.saved = [] → s.held (s.partOfFn fn) = false → Completes (.resume fn c) s (fun t =>
        if s.hostWrote then (bitOf st 0 = true → bitOf (t.reg fn 0x1118) 1 = true ∧ still t)
        else (t.ctx fn c).state = 1 ∧ (t.ctx fn c).ran = s.now ∧ t.slots = s.slots
          ∧ (s.commandIs fn 4 c = true → answered t 0 x.restored)))
    ∧ (∀ y z, x.state = 4 → x.saved = [y] → s.held (s.partOfFn fn) = false → place [y] = some [(z, sl)] →
        Completes (.resume fn c) s (fun t => s.hostWrote = false → (t.ctx fn c).saved = [] ∧ (t.ctx fn c).restored = x.restored + 1
          ∧ z = s.asWritten fn c y ∧ (t.slot sl).task = z.slot.task
          ∧ (∀ n, 1 ≤ n → n < 64 → mget (t.slot sl).regs.s n 0 =
              BitVec.ofNat 64 (s.pinnedNum fn c (image ⟨sl.part, y.tile, y.slotNo⟩ + 0x100 + 8 * n) 8))
          ∧ (t.slot sl).pc =
              BitVec.ofNat 64 (s.pinnedNum fn c (image ⟨sl.part, y.tile, y.slotNo⟩ + 0x100 + 8 * 81) 8 / 4 * 4)))

/-- R391, R396, R397: REVOKE takes ranges out of leases and makes their handles invalid; RELEASE quarantines the
frames of a span; a scrubbed frame reads zero; the nodes of the currency tree. When REVOKE ends and what RELEASE puts
into quarantine is deduced (log entry 64); which free number a currency node takes (log entry 20) and which function a
granted frame goes to (log entry 27) are free. -/
def Obligations.LeasesFramesAndCurrencies : Prop :=
  ∀ (s : State) (fn c f : Nat), fn < 32 → c < 8 →
    let st := s.reg fn 0x1118
    let x := s.ctx fn c
    let base := s.reg fn 0x1108
    let len := s.reg fn 0x1110
    let free := bitOf st 0 = false ∧ ∀ d, d < 8 → (s.ctx fn d).state ≠ 5
    let answered (t : State) (r n : Nat) : Prop := t.reg fn 0x1118 = st / 2 % 2 * 2 + r * 16 + n * 2 ^ 32
    let aligned := base % 0x10000 = 0 ∧ len % 0x10000 = 0
    let ready := free ∧ fn ≠ 0 ∧ (x.state = 1 ∨ x.state = 3) ∧ s.fnResetting fn = false
    let hit (k : Kernel) (r : Nat) : Prop := k.fn = fn ∧ k.ctx = c ∧ k.phase ≠ 2 ∧ r ∉ k.revoked ∧ ∃ y, k.ranges[r]? = some y
      ∧ 0 < len ∧ base < y.base + y.len ∧ y.base < base + len
    let mapped (a : Nat) : Prop := ∃ q ∈ (s.pagesFrom fn c 0 (base + len) (len / 0x10000) base).mapped, a ∈ q.1.frames
    let leased := ∃ i k p, (i, k) ∈ s.kernels ∧ (k.phase = 1 ∨ k.phase = 3) ∧ p ∈ k.pages ∧ p.range ∉ k.revoked
      ∧ ((k.fn = fn ∧ k.ctx = c ∧ 0 < len ∧ base < p.va + p.size ∧ p.va < base + len) ∨ ∃ a ∈ p.frames, mapped a)
    let parent := s.reg fn 0x1108 % 1024
    let tops := fn = 0 ∧ parent = 0
    let may := s.hasNode parent = true ∧ s.depthOf 5 parent < 3 ∧ (fn = 0 ∨ s.ownNode fn parent = true) ∧ s.freeNodes ≠ []
      ∧ (tops → len % 32 ≠ 0)
    let node := s.reg fn 0x1108 % 1024
    let used := (∃ i y, (i, y) ∈ s.currencies ∧ y.parent = node) ∨ ∃ i g j y, (i, g) ∈ s.fns ∧ (j, y) ∈ g.ctxs ∧ y.state ≠ 0 ∧ y.node = node
    let funds := field (s.reg fn 0x1108) 32 32
    (ready → ¬aligned → Completes (.revoke fn c) s (fun t => answered t 1 0) ∧ Completes (.release fn c) s (fun t => answered t 1 0))
    ∧ (ready → aligned → s.cmds = [] → Completes (.revoke fn c) s (fun t => (∃ n, answered t 0 n) ∧ t.mem = s.mem
        ∧ (∀ i k r, mfind s.kernels i = some k → k.phase ≠ 0 → hit k r → ∃ k2, mfind t.kernels i = some k2 ∧ r ∈ k2.revoked)
        ∧ (∀ i k r, mfind s.kernels i = some k → k.phase = 0 → hit k r → ∃ k2, mfind t.kernels i = some k2 ∧ k2.phase = 2 ∧ k2.status = 3)
        ∧ ∀ sl k r j, s.kernelOf sl = some k → hit k r → k.inRange r (mget (s.slot sl).regs.h j {}).va = true →
            (mget (t.slot sl).regs.h j {}).valid = false))
    ∧ (ready → aligned → leased → Completes (.release fn c) s (fun t => answered t 1 0 ∧ t.frames = s.frames))
    ∧ (ready → aligned → ¬leased → Completes (.release fn c) s (fun t => (∃ n, answered t 0 n) ∧ t.mem = s.mem
        ∧ ∀ a, mapped a → s.pinnedFrame a = false →
            ((((s.frame a).state = 0 ∨ (s.frame a).state = 3) ∧ Config.poolOf (a / 0x10000) = fn) ∨ ((s.frame a).state = 1 ∧ (s.frame a).fn = fn ∧ (s.frame a).ctx = c ∧ (s.frame a).tag = x.tag)) →
            (t.frame a).state = 2))
    ∧ ((s.frame (f * 0x10000)).state = 2 → s.cmds = [] → Completes (.frameScrub f) s (fun t =>
        (t.frame (f * 0x10000)).state = 3 ∧ (∀ m, (t.slot m).butHandles = (s.slot m).butHandles)
        ∧ (∀ m j y, mfind (t.slot m).regs.h j = some y → y.frame < f * 0x10000 + 0x10000 → f * 0x10000 < y.frame + pageBytes y.size →
            y.valid = false)
        ∧ ∀ a, Memory.read t.mem a = if f * 0x10000 ≤ a ∧ a < f * 0x10000 + 0x10000 then 0 else Memory.read s.mem a))
    ∧ ((s.frame (f * 0x10000)).state ≠ 2 → Completes (.frameScrub f) s (fun t => t = s))
    ∧ (free → may → Completes (.curnew fn c) s (fun t => ∃ n, n < 1024 ∧ s.hasNode n = false ∧ answered t 0 n
        ∧ mfind t.currencies n = some ⟨parent, funds, if tops then len % 32 else 0⟩
        ∧ (∀ m, m ≠ n → mfind t.currencies m = mfind s.currencies m) ∧ (tops → (t.fn (len % 32)).top = some n)))
    ∧ (free → ¬may → Completes (.curnew fn c) s (fun t => answered t 1 0 ∧ t.currencies = s.currencies))
    ∧ (free → s.mayChange fn node = true → Completes (.curfund fn c) s (fun t => answered t 0 0
        ∧ (mget t.currencies node default).funding = funds ∧ (mget t.currencies node default).parent = (mget s.currencies node default).parent
        ∧ ∀ m, m ≠ node → mfind t.currencies m = mfind s.currencies m))
    ∧ (free → s.mayChange fn node = false → Completes (.curfund fn c) s (fun t => answered t 1 0 ∧ t.currencies = s.currencies))
    ∧ (free → s.mayChange fn node = true → ¬used → Completes (.curdel fn c) s (fun t => answered t 0 0
        ∧ ∀ m, mfind t.currencies m = if m = node then none else mfind s.currencies m))
    ∧ (free → (s.mayChange fn node = false ∨ used) → Completes (.curdel fn c) s (fun t => answered t 1 0 ∧ t.currencies = s.currencies))

/-- R392, R393, R407, R435, R436: the commands of PMCMD: which are refused, the layout that a commit prepares, and
what phase two writes. The journal’s bytes and the clusters that PMOVE takes are the model’s choice (log entries 42
and 44); that PDELETE unbinds and is refused while frozen (log entry 70), what PHANDLER leaves after LENGTH (log entry
77) and which event of a command is the host’s write (log entry 97) are its reading. -/
def Obligations.PartitionsAreMadeAndMoved : Prop :=
  ∀ (s : State) (p : Nat) (v : Part) (l : Layout), p < 16 →
    let st := s.reg 0 0x1818
    let run := bitOf st 0 = false ∧ s.mp.up = true ∧ s.fatal = none
    let answered (t : State) (r n : Nat) : Prop := t.reg 0 0x1818 = st / 2 % 2 * 2 + r * 16 + n * 2 ^ 32
    let still (t : State) : Prop := t.slots = s.slots ∧ t.mem = s.mem ∧ t.parts = s.parts ∧ t.fns = s.fns
    let refuses (i : Instr) (op : Nat) (exists_ : Bool) : Prop :=
      (bitOf st 0 = true → s.pmIs op p = false → Completes i s (fun t => bitOf (t.reg 0 0x1818) 1 = true ∧ still t))
      ∧ (run → (s.part? p).isSome ≠ exists_ → Completes i s (fun t => answered t 2 0 ∧ still t))
    let commits (i : Instr) (x : Layout) : Prop := Completes i s (fun t => t.mp.jstate = 1 ∧ t.mp.layout = [x]
      ∧ t.mp.lseq = s.mp.lseq + 1 ∧ t.mp.digest = journalDigest (s.mp.lseq + 1) [x] ∧ bitOf (t.reg 0 0x1708) 2 = true
      ∧ bitOf (t.reg 0 0x1818) 0 = true ∧ SlotsButYield s t ∧ t.mem = s.mem ∧ (∀ w, t.part? p = some w → w.paused = true)
      ∧ ∀ y ∈ s.ctxsOf p, (s.ctx y.1 y.2).state = 1 →
          ((t.ctx y.1 y.2).state = 2 ∨ (t.ctx y.1 y.2).state = 3) ∧ (t.ctx y.1 y.2).auto = true)
    let b := s.pmDescriptor
    let n (o k : Nat) : Nat := blockNum b o k
    let ill := n 0 1 = 0 ∨ 60 < n 0 1 ∨ 16 ≤ n 1 1 ∨ n 2 1 = 0 ∨ 64 < n 2 1 ∨ n 3 5 ≠ 0 ∨ (∃ x ∈ b.drop 20, x ≠ 0)
      ∨ ∃ q w, (q, w) ∈ s.parts ∧ w.keys &&& n 8 8 ≠ 0
    let cs := (s.freeClusters (n 1 1) p).take (n 0 1)
    let vf := s.reg 0 0x1808 % 32
    let unbindable := vf = 0 ∨ (∃ c, c < 8 ∧ (s.ctx vf c).state ≠ 0) ∨ (s.fn vf).tdi ≠ 0
    let keys := s.reg 0 0x1808
    let used := s.ctxsOf p ≠ [] ∨ s.frozen p = true
    let len := s.reg 0 0x1810
    let img := s.readBytes .bank (0x10000000000 + s.reg 0 0x1808) len
    let outside (t : State) : Prop := ∀ a, a < handlerBase p ∨ handlerBase p + 0x800000 ≤ a → Memory.read t.mem a = Memory.read s.mem a
    let to_ := (s.freeClusters v.dies p).take v.clusters.length
    refuses (.pcreate p) 1 false ∧ refuses (.pdelete p) 2 true ∧ refuses (.pbind p) 3 true ∧ refuses (.punbind p) 4 true
    ∧ refuses (.pkeys p) 5 true ∧ refuses (.pmove p) 6 true ∧ refuses (.pseed p) 7 true ∧ refuses (.phandler p) 8 true
    ∧ refuses (.phclear p) 10 true
    ∧ (run → s.part? p = none →
        (ill → Completes (.pcreate p) s (fun t => answered t 1 0 ∧ still t))
        ∧ (¬ill → s.mayCommit [p] = true → (cs.length < n 0 1 ∨ s.takeGroups cs (n 2 1) p = none) →
            Completes (.pcreate p) s (fun t => answered t 3 0 ∧ still t))
        ∧ (∀ gs, ¬ill → s.mayCommit [p] = true → cs.length = n 0 1 → s.takeGroups cs (n 2 1) p = some gs →
            commits (.pcreate p) ⟨p, false, cs, n 8 8, n 1 1, n 2 1, gs, n 16 4⟩))
    ∧ (run → s.part? p = some v → v.resetting = true → ∀ i ∈ [Instr.pdelete p, .pbind p, .punbind p, .pkeys p, .pmove p, .pseed p,
        .phandler p, .phclear p, .reclass p], Completes i s (fun t => bitOf (t.reg 0 0x1818) 0 = true ∧ still t))
    ∧ (run → s.part? p = some v → v.resetting = false →
        (used → Completes (.pdelete p) s (fun t => answered t 1 0 ∧ still t))
        ∧ (¬used → s.mayCommit [p] = true → commits (.pdelete p) { v.layout p with gone := true, clusters := [] })
        ∧ (unbindable → Completes (.pbind p) s (fun t => answered t 1 0 ∧ still t)
            ∧ Completes (.punbind p) s (fun t => answered t 1 0 ∧ still t))
        ∧ (¬unbindable → Completes (.pbind p) s (fun t => answered t 0 0 ∧ (t.fn vf).part = some p ∧ ∀ f, f ≠ vf → t.fn f = s.fn f)
            ∧ Completes (.punbind p) s (fun t => answered t 0 0 ∧ (t.fn vf).part = none ∧ ∀ f, f ≠ vf → t.fn f = s.fn f))
        ∧ (let bad := s.frozen p = true ∨ ∃ k, k < 64 ∧ ((bitOf v.keys k = true ∧ bitOf keys k = false ∧ s.leasedKey p k = true)
              ∨ (bitOf keys k = true ∧ ∃ q w, (q, w) ∈ s.parts ∧ q ≠ p ∧ bitOf w.keys k = true))
           (bad → Completes (.pkeys p) s (fun t => answered t 1 0 ∧ still t))
           ∧ (¬bad → s.mayCommit [p] = true → commits (.pkeys p) { v.layout p with keys := keys }))
        ∧ ((to_.length < v.clusters.length ∨ s.takeGroups to_ v.setGroups p = none) → s.mayCommit [p] = true →
            Completes (.pmove p) s (fun t => answered t 3 0 ∧ still t))
        ∧ (∀ gs, to_.length = v.clusters.length → s.takeGroups to_ v.setGroups p = some gs → s.mayCommit [p] = true →
            commits (.pmove p) { v.layout p with clusters := to_, groups := gs })
        ∧ Completes (.pseed p) s (fun t => answered t 0 0 ∧ t.part? p = some { v with drawseed := s.reg 0 0x1808 % 2 ^ 32 })
        ∧ ((used ∨ len = 0 ∨ len % 4 ≠ 0 ∨ 0x800000 < len) → Completes (.phandler p) s (fun t => answered t 1 0 ∧ still t))
        ∧ (¬used → len ≠ 0 → len % 4 = 0 → len ≤ 0x800000 → Completes (.phandler p) s (fun t => answered t 0 0 ∧ outside t
            ∧ t.part? p = some { v with hasHandler := true, handlerHash := (Config.sha256 img).toNat }
            ∧ ∀ i, i < 0x800000 → Memory.read t.mem (handlerBase p + i) = img.getD i 0))
        ∧ (used → Completes (.phclear p) s (fun t => answered t 1 0 ∧ still t))
        ∧ (¬used → Completes (.phclear p) s (fun t => answered t 0 0 ∧ outside t
            ∧ t.part? p = some { v with hasHandler := false, handlerHash := 0 }
            ∧ ∀ i, i < 0x800000 → Memory.read t.mem (handlerBase p + i) = 0)))
    ∧ (s.pmIs 6 p = true → s.mp.jstate ≠ 1 → s.mp.moved ≠ 0 → (∀ y ∈ s.ctxsOf p, (s.ctx y.1 y.2).auto = false) →
        Completes (.pmove p) s (fun t =>
          (if s.hostWrote then bitOf (t.reg 0 0x1818) 1 = true else answered t 0 (s.mp.moved - 1)) ∧ still t))
    ∧ (let ready := s.mp.jstate = 1 ∧ s.mp.up = true ∧ s.mp.digest = journalDigest s.mp.lseq s.mp.layout ∧ s.fatal = none
         ∧ s.commitReady = true
       (¬ready → Completes .layoutCommitPhaseTwo s (fun t => t = s))
       ∧ (ready → s.mp.layout = [l] → Completes .layoutCommitPhaseTwo s (fun t => t.mp.jstate = 2
           ∧ (l.gone = true → t.part? l.part = none ∧ ∀ fn ∈ s.fnsOf l.part, (t.fn fn).part = none)
           ∧ (l.gone = false → ∃ w, t.part? l.part = some w ∧ w.clusters = l.clusters ∧ w.keys = l.keys ∧ w.dies = l.dies
               ∧ w.setGroups = l.setGroups ∧ w.groups = l.groups ∧ w.drawseed = ((s.part? l.part).map (fun o => o.drawseed)).getD l.drawseed
               ∧ w.paused = false)
           ∧ (∀ w k, l.gone = false → s.part? l.part = some w → bitOf w.keys k = true → bitOf l.keys k = false →
               mfind t.mp.keySlots k = none)
           ∧ (s.mp.repairing = none → bitOf st 0 = true → s.reg 0 0x1800 % 16 = 1 → answered t 0 l.clusters.length))))

/-- R282: RECLASS is refused where a lease meets the group, the class is no class or a live mapping would lose its
frame; else the group is locked; its completion changes the class, keeps every retained byte, and clears the slots
that become frames. -/
def Obligations.ReclassingAGroup : Prop :=
  ∀ (s : State) (p : Nat) (v : Part), p < 16 →
    let st := s.reg 0 0x1818
    let run := bitOf st 0 = false ∧ s.mp.up = true ∧ s.fatal = none ∧ s.part? p = some v ∧ v.resetting = false
    let answered (t : State) (r n : Nat) : Prop := t.reg 0 0x1818 = st / 2 % 2 * 2 + r * 16 + n * 2 ^ 32
    let g := s.reg 0 0x1808 % 8192
    let cls := field (s.reg 0 0x1808) 16 2
    let lo := g * 0x4000000
    let leased := ∃ i k q, (i, k) ∈ s.kernels ∧ (k.phase = 1 ∨ k.phase = 3) ∧ q ∈ k.pages ∧ q.range ∉ k.revoked
      ∧ q.frame < lo + 0x4000000 ∧ lo < q.frame + q.span
    let lost := granules cls < granules (s.classOf lo) ∧ ∃ fn f c q, (fn, f) ∈ s.fns ∧ c < 8 ∧ (s.ctx fn c).state ≠ 0
      ∧ q ∈ s.mappedPages fn c ∧ q.frame < lo + 0x4000000 ∧ lo + granules cls * 0x200000 < q.frame + q.span
    let refused := cls = 3 ∨ s.physOk lo = false ∨ leased ∨ g ∈ s.classLocks ∨ lost
    (run → refused → Completes (.reclass p) s (fun t => answered t 1 0 ∧ t.classLocks = s.classLocks ∧ t.classes = s.classes))
    ∧ (run → ¬refused → Completes (.reclass p) s (fun t => t.classLocks = g :: s.classLocks ∧ t.mp.reclass = some (g, cls)
        ∧ bitOf (t.reg 0 0x1818) 0 = true ∧ t.classes = s.classes ∧ t.mem = s.mem ∧ t.slots = s.slots))
    ∧ (s.mp.reclass = none → Completes (.reclassCompletion p) s (fun t => t = s))
    ∧ (∀ h new, s.mp.reclass = some (h, new) → s.pmIs 9 p = true → s.mp.up = true →
        let base := h * 0x4000000
        let was := granules (s.classOf base)
        let a := base + min was (granules new) * 0x200000
        let e := base + max was (granules new) * 0x200000
        (∀ f ∈ s.flips, f.seg * 64 < base ∨ base + 0x4000000 ≤ f.seg * 64) → (∀ i k, (i, k) ∈ s.kernels → k.phase ≠ 0) →
        Completes (.reclassCompletion p) s (fun t => answered t 0 0 ∧ t.classOf base = new ∧ h ∉ t.classLocks ∧ t.mp.reclass = none
          ∧ (∀ x, Memory.read t.mem x = if a ≤ x ∧ x < e then 0 else Memory.read s.mem x)
          ∧ (∀ x, x % 0x10000 = 0 → t.frame x = if a ≤ x ∧ x < e then (if was < granules new then { state := 3 } else {}) else s.frame x)
          ∧ t.slots = s.slots))

/-- R421, R422: a flit is taken in its order or refused and sent again, and the seventeenth failure takes the port
down; a packet is dropped and counted where its key or its tag fails, and else performed and answered. The CRC’s bit
order is deduced (log entry 45), the rounding mode of an incoming reduce is free (log entry 46), when a port goes down
is the model’s reading (log entry 33), and so is what is read, written and answered for a peer’s packet (log entries
19 and 75). -/
def Obligations.NagilFlitsAndPackets : Prop :=
  ∀ (s : State) (port : Nat) (f : Flit) (k : Packet),
    let p := s.port port
    let seq := blockNum f.bytes 240 4
    let good := f.bytes.length = 256 ∧ crc64 (f.bytes.take 248) = blockNum f.bytes 248 8
    let same (t : State) : Prop := t.slots = s.slots ∧ t.mem = s.mem ∧ t.cmds = s.cmds
    let sends (t : State) (m : Message) : Prop := t.out = s.out ++ [m]
    let key := packetNum k 4 2
    let n := k.bytes.length
    let open_ (op : Nat) := p.up = true ∧ s.fatal = none ∧ packetFormed k = true ∧ packetNum k 6 1 = op
      ∧ packetNum k 0 2 % 4096 = s.devNumber
    let sealed (e : Nat) := (Config.gcmTag (mget p.gcm e 0) (packetNum k 20 12) (k.bytes.take (n - 16))).toNat = packetNum k (n - 16) 16
    let gate (i : Instr) (op : Nat) : Prop :=
      (¬open_ op → Completes i s (fun t => t = s))
      ∧ (open_ op → p.entry key = none → Completes i s (fun t => t.port port = { p with keyDrop := p.keyDrop + 1 } ∧ same t
          ∧ t.out = s.out))
      ∧ (∀ e q, open_ op → p.entry key = some (e, q) → ¬sealed e →
          Completes i s (fun t => t.port port = { p with macDrop := p.macDrop + 1 } ∧ same t ∧ t.out = s.out))
    let answers (t : State) (e op stat : Nat) (bs : List Byte) : Prop := sends t ⟨41, [port], packetBytes (mget p.gcm e 0)
      (packetNum k 2 2 % 4096) s.devNumber key op 0 (packetNum k 8 8) bs.length (mget p.counters 0 0) (packetNum k 32 8) stat 0 bs⟩
    let a := packetNum k 8 8 % 2 ^ 39
    let bs := packetData k
    let code := packetNum k 7 1 / 8 + 1
    let op := packetNum k 7 1 % 8
    let size := ((formatOf code).map (fun f => if reducible f then f.size / 8 else 0)).getD 0
    let high := ∃ x ∈ framesIn a bs.length, s.classOf x < packetNum k 44 1 % 4
    let elsewhere (t : State) : Prop := ∀ x, x < a ∨ a + bs.length ≤ x → Memory.read t.mem x = Memory.read s.mem x
    let refusals (i : Instr) (o e q : Nat) : Prop := open_ o → p.entry key = some (e, q) → sealed e →
      (s.peerKilled a bs.length = true → Completes i s (fun t => t = s))
      ∧ (s.peerKilled a bs.length = false → s.peerMay q a bs.length true = false →
          Completes i s (fun t => answers t e 6 0x80 [] ∧ same t))
      ∧ (s.peerKilled a bs.length = false → s.peerMay q a bs.length true = true → high →
          Completes i s (fun t => answers t e 6 0x20 [] ∧ same t))
    (p.up = false → Completes (.flitReceive port f) s (fun t => t = s))
    ∧ (p.up = true → good → seq = p.expect → Completes (.flitReceive port f) s (fun t => same t ∧ sends t ⟨43, [port, seq], []⟩
        ∧ t.port port = { p with expect := (p.expect + 1) % 2 ^ 32, resends := 0 }))
    ∧ (p.up = true → good → seq ≠ p.expect → Completes (.flitReceive port f) s (fun t => same t
        ∧ sends t ⟨42, [port, p.expect], []⟩ ∧ t.ports = s.ports))
    ∧ (p.up = true → ¬good → p.resends < 16 → Completes (.flitReceive port f) s (fun t => same t
        ∧ sends t ⟨42, [port, p.expect], []⟩ ∧ t.port port = { p with resends := p.resends + 1 }))
    ∧ (p.up = true → ¬good → 16 ≤ p.resends → Completes (.flitReceive port f) s (fun t => (t.port port).up = false
        ∧ t.cmds.length = s.cmds.length ∧ ∀ (j : Nat) (c : Cmd), s.cmds[j]? = some c → ∃ d : Cmd, t.cmds[j]? = some d
          ∧ (∀ r ∈ d.remote, r.port ≠ port) ∧ ((∃ r ∈ c.remote, r.port = port) → bitOf d.stat 7 = true ∧ bitOf d.stat 1 = true)))
    ∧ gate (.nagilWrite port k) 1 ∧ gate (.nagilReadRequest port k) 2 ∧ gate (.nagilReadReply port k) 3
    ∧ gate (.nagilReduce port k) 4 ∧ gate (.nagilCompletion port k) 5 ∧ gate (.nagilError port k) 6
    ∧ (∀ e q, refusals (.nagilWrite port k) 1 e q)
    ∧ (∀ e q, open_ 1 → p.entry key = some (e, q) → sealed e → s.peerKilled a bs.length = false →
        s.peerMay q a bs.length true = true → ¬high → Completes (.nagilWrite port k) s (fun t => answers t e 5 0 []
          ∧ (∀ j, j < bs.length → Memory.read t.mem (a + j) = bs.getD j 0) ∧ elsewhere t ∧ t.slots = s.slots ∧ t.cmds = s.cmds
          ∧ ∀ x, x ∈ t.poison ↔ x ∈ s.poison ∧ ¬(a ≤ 64 * x ∧ 64 * x + 64 ≤ a + bs.length)))
    ∧ (∀ e q, open_ 2 → p.entry key = some (e, q) → sealed e →
        let m := packetNum k 16 4 % 4097
        (s.peerMay q a m false = false → Completes (.nagilReadRequest port k) s (fun t => answers t e 6 0x80 [] ∧ same t))
        ∧ (s.peerMay q a m false = true → s.Clean a m → Completes (.nagilReadRequest port k) s (fun t =>
            answers t e 3 0 (s.peerOrder.readBytes .peer a m) ∧ same t)))
    ∧ (∀ e q, open_ 4 → p.entry key = some (e, q) → sealed e → (size = 0 ∨ 3 ≤ op) →
        Completes (.nagilReduce port k) s (fun t => answers t e 6 0x90 [] ∧ same t))
    ∧ (∀ e q, size ≠ 0 → op < 3 → refusals (.nagilReduce port k) 4 e q)
    ∧ (∀ e q, open_ 4 → p.entry key = some (e, q) → sealed e → size ≠ 0 → op < 3 → s.peerKilled a bs.length = false →
        s.peerMay q a bs.length true = true → ¬high → s.Clean a bs.length → Completes (.nagilReduce port k) s (fun t =>
          answers t e 5 0 [] ∧ elsewhere t ∧ t.slots = s.slots ∧ ∀ j, j < bs.length / size → ∃ rm draw, rm < 5 ∧ draw < 2 ^ 32
            ∧ let y := redValue code op rm draw (ofBytes ((List.range size).map (fun b => Memory.read s.mem (a + size * j + b))))
                (ofBytes ((bs.drop (size * j)).take size))
              ∀ b, b < size → Memory.read t.mem (a + size * j + b) = (toBytes size y.1).getD b 0))

/-- R202, R422, R423: the words whose remote record lies in a peer aperture send one request to each device and port,
under the key of their partition, and end with PEER and FAIL where there is none; the answers of the peer, and 2 ms
without one. Where a remote command sets its ready flag (log entry 38), the rounding mode and order that a packet does
not carry (log entry 46), the form of what is sent and how a command is cut into packets (log entry 19) are the
model’s reading. -/
def Obligations.TransfersToPeers : Prop :=
  ∀ (s u : State) (p : CopyPlan) (idx : List Nat) (d a b : Fin 64) (q v : Fin 2) (port id : Nat) (k : Packet),
    let sl := s.cur.slot
    let n (x : Part_) : Nat := (x.bit + x.width + 7) / 8
    let asks (f : Nat → Part_ → Nat → PeerPart) (xs : List (List (Part_ × Spot))) : List PeerPart :=
      xs.zipIdx.flatMap (fun e => e.1.filterMap (fun x => match x.2 with
        | .peer y => some (f e.2 x.1 y)
        | _ => none))
    let value (c : List (Part_ × Spot)) : Nat := (u.readCell sl p.r.fmt c).1
    let data (cs : List (List (Part_ × Spot))) : List (List (Part_ × Spot)) → List PeerPart :=
      asks (fun i x y => ⟨y, toBytes (n x) (value (cs.getD i []) / 2 ^ x.shift % 2 ^ x.width * 2 ^ x.bit), (0, x.bit, x.width, 0, 0)⟩)
    let out := data p.src (p.dst.getD 0 []) ++ data p.srcScale (p.dstScale.getD 0 [])
    let want := asks (fun i x y => ⟨y, toBytes (n x) 0, (i, x.bit, x.width, x.shift, 0)⟩) (p.src ++ p.srcScale)
    let allPeers (xs : List (Part_ × Spot)) : Prop := xs ≠ [] ∧ ∀ x ∈ xs, ∃ y, x.2 = .peer y
    let flags := if p.T.fle then [(sl, p.T.flag)] else []
    let sends (i : Instr) (op arg cls lim : Nat) (xs : List PeerPart) (pois : Prop) : Prop :=
      (u.peerPackets sl lim xs = none → IssuesFrom u i s (fun c => c.moves = [] ∧ c.regMoves = [] ∧ c.remote = [] ∧ c.flags = flags
          ∧ bitOf c.stat 7 = true ∧ bitOf c.stat 1 = true))
      ∧ ∀ gs, u.peerPackets sl lim xs = some gs →
          IssuesFrom u i s (fun c => c.flags = flags ∧ (bitOf c.stat 0 = true ↔ pois) ∧ c.remote.length = gs.length
            ∧ ∀ (j : Nat) (g : PeerPacket), gs[j]? = some g → c.remote[j]? = some (PeerRequest.mk j g.port g.run.pieces))
          ∧ Completes i s (fun t => t.out.length = u.out.length + gs.length ∧ ∀ (j : Nat) (g : PeerPacket), gs[j]? = some g →
              t.out[u.out.length + j]? = some ⟨40, [g.port], packetBytes (mget (u.port g.port).gcm g.entry 0) g.dev u.devNumber
                g.key op arg (g.run.addr % 0x8000000000) g.run.bytes.length
                (mget (u.port g.port).counters 0 0 + ((gs.take j).filter (fun x => x.port == g.port)).length)
                (peerTag u.nextCmd j) 0 cls (if op = 2 then [] else g.run.bytes)⟩)
    let bad := (∃ c ∈ p.src, (u.readCell sl p.r.fmt c).2 = true) ∨ ∃ c ∈ p.srcScale, (u.readCell sl p.r.fmt c).2 = true
    let open_ (op : Nat) := s.fatal = none ∧ (s.port port).up = true ∧ packetFormed k = true ∧ packetNum k 6 1 = op
      ∧ packetNum k 0 2 % 4096 = s.devNumber ∧ ∃ e w, (s.port port).entry (packetNum k 4 2) = some (e, w)
        ∧ (Config.gcmTag (mget (s.port port).gcm e 0) (packetNum k 20 12) (k.bytes.take (k.bytes.length - 16))).toNat
          = packetNum k (k.bytes.length - 16) 16
    let ends (i : Instr) (op : Nat) (f : Cmd → PeerRequest → Cmd) : Prop := open_ op →
      (s.asked port k = none → Completes i s (fun t => t = s))
      ∧ ∀ c r, s.asked port k = some (c, r) → Completes i s (fun t => t.slots = s.slots ∧ t.mem = s.mem
          ∧ t.cmds = s.cmds.map (fun x => if x.id = c.id then f x r else x))
    let rest (c : Cmd) (r : PeerRequest) : List PeerRequest := c.remote.filter (fun x => x.index != r.index)
    let stat := packetNum k 40 4 % 256
    let without (c : Cmd) (r : PeerRequest) : List Move := c.moves.filter (fun m => !(r.pieces.map (·.1)).contains m.draw)
    (CopyRecords s u p → CopyReady u p idx → p.ui = (v.val == 1) → anyLost p.srcSpots = false →
      (allPeers p.dstSpots → inGangWindow p.d.base = false →
        (p.kind = .put → sends (.xput d a b q v) 1 0 p.r.cls p.d.fmt.payload out bad)
        ∧ (p.kind = .red → sends (.xred d a b q v) 4 (p.S.op + 8 * (p.d.code - 1)) p.r.cls p.d.fmt.payload out bad))
      ∧ (p.kind = .get → allPeers p.srcSpots → (∀ x ∈ p.dstSpots, ∀ y, x.2 ≠ .peer y) →
          sends (.xget d a b q v) 2 0 0 p.r.fmt.payload want False))
    ∧ ends (.nagilReadReply port k) 3 (fun c r => { c with
        remote := rest c r
        moves := fillPieces r.pieces (packetPayload k) c.moves
        stat := c.stat ||| 0 ||| (packetNum k 40 4 &&& 3) })
    ∧ ends (.nagilCompletion port k) 5 (fun c r => { c with
        remote := rest c r
        moves := if stat == 0 then c.moves else without c r
        stat := c.stat ||| stat
        bits := c.bits + sumOf (r.pieces.map (fun x => x.2.2.1)) })
    ∧ ends (.nagilError port k) 6 (fun c r => { c with
        remote := rest c r
        moves := without c r
        stat := c.stat ||| (stat ||| 0x80 ||| 2) })
    ∧ (∀ c, s.cmd? id = some c → c.remote ≠ [] → c.started + 4200000 ≤ s.now → Completes (.peerTimeout id) s (fun t =>
        ∃ e, t.cmd? id = some e ∧ e.remote = [] ∧ bitOf e.stat 7 = true ∧ bitOf e.stat 1 = true ∧ t.slots = s.slots ∧ t.mem = s.mem))
    ∧ (∀ c, s.cmd? id = some c → (c.remote = [] ∨ s.now < c.started + 4200000) → Completes (.peerTimeout id) s (fun t => t = s))

/-- R300, R412, R414, R415: bias flips: which are refused, what a flip has to do, and each page as it flips; and an
access over CXL.mem, admitted under the stream of the function that owns the frames. What a refused bias flip reports
is deduced (log entry 102), and the form of messages is the model’s choice (log entry 19). -/
def Obligations.BiasFlipsAndCxlAccesses : Prop :=
  ∀ (s : State) (fn : Nat) (a : CxlAccess) (x : Flipping),
    let st := s.reg fn 0x1158
    let ctx := s.reg fn 0x1140 / 4 % 8
    let base := s.reg fn 0x1148
    let len := s.reg fn 0x1150
    let ps := s.pagesFrom fn ctx 0 (base + len) (len / 0x10000) base
    let state := (s.ctx fn ctx).state
    let answered (t : State) (r n : Nat) : Prop := t.reg fn 0x1158 = st / 2 % 2 * 2 + r * 16 + n * 2 ^ 32 ∧ (t.fn fn).flip = none
    let still (t : State) : Prop := t.slots = s.slots ∧ t.mem = s.mem ∧ t.kernels = s.kernels
    let ill := base % 0x10000 ≠ 0 ∨ len % 0x10000 ≠ 0 ∨ (0 < len ∧ base < 2 ^ 57 ∧ 0x1FFFFFFC0000000 < base + len)
      ∨ ps.bad = true ∨ ps.missing ≠ [] ∨ ∃ p ∈ ps.mapped, p.1.bk = true
    let command (i : Instr) (host : Bool) : Prop :=
      (bitOf st 0 = true → Completes i s (fun t => bitOf (t.reg fn 0x1158) 1 = true ∧ still t ∧ (t.fn fn).flip = (s.fn fn).flip))
      ∧ (bitOf st 0 = false → state ≠ 1 → state ≠ 3 → Completes i s (fun t => answered t 2 0 ∧ still t))
      ∧ (bitOf st 0 = false → (state = 1 ∨ state = 3) → ill → Completes i s (fun t => answered t 1 0 ∧ still t))
      ∧ (bitOf st 0 = false → (state = 1 ∨ state = 3) → ¬ill → Completes i s (fun t => bitOf (t.reg fn 0x1158) 0 = true ∧ still t
          ∧ (t.fn fn).flip = some ⟨host, (ps.mapped.filter (fun p => s.isHbm p.1.frame && p.1.bias != host)).map
            (fun p => ⟨p.1.leaf, p.1.frame, p.1.span⟩), 0⟩))
    let past (t : State) (words : Nat → Bool) : Prop := t.slots.length = s.slots.length
      ∧ ∀ (j : Nat) (m : SlotId) (v : Slot), s.slots[j]? = some (m, v) → ∃ u, t.slots[j]? = some (m, u)
        ∧ { u with narrow := v.narrow } = v ∧ u.narrow = v.narrow.filter (fun w => !words w)
    let flips (t : State) (l : FlipPage) : Prop := past t l.has
      ∧ (∀ y, Memory.read t.mem y = if y = l.leaf + 7 then
          (toBytes 1 (setField (s.readNum .bank (l.leaf + 7) 1) 4 1 (if x.host then 1 else 0))).getD 0 0 else Memory.read s.mem y)
      ∧ (∀ i k p, (i, k) ∈ t.kernels → p ∈ k.pages → p.leaf = l.leaf → p.bias = x.host)
      ∧ ∀ r ∈ t.hist, l.has r.addr = true → r.at_ < s.seqT → r.weak = false ∧ t.sees .host r = true
    let n := if a.write then a.data.length else a.size
    let admitted := (∀ y ∈ framesIn a.addr n, s.isHbm y = true ∧ (s.frame y).state = 1 ∧ (s.frame y).fn = a.stream)
      ∧ ((s.fn a.stream).tdi = 2 ∨ (s.fn a.stream).everLocked = false) ∧ s.power.powered = true
    let half (y : Nat) : Prop := ∃ m v w, (m, v) ∈ s.slots ∧ v.narrow = some w ∧ w ≤ y ∧ y < w + 8
    command (.hostBiasFlip fn) true ∧ command (.deviceBiasFlip fn) false
    ∧ ((s.fn fn).flip = none → Completes (.biasFlipCompletion fn) s (fun t => t = s))
    ∧ ((s.fn fn).flip = some x → x.leaves = [] → Completes (.biasFlipCompletion fn) s (fun t => answered t 0 x.count ∧ still t))
    ∧ (∀ l ls, (s.fn fn).flip = some x → x.leaves = l :: ls →
        (ls = [] → Completes (.biasFlipCompletion fn) s (fun t => flips t l ∧ answered t 0 (x.count + 1)))
        ∧ (ls ≠ [] → Completes (.biasFlipCompletion fn) s (fun t => flips t l ∧ t.reg fn 0x1158 = st
            ∧ (t.fn fn).flip = some ⟨x.host, ls, x.count + 1⟩)))
    ∧ (¬admitted → Completes (.cxlMemAccess a) s (fun t => still t
        ∧ t.out = s.out ++ [⟨3, [2, a.addr], []⟩, ⟨52, [a.addr, 0], if a.write then [] else List.replicate n 0xFF⟩]))
    ∧ (admitted → s.Clean a.addr n → a.write = true → Completes (.cxlMemAccess a) s (fun t => t.slots = s.slots ∧ t.out = s.out
        ∧ (∀ j, j < n → Memory.read t.mem (a.addr + j) = a.data.getD j 0
          ∨ (Memory.read t.mem (a.addr + j) = Memory.read s.mem (a.addr + j) ∧ half (a.addr + j))) ∧ MemoryBut s { t with poison := s.poison } a.addr n))
    ∧ (admitted → s.Clean a.addr n → a.write = false → Completes (.cxlMemAccess a) s (fun t => t.mem = s.mem
        ∧ t.kernels = s.kernels ∧ past t (fun w => decide (w < a.addr + n ∧ a.addr < w + 8))
        ∧ t.out = s.out ++ [⟨52, [a.addr, 1], s.readBytes .host a.addr n⟩]))

/-- R410, R416 to R419: the messages of TDISP and their states, measurements, sessions, the writes of keys, and the
TLPs that an established IDE stream lets through; that a session message establishes a stream is the model's choice
(log entry 100). The message forms are the model’s choice (log entry 19), the TDISP states and nonce (log entry 49)
and what GET_VERSION and GET_CAPABILITIES answer (log entry 86) are presumed from its standard, who may write a key is
deduced (log entry 76), and the rest is left to the published standards (log entry 106). -/
def Obligations.TrustMessagesAndKeys : Prop :=
  ∀ (s : State) (fn nonce id : Nat) (w : KeyWrite),
    let f := s.fn fn
    let vf := 1 ≤ fn ∧ fn ≤ 31
    let only (t : State) : Prop := t.slots = s.slots ∧ t.mem = s.mem ∧ t.parts = s.parts ∧ ∀ n, n ≠ fn → t.fn n = s.fn n
    let sends (t : State) (req ok : Nat) (xs : List Nat) : Prop := t.out = s.out ++ [⟨60, [fn, req, ok] ++ xs, []⟩] ∧ only t
    let asks (i : Instr) (req : Nat) (xs : List Nat) : Prop := Completes i s (fun t => sends t req (if vf then 1 else 0) xs ∧ t.fn fn = f)
    let fails (i : Instr) (req : Nat) : Prop := Completes i s (fun t => sends t req 0 [] ∧ t.fn fn = f)
    let locked := f.tdi = 1 ∨ f.tdi = 2
    let tells (t : State) (ok : Nat) : Prop := t.out.getLast? = some ⟨63, [w.session, ok], []⟩
    let up := s.mp.up = true
    let known := w.session ∈ s.mp.sessions ∧ w.session % 8 = 4
    let same (t : State) : Prop := t.mp = s.mp ∧ t.ports = s.ports ∧ t.fns = s.fns ∧ t.slots = s.slots
    let leased := ∃ i k g, (i, k) ∈ s.kernels ∧ (k.phase = 1 ∨ k.phase = 3) ∧ g ∈ k.pages ∧ g.key = w.index ∧ g.range ∉ k.revoked
    let old := mget (s.port w.port).keys w.index 0
    (vf → f.tdi = 0 → Completes (.lockInterface fn nonce) s (fun t => sends t 1 1 [nonce]
        ∧ t.fn fn = { f with tdi := 1, everLocked := true, nonce := nonce }))
    ∧ ((¬vf ∨ f.tdi ≠ 0) → fails (.lockInterface fn nonce) 1)
    ∧ (vf → f.tdi = 1 → f.nonce = nonce → Completes (.startInterface fn nonce) s (fun t => sends t 2 1 []
        ∧ t.fn fn = { f with tdi := 2, nonce := 0 }))
    ∧ ((¬vf ∨ f.tdi ≠ 1 ∨ f.nonce ≠ nonce) → fails (.startInterface fn nonce) 2)
    ∧ (vf → Completes (.stopInterface fn) s (fun t => sends t 3 1 [] ∧ t.fn fn = { f with tdi := 0, nonce := 0 }))
    ∧ (¬vf → fails (.stopInterface fn) 3)
    ∧ asks (.getVersion fn) 4 [0x10] ∧ asks (.getCapabilities fn) 5 [0x7F] ∧ asks (.getDeviceInterfaceState fn) 7 [f.tdi]
    ∧ ((f.part = none ∨ ¬locked) → fails (.getDeviceInterfaceReport fn) 6)
    ∧ (∀ p, f.part = some p → locked → Completes (.getDeviceInterfaceReport fn) s (fun t => t.fn fn = f ∧ ∃ bar,
        sends t 6 1 [bar * 0x10000, 0x10000, p, s.nclus p, ((s.part? p).map (·.keys)).getD 0, (Config.sha256 s.block6).toNat]))
    ∧ (s.answers id = false → Completes (.measurements id nonce) s (fun t => t = s) ∧ Completes (.keyExchange id) s (fun t => t = s))
    ∧ (s.answers id = true →
        Completes (.measurements id nonce) s (fun t => t.mp = s.mp ∧ ∃ xs, t.out = s.out ++ [⟨61, [id, nonce] ++ xs, Config.signature id ([id, nonce] ++ xs)⟩]
          ∧ (id ≠ 4 → xs = [s.block id 1, s.block id 2, s.block id 3])
          ∧ (id = 4 → xs.length = 18 ∧ (∀ b, b < 6 → xs.getD b 0 = s.block 4 (b + 1))
              ∧ ∀ d b, d < 4 → b < 3 → xs.getD (6 + 3 * d + b) 0 = if s.answers d then s.block d (b + 1) else 0))
        ∧ Completes (.keyExchange id) s (fun t => (8 * s.mp.nextSession + id) ∈ t.mp.sessions
            ∧ t.out = s.out ++ [⟨62, [id, 8 * s.mp.nextSession + id],
              Config.certificates id ++ Config.signature id [id, 8 * s.mp.nextSession + id]⟩] ∧ t.mp.keySlots = s.mp.keySlots))
    ∧ (¬up → Completes (.keyWrite w) s (fun t => t = s))
    ∧ (up → known → w.ide = true →
        (31 < w.fn → Completes (.keyWrite w) s (fun t => tells t 0 ∧ same t))
        ∧ (w.fn ≤ 31 → Completes (.keyWrite w) s (fun t => tells t 1 ∧ t.mp = s.mp ∧ t.slots = s.slots
            ∧ t.fn w.fn = { s.fn w.fn with ide := some w.key } ∧ ∀ n, n ≠ w.fn → t.fn n = s.fn n)))
    ∧ (∀ i n, tlpFn i = some fn →
        let dropped : State := s.send 3 [3, fn]
        (wellFormed i = false → turnOf exec (.event i) s = .next s ∧ turnOf exec (.tlp n i) s = .next s)
        ∧ (s.mp.startStep ≠ 6 → turnOf exec (.event i) s = .next s ∧ turnOf exec (.tlp n i) s = .next s)
        ∧ (wellFormed i = true → s.mp.startStep = 6 → f.ide = none → turnOf exec (.event i) s = exec i s)
        ∧ (wellFormed i = true → s.mp.startStep = 6 → f.ide ≠ none → turnOf exec (.event i) s = .next dropped
            ∧ turnOf exec (.tlp n i) s = if n = fn then exec i s else .next dropped))
    ∧ (up → (¬known ∨ (w.ide = false ∧ (s.fn w.fn).part = none)) → Completes (.keyWrite w) s (fun t => tells t 0 ∧ same t))
    ∧ (∀ p v, up → known → w.ide = false → (s.fn w.fn).part = some p → s.part? p = some v →
        (w.nagil = false →
          ((64 ≤ w.index ∨ bitOf v.keys w.index = false ∨ leased) → Completes (.keyWrite w) s (fun t => tells t 0 ∧ same t))
          ∧ (w.index < 64 → bitOf v.keys w.index = true → ¬leased → Completes (.keyWrite w) s (fun t => tells t 1
              ∧ (∀ k, mfind t.mp.keySlots k = if k = w.index then some (w.fn, w.key) else mfind s.mp.keySlots k)
              ∧ t.fns = s.fns)))
        ∧ (w.nagil = true →
          let refused := 24 ≤ w.port ∨ 16 ≤ w.index ∨ 65536 ≤ w.pkey ∨ (old % 65536 ≠ 0 ∧ old / 65536 ≠ p)
          (refused → Completes (.keyWrite w) s (fun t => tells t 0 ∧ same t))
          ∧ (¬refused → Completes (.keyWrite w) s (fun t => tells t 1
              ∧ mget (t.port w.port).keys w.index 0 = w.pkey + 65536 * p ∧ mget (t.port w.port).gcm w.index 0 = w.key
              ∧ (∀ n, n ≠ w.port → t.port n = s.port n)
              ∧ ∀ n ∈ s.fnsOf p, (s.fn n).tdi = 1 ∨ (s.fn n).tdi = 2 → (t.fn n).tdi = 3))))

/-- R8, R408, R424, R429, R447, R451: what a write of each register of BAR 0 does, and a function-level reset. -/
def Obligations.HostRegistersAndFunctionReset : Prop :=
  ∀ (s : State) (fn off val : Nat),
    let v := val % 2 ^ 64
    let up := s.mp.startStep = 6 ∧ fn ≤ 31
    let frame (t : State) (offs : List Nat) : Prop := (∀ o, o ∉ offs → t.reg fn o = s.reg fn o) ∧ t.slots = s.slots ∧ t.mem = s.mem
      ∧ t.parts = s.parts ∧ t.kernels = s.kernels ∧ ∀ n, n ≠ fn → t.fn n = s.fn n
    let sets (x : Nat) : Prop := Completes (.registerWrite fn off val) s (fun t => t.reg fn off = x ∧ frame t [off])
    let keeps : Prop := Completes (.registerWrite fn off val) s (fun t => t = s)
    let acts (i : Instr) : Prop := exec (.registerWrite fn off val) s = exec i s
    let idle := bitOf (s.reg fn 0x1118) 0 = false
    let c := v / 16 % 8
    let p := v / 16 % 16
    let old := s.reg 0 0x1708
    let feat := v &&& s.devfeat
    let lo := if s.variant = 0 then 1200 else 700
    let hi := if s.variant = 0 then 2600 else 1400
    let wd := s.watchdog ((off - 0x1500) / 8)
    let f := s.fn fn
    ((s.mp.startStep ≠ 6 ∨ off % 8 ≠ 0 ∨ 31 < fn) → keeps)
    ∧ (up → (off = 0x1108 ∨ off = 0x1110 ∨ (0x1200 ≤ off ∧ off < 0x1280 ∧ off % 8 = 0)) → sets v)
    ∧ (up → off = 0x1190 → sets v)
    ∧ (up → off = 0x1118 → if bitOf v 1 then sets (setField (s.reg fn off) 1 1 0) else keeps)
    ∧ (up → off = 0x1198 → sets (s.reg fn off &&& (2 ^ 32 - 1 - v % 2 ^ 32)))
    ∧ (up → off = 0x1180 → acts (.errbaseWrite fn v))
    ∧ (up → fn = 0 → off = 0x1710 → lo ≤ v % 4096 → v % 4096 ≤ hi → v % 4096 < s.power.average →
        Completes (.registerWrite fn off val) s (fun t => t.power.byCap = true
          ∧ ∃ k, 1 ≤ k ∧ k ≤ 9 ∧ t.power.clock = max 1200 (s.power.clock - 100 * k)))
    ∧ (up → (off = 0x1120 ∨ off = 0x1188 ∨ off = 0x1600 ∨ off = 0x1608 ∨ off = 0x1700 ∨ off = 0x1718) → keeps)
    ∧ (up → off = 0x1100 →
        (idle → (v % 16 = 1 → acts (.create fn c)) ∧ (v % 16 = 2 → acts (.kill fn c)) ∧ (v % 16 = 3 → acts (.preempt fn c))
          ∧ (v % 16 = 4 → acts (.resume fn c)) ∧ (v % 16 = 5 → acts (.revoke fn c)) ∧ (v % 16 = 6 → acts (.release fn c))
          ∧ (v % 16 = 7 → acts (.curnew fn c)) ∧ (v % 16 = 8 → acts (.curfund fn c)) ∧ (v % 16 = 9 → acts (.curdel fn c)))
        ∧ (¬idle → v % 16 ≠ 2 → Completes (.registerWrite fn off val) s (fun t => bitOf (t.reg fn 0x1118) 1 = true ∧ frame t [0x1118])))
    ∧ (up → fn = 0 →
        (off = 0x1800 → bitOf (s.reg 0 0x1818) 0 = false → (v % 16 = 1 → acts (.pcreate p)) ∧ (v % 16 = 2 → acts (.pdelete p))
          ∧ (v % 16 = 3 → acts (.pbind p)) ∧ (v % 16 = 4 → acts (.punbind p)) ∧ (v % 16 = 5 → acts (.pkeys p))
          ∧ (v % 16 = 6 → acts (.pmove p)) ∧ (v % 16 = 7 → acts (.pseed p)) ∧ (v % 16 = 8 → acts (.phandler p))
          ∧ (v % 16 = 9 → acts (.reclass p)) ∧ (v % 16 = 10 → acts (.phclear p)))
        ∧ ((off = 0x1808 ∨ off = 0x1810 ∨ (0x1900 ≤ off ∧ off < 0x1A00 ∧ off % 8 = 0)) → sets v)
        ∧ (off = 0x1610 → sets (field v 3 25 * 8)) ∧ (off = 0x1708 → acts (.drvfeatWrite 0 v))
        ∧ (off = 0x1710 → if lo ≤ v % 4096 ∧ v % 4096 ≤ hi then sets (v % 4096) else keeps)
        ∧ (0x1500 ≤ off → off < 0x1580 → off % 8 = 0 →
            sets ((if 24 ≤ v % 64 ∧ v % 64 ≤ 40 then v % 64 else wd % 64) + 64 * (v / 64 % 2))))
    ∧ (up → fn ≠ 0 →
        (0x2000 ≤ off → off < 0x2200 → off % 8 = 0 → acts (.launchDoorbell fn ((off - 0x2000) / 0x40) ((off - 0x2000) % 0x40 / 8) v))
        ∧ (0x8000 ≤ off → off < 0x10000 → off % 8 = 0 → acts (.migrationStreamWrite fn v))
        ∧ (off = 0x1040 → sets (v % 2 ^ 48)) ∧ ((off = 0x1148 ∨ off = 0x1150) → sets v)
        ∧ (off = 0x1400 → (v % 8 = 0 → acts (.migrationRunning fn)) ∧ (v % 8 = 1 → acts (.migrationPreCopy fn))
            ∧ (v % 8 = 2 → acts (.migrationStopping fn)) ∧ (v % 8 = 4 → acts (.migrationResuming fn)))
        ∧ (off = 0x1140 → bitOf (s.reg fn 0x1158) 0 = false →
            (v % 4 = 1 → exec (.registerWrite fn off val) s = exec (.hostBiasFlip fn) (s.setReg fn 0x1140 (v % 32)))
            ∧ (v % 4 = 2 → exec (.registerWrite fn off val) s = exec (.deviceBiasFlip fn) (s.setReg fn 0x1140 (v % 32)))))
    ∧ (31 < fn → Completes (.errbaseWrite fn v) s (fun t => t = s))
    ∧ (fn ≤ 31 → Completes (.errbaseWrite fn v) s (fun t => t.reg fn 0x1180 = field v 6 55 * 64 ∧ t.reg fn 0x1188 = 0 ∧ (t.fn fn).logged = []
        ∧ frame t [0x1180, 0x1188]))
    ∧ (fn ≠ 0 → Completes (.drvfeatWrite fn v) s (fun t => t = s))
    ∧ (fn = 0 → bitOf old 2 = true → s.mp.lockedAt ≠ some s.now → Completes (.drvfeatWrite fn v) s (fun t => t.reg 0 0x1708 = setField old 3 1 1 ∧ frame t [0x1708]))
    ∧ (fn = 0 → (bitOf old 2 = false ∨ s.mp.lockedAt = some s.now) → Completes (.drvfeatWrite fn v) s (fun t => t.reg 0 0x1708 % 4 = feat % 4
        ∧ bitOf (t.reg 0 0x1708) 2 = bitOf old 2 ∧ bitOf (t.reg 0 0x1708) 3 = (bitOf old 3 && !bitOf v 3) ∧ frame t [0x1708]))
    ∧ ((fn = 0 ∨ 31 < fn) → Completes (.functionLevelReset fn) s (fun t => t = s))
    ∧ (1 ≤ fn → fn ≤ 31 → s.fnResetting fn = false → (∀ x ∈ f.ctxs, x.2.state = 0) →
        Completes (.functionLevelReset fn) s (fun t => t.fn fn =
          { part := f.part, lastTag := f.lastTag, tdi := if f.tdi = 0 then 0 else 3, everLocked := f.everLocked,
            ide := if f.tdi = 0 then f.ide else none } ∧ t.slots = s.slots ∧ t.devErrSeq = s.devErrSeq + 1))
    ∧ (1 ≤ fn → fn ≤ 31 → s.fnResetting fn = true → Completes (.functionLevelReset fn) s (fun t => (t.fn fn).flr = true
        ∧ (t.fn fn).mig = 0 ∧ (t.fn fn).tdi = f.tdi ∧ (t.fn fn).ctxs = f.ctxs ∧ t.slots = s.slots ∧ t.devErrSeq = s.devErrSeq + 1))
    ∧ (1 ≤ fn → fn ≤ 31 → s.fnResetting fn = false → (∃ n, n < 8 ∧ (s.ctx fn n).state ≠ 0) →
        Completes (.functionLevelReset fn) s (fun t => (t.fn fn).flr = true ∧ (t.fn fn).mig = 0 ∧ ((s.locked fn = true) → (t.fn fn).tdi = 3)
          ∧ ∀ n, n < 8 → (s.ctx fn n).state ≠ 0 → (t.ctx fn n).state = 5))

/-- R425 to R427, R429 to R431: an event in a shared structure is recorded and told to its blast set; one that cannot
be contained resets those partitions; the watchdog; the end of a partition reset. The order and the details of a
partition reset (log entry 71) and the numbers and instances of device error records (log entry 72) are deduced. -/
def Obligations.SharedStructuresAndPartitionResets : Prop :=
  ∀ (s : State) (e : SharedEvent) (p : Nat) (v : Part),
    let m := s.blastMap e.src e.inst
    let known := 1 ≤ e.src ∧ e.src ≤ 5 ∧ (e.kind ≤ 2 ∨ (e.kind = 4 ∧ e.src = 4))
    let recorded (t : State) (d : DeviceEvent) : Prop := t.devErrSeq = s.devErrSeq + 1
      ∧ ((∀ r ∈ s.devRecords, s.foldsInto d r = false) →
          t.devRecords.getLast? = some (d.bytes (s.devErrSeq + 1) s.deviceCycle d.paddr))
      ∧ ∀ r, s.devRecords.reverse.find? (s.foldsInto d) = some r →
          t.devRecords = s.devRecords.map (fun x => if x == r then countOnce x else x)
    let told (t : State) : Prop := recorded t ⟨e.src, e.kind, e.inst, m, e.addr, 0, 0, 0⟩
    let begins (t : State) (q : Nat) : Prop := (∀ w, t.part? q = some w → w.resetting = true)
      ∧ ∀ w, s.part? q = some w → w.resetting = false → ∀ sl ∈ s.slotsIn q, (t.slot sl).wait = none ∧ (t.slot sl).stall = none
        ∧ (t.slot sl).chain = none ∧ ∀ g, ((t.slot sl).seq g).q = []
    let r := s.watchdog p
    let off := v.resetting = true ∨ s.fatal ≠ none ∨ bitOf r 6 = false
    let ends (i : Instr) : Prop := ∃ t, exec i s = .next t
    let killed (x : Nat × Nat) : Prop := s.commandIs x.1 2 x.2 = true
    ends (.sharedStructureEvent e) ∧ ends (.watchdogFire p) ∧ ends (.partitionReset p)
    ∧ (¬known → Completes (.sharedStructureEvent e) s (fun t => t = s))
    ∧ (known → e.kind ≤ 1 → Completes (.sharedStructureEvent e) s (fun t => told t ∧ t.slots = s.slots ∧ t.parts = s.parts
        ∧ t.ports = s.ports))
    ∧ (known → e.kind = 2 → Completes (.sharedStructureEvent e) s (fun t => told t
        ∧ (e.src = 3 → e.inst ∈ t.channelsOut) ∧ (∀ q, q < 16 → bitOf m q = true → begins t q) ∧ ∀ q, bitOf m q = false → t.part? q = s.part? q))
    ∧ (known → e.kind = 4 → Completes (.sharedStructureEvent e) s (fun t => told t ∧ (t.port e.inst).up = false ∧ t.slots = s.slots
        ∧ ∀ c ∈ t.cmds, ∀ x ∈ c.remote, x.port ≠ e.inst))
    ∧ (s.part? p = none → Completes (.watchdogFire p) s (fun t => t = s) ∧ Completes (.partitionReset p) s (fun t => t = s))
    ∧ (s.part? p = some v →
        ((off ∨ s.stalledFor p v (r % 64) = none) → Completes (.watchdogFire p) s (fun t => t = s))
        ∧ (∀ who, ¬off → s.stalledFor p v (r % 64) = some who → Completes (.watchdogFire p) s (fun t =>
            recorded t ⟨7, 2, p, 2 ^ p, 0, 0, 0, who⟩ ∧ begins t p))
        ∧ (v.resetting = false → Completes (.partitionReset p) s (fun t => t = s))
        ∧ (v.resetting = true → Completes (.partitionReset p) s (fun t => ∀ fn ∈ s.fnsOf p, (s.fn fn).flr = true →
            (∀ x ∈ (s.fn fn).ctxs, x.2.state = 0) → (t.fn fn).flr = false
              ∧ ((s.fn fn).tdi ≠ 0 → (t.fn fn).tdi = 3 ∧ (t.fn fn).ide = none)))
        ∧ (v.resetting = true → (∀ fn ∈ s.fnsOf p, (s.fn fn).flr = false) → Completes (.partitionReset p) s (fun t =>
            (∃ w, t.part? p = some w ∧ w.resetting = false ∧ w.wdResets = min (v.wdResets + 1) 65535 ∧ w.loans = []
              ∧ ∀ n g, n < 4 * v.clusters.length → g ≠ .b → (mget (mget w.tiles n {}).kilns g {}).gen = seedOf v.drawseed n g.code)
            ∧ (∀ sl ∈ s.slotsIn p, (t.slot sl).task = none ∧ ∀ d ∈ t.cmds, d.slot ≠ sl)
            ∧ (∀ x ∈ s.ctxsOf p, ((s.ctx x.1 x.2).state = 1 ∨ (s.ctx x.1 x.2).state = 2 ∨ (s.ctx x.1 x.2).state = 4) →
                ((killed x → (t.ctx x.1 x.2).state = 5) ∧ (¬killed x → (t.ctx x.1 x.2).state = 1)) ∧ (t.ctx x.1 x.2).saved = []
                ∧ ∀ i k, mfind s.kernels i = some k → k.fn = x.1 → k.ctx = x.2 → mfind t.kernels i = none)
            ∧ ∀ x ∈ s.ctxsOf p, (s.ctx x.1 x.2).state = 3 → ¬killed x → t.ctx x.1 x.2 = s.ctx x.1 x.2)))

/-- R434, R437, R441 to R444: the periodic test and repairs, the management processor's resets, fatal errors and their
dump. Which free cluster a repair takes is free (log entry 41); the declaration of a defective cluster (log entry 73)
and what counts as unreadable (log entry 74) are deduced; the form of the dump’s sections (log entry 19) and the
heartbeat (log entry 78) are the model’s choice. -/
def Obligations.RepairsAndFatalErrors : Prop :=
  ∀ (s : State) (c p k cause info : Nat) (bad : List Nat) (v : Part) (f : Fatal),
    let m := s.mp
    let run := m.up = true ∧ s.fatal = none
    let marked (t : State) : Prop := (∀ x, x ∈ t.mp.dead ↔ x = c ∨ x ∈ m.dead)
    let idle (x : Nat) : Prop := ∀ q i, s.holder x = some (q, i) → ∀ sl ∈ s.slotsIn q, sl.tile / 4 ≠ i
    let die := c / 16
    let spare := die * 16 + Config.spareCluster die % 16
    let useSpare := die ∉ m.spareUsed ∧ spare ∉ m.dead ∧ spare ≠ c
    let free (x : Nat) := x ∈ s.freeClusters 0 16 ∧ isSpare x = false ∧ x ≠ c
    let ts := s.now :: m.resetAt.filter (fun t => decide (s.now < t + 126000000000))
    let wrong := m.jstate = 1 ∧ m.digest ≠ journalDigest m.lseq m.layout
    let status := mget s.regs 0x1608 0
    let img := s.dumpBytes f
    let off := mget s.regs 0x1610 0
    let stops (t : State) (g : Fatal) : Prop := t.fatal = some g ∧ t.cmds = [] ∧ t.slots = s.slots ∧ t.mem = s.mem
    ((¬run ∨ s.now < m.lastBist + 126000000000) → Completes (.periodicBuiltInTest bad) s (fun t => t = s))
    ∧ (run → m.lastBist + 126000000000 ≤ s.now → Completes (.periodicBuiltInTest bad) s (fun t => t.mp.lastBist = s.now
        ∧ (∀ x, x ∈ t.mp.dead ↔ x ∈ m.dead ∨ (x < 64 ∧ x ∈ bad ∧ idle x)) ∧ t.slots = s.slots ∧ t.parts = s.parts))
    ∧ ((¬run ∨ 64 ≤ c) → Completes (.clusterRepair c) s (fun t => t = s))
    ∧ (run → c < 64 → s.holder c = none → Completes (.clusterRepair c) s (fun t => marked t ∧ t.parts = s.parts ∧ t.slots = s.slots))
    ∧ (run → c < 64 → s.holder c = some (p, k) → s.part? p = some v →
        ((s.mayCommit [p] = false ∨ m.repairing ≠ none) → Completes (.clusterRepair c) s (fun t => marked t ∧ t.parts = s.parts
          ∧ t.mp.jstate = m.jstate))
        ∧ (s.mayCommit [p] = true → m.repairing = none → Completes (.clusterRepair c) s (fun t => marked t ∧ t.mp.repairing = some c
            ∧ t.mp.jstate = 1 ∧ ∃ l, t.mp.layout = [l] ∧ l.part = p ∧ (l.gone = true ↔ l.clusters = []) ∧ l.keys = v.keys
              ∧ (useSpare → l.clusters = v.clusters.set k spare ∧ t.mp.spareUsed = die :: m.spareUsed)
              ∧ (¬useSpare → t.mp.spareUsed = m.spareUsed)
              ∧ (¬useSpare → (∃ x, free x) → ∃ x, free x ∧ l.clusters = v.clusters.set k x)
              ∧ (¬useSpare → (∀ x, ¬free x) →
                  l.clusters = (v.clusters.set k (v.clusters.getLastD 0)).take (v.clusters.length - 1))
              ∧ (∀ sl ∈ s.slotsIn p, s.unreadable sl = true → (s.gangOf sl).isSome → sl ∈ s.gangSlots sl → ∃ x, (t.slot sl).ending = some x
                  ∧ (x = .discard ∨ x = .fail { cause := 0x07, val := 0 }))
              ∧ (l.clusters ≠ [] → (∀ sl, s.unreadable sl = false) → SlotsButYield s t))))
    ∧ ((m.up = false ∨ s.now < m.beat + 1050000000) → Completes .mpWatchdogReset s (fun t => t = s))
    ∧ (m.up = true → m.beat + 1050000000 ≤ s.now → Completes .mpWatchdogReset s (fun t =>
        t.mp = { m with up := false, resetAt := ts, sessions := [], reclass := none, moved := 0 } ∧ (ts.length < 3 → t.fatal = s.fatal ∧ t.cmds = s.cmds)
        ∧ (3 ≤ ts.length → s.fatal = none → stops t ⟨4, 0xFF, s.deviceCycle⟩)))
    ∧ ((m.up = true ∨ m.startStep = 0) → Completes .mpRestart s (fun t => t = s))
    ∧ (m.up = false → m.startStep ≠ 0 → ¬wrong → Completes .mpRestart s (fun t => t.mp = { m with up := true, beat := s.now }
        ∧ t.parts = s.parts))
    ∧ (m.up = false → m.startStep ≠ 0 → wrong → Completes .mpRestart s (fun t => t.mp.up = true ∧ t.mp.jstate = 0
        ∧ t.mp.repairing = none ∧ (∀ l ∈ m.layout, ∀ w, t.part? l.part = some w → w.paused = false)
        ∧ ∀ q w, s.part? q = some w → ∃ x, t.part? q = some x ∧ x.clusters = w.clusters ∧ x.keys = w.keys))
    ∧ (1 ≤ cause → cause ≤ 6 → s.fatal = none → Completes (.fatalError cause info) s (fun t =>
        stops t ⟨cause, info % 256, s.deviceCycle⟩ ∧ t.regs = s.regs))
    ∧ ((cause = 0 ∨ 6 < cause ∨ s.fatal ≠ none) → Completes (.fatalError cause info) s (fun t => t = s))
    ∧ ((s.fatal = none ∨ bitOf status 0 = true) → Completes .dumpDone s (fun t => t = s))
    ∧ (s.fatal = some f → bitOf status 0 = false → Completes .dumpDone s (fun t => t.dump = img.take 0x10000000
        ∧ (∀ o, mget t.regs o 0 = if o = 0x1608 then 1 + (if 0x10000000 < img.length then 2 else 0) + f.cause * 16
            else mget s.regs o 0)
        ∧ t.power.powered = (s.power.powered && f.cause != 5) ∧ t.out = s.out ++ [⟨2, [0, 0], []⟩, ⟨3, [1], []⟩]
        ∧ t.slots = s.slots ∧ t.mem = s.mem))
    ∧ ((bitOf status 0 = false ∨ 0x10000000 ≤ off) → Completes .dumpWindowRead s (fun t =>
        t.out = s.out ++ [⟨50, [], List.replicate 8 0xFF⟩] ∧ t.regs = s.regs))
    ∧ (bitOf status 0 = true → off < 0x10000000 → Completes .dumpWindowRead s (fun t => mget t.regs 0x1610 0 = off + 8
        ∧ t.dump = s.dump ∧ ∃ b, t.out = s.out ++ [⟨50, [], b⟩] ∧ b.length = 8 ∧ ∀ i, i < 8 → b.getD i 0 = s.dump.getD (off + i) 0))

/-- R323: a soft error flips the bits that it names: in memory, a die cache or a scratchpad they wait in their
segment; in a register or an accumulator the element changes, and one whose parity is then odd, or that the code
detects, is known for its next read. That a scalar register is marked when it is struck is the model’s choice (log
entry 47). -/
def Obligations.SoftErrorsFlipBits : Prop :=
  ∀ (s : State) (a : Nat) (sl : SlotId) (bits : List Nat) (clean : Bool) (m : Fin 16) (e : Fin 1024) (n : Fin 4) (k : Fin 16384)
      (r : Fin 64) (id at_ : Nat),
    let struck (xs ys : List Byte) : Prop := xs.length = ys.length ∧ ∀ j b, j < ys.length → b < 8 →
      (xs.getD j 0).getLsbD b = ((ys.getD j 0).getLsbD b != decide (8 * j + b ∈ bits))
    let still (t : State) : Prop := t.slots = s.slots ∧ t.mem = s.mem ∧ t.poison = s.poison
    let waits (i : Instr) (seg : Nat) (cache : Option Bool) : Prop := Completes i s (fun t => still t
      ∧ (∃ f ∈ t.flips, f.seg = seg ∧ f.cache = cache ∧ ∀ b, b ∈ f.bits ↔
          ¬(b ∈ bits ↔ ∃ g, s.flips.find? (fun x => x.seg == seg && x.cache == cache) = some g ∧ b ∈ g.bits))
      ∧ ∀ g, (g.seg ≠ seg ∨ g.cache ≠ cache) → (g ∈ t.flips ↔ g ∈ s.flips))
    let within (w : Nat) : List Nat := (bits.eraseDups).filter (fun b => decide (b < w))
    let mask (w : Nat) : Nat := sumOf ((within w).map (2 ^ ·))
    let busy := (s.slot sl).task.isSome = true
    let gone (i : Instr) : Prop := Completes i s (fun t => t = s)
    let old := (s.slot sl).regs
    let i := (s.slot sl).sIndex r
    let one := (within 64).length = 1 ∧ i ∉ old.sflip
    let seen := (within 64).length ≤ 2 ∨ beyond i (within 64) = .detected
    let wrong := if (within 64).length ≤ 2 then within 64 else match beyond i (within 64) with
      | .miscorrected _ => (Config.miscorrected i (within 64)).eraseDups.filter (fun b => decide (b < 64))
      | _ => within 64
    (a < 0x8000000000 → waits (.softError (.mem a bits)) (a / 64) none
      ∧ waits (.softError (.cache a bits clean)) (a / 64) (some clean))
    ∧ (0x8000000000 ≤ a → gone (.softError (.mem a bits)) ∧ gone (.softError (.cache a bits clean)))
    ∧ (s.localHeld sl a = true → waits (.softError (.scratch sl a bits)) (s.localPhys sl a / 64) none)
    ∧ (s.localHeld sl a = false → gone (.softError (.scratch sl a bits)))
    ∧ ((¬busy ∨ within 32 = []) → gone (.softError (.matrix sl m e bits)))
    ∧ ((¬busy ∨ within 40 = []) → gone (.softError (.accum sl n k bits)))
    ∧ ((¬busy ∨ within 64 = [] ∨ r = 0) → gone (.softError (.scalar sl r bits)))
    ∧ (¬busy → gone (.softError (.vector sl m e bits)))
    ∧ (busy → Completes (.softError (.vector sl m e bits)) s (fun t => t.mem = s.mem ∧ (∀ x, x ≠ sl → t.slot x = s.slot x)
        ∧ (∀ x, mget (t.slot sl).regs.m x 0 = if x = 1024 * m.val + e.val then mget old.m x 0 ^^^ BitVec.ofNat 32 (mask 32)
            else mget old.m x 0) ∧ (t.slot sl).regs.mpoison = old.mpoison ∧ (t.slot sl).regs.modd = old.modd))
    ∧ (s.cmd? id = none → gone (.softError (.flight id at_ bits)))
    ∧ (∀ c, s.cmd? id = some c →
        (∀ y, c.moves[at_]? = some y → Completes (.softError (.flight id at_ bits)) s (fun t => still t ∧ ∃ d z, t.cmd? id = some d
          ∧ d = { c with moves := c.moves.set at_ z } ∧ z = { y with bytes := z.bytes } ∧ struck z.bytes y.bytes))
        ∧ (c.moves[at_]? = none → (c.executed = false ∨ c.dst[at_]? = none ∨ c.bank = none) →
            gone (.softError (.flight id at_ bits)))
        ∧ (∀ d, c.moves[at_]? = none → c.executed = true → c.dst[at_]? = some d → c.bank ≠ none →
            Completes (.softError (.flight id at_ bits)) s (fun t => t.slots = s.slots ∧ t.cmds = s.cmds ∧ t.poison = s.poison
              ∧ struck ((List.range d.2).map (fun j => Memory.read t.mem (d.1 + j))) ((List.range d.2).map (fun j => Memory.read s.mem (d.1 + j)))
              ∧ ∀ y, y < d.1 ∨ d.1 + d.2 ≤ y → Memory.read t.mem y = Memory.read s.mem y)))
    ∧ (busy → within 32 ≠ [] → Completes (.softError (.matrix sl m e bits)) s (fun t => t.mem = s.mem
        ∧ (∀ x, x ≠ sl → t.slot x = s.slot x)
        ∧ (∀ x, mget (t.slot sl).regs.m x 0 = if x = 1024 * m.val + e.val then mget old.m x 0 ^^^ BitVec.ofNat 32 (mask 32)
            else mget old.m x 0)
        ∧ (t.slot sl).regs.mpoison = old.mpoison
        ∧ ∀ x, x ∈ (t.slot sl).regs.modd ↔ ¬(x ∈ old.modd ↔ x = 1024 * m.val + e.val ∧ (within 32).length % 2 = 1)))
    ∧ (busy → within 40 ≠ [] → Completes (.softError (.accum sl n k bits)) s (fun t => t.mem = s.mem
        ∧ (∀ x, x ≠ sl → t.slot x = s.slot x)
        ∧ (∀ x y, mget (mget (t.slot sl).regs.a x {}).el y 0 = if x = n.val ∧ y = k.val then
            mget (mget old.a x {}).el y 0 ^^^ BitVec.ofNat 40 (mask 40) else mget (mget old.a x {}).el y 0)
        ∧ (mget (t.slot sl).regs.a n {}).poison = (mget old.a n {}).poison
        ∧ ∀ y, y ∈ (mget (t.slot sl).regs.a n {}).odd ↔ ¬(y ∈ (mget old.a n {}).odd ↔ y = k.val ∧ (within 40).length % 2 = 1)))
    ∧ (busy → within 64 ≠ [] → r ≠ 0 → Completes (.softError (.scalar sl r bits)) s (fun t => t.mem = s.mem
        ∧ (∀ x, x ≠ sl → t.slot x = s.slot x)
        ∧ (one → (t.slot sl).regs = { old with sflip := i :: old.sflip })
        ∧ (¬one → (∀ x, mget (t.slot sl).regs.s x 0 = if x = i then mget old.s x 0 ^^^ BitVec.ofNat 64 (sumOf (wrong.map (2 ^ ·))) else mget old.s x 0)
            ∧ ∀ x, x ∈ (t.slot sl).regs.spoison ↔ x ∈ old.spoison ∨ (x = i ∧ seen))))

/-- R438 to R440: the requests of a migration and which states refuse them, the stream that goes out 8 bytes at a
time, and the stream that comes in and is rejected where a header or the digest is wrong. The form of the stream’s
record bodies (log entry 48) and of the messages (log entry 19) is the model’s choice. -/
def Obligations.MigrationOfAFunction : Prop :=
  ∀ (s : State) (fn v : Nat),
    let f := s.fn fn
    let err (t : State) : Prop := t.reg fn 0x1408 = 8 ∧ t.slots = s.slots ∧ t.mem = s.mem ∧ (t.fn fn).mig = f.mig
    let refuses (i : Instr) (ok : Prop) : Prop := (¬ok ∨ fn = 0) → Completes i s (fun t => err t)
    let func := streamRecord 1 0 0 (toBytes 1 (maskOf 8 (fun c => (s.ctx fn c).state != 0)))
    let running (c : Nat) : Prop := c < 8 ∧ (s.ctx fn c).state = 1
    let cleared (t : State) : Prop := (t.fn fn).migOut = [] ∧ (t.fn fn).migAll = [] ∧ (t.fn fn).migIn = [] ∧ (t.fn fn).migSent = []
      ∧ (t.fn fn).migStage = 0
    let read (t : State) (b : List Byte) : Prop := t.out = s.out ++ [⟨51, [fn], b⟩]
    let b := f.migIn ++ toBytes 8 v
    let n := 16 + (blockNum b 4 4 + 7) / 8 * 8
    let ty := blockNum b 0 2
    let c := blockNum b 2 1
    let body := (b.drop 16).take (blockNum b 4 4)
    let whole := 16 ≤ b.length ∧ streamHeaderOk (b.take 16) = true ∧ n ≤ b.length
    let rejected (t : State) : Prop := t.reg fn 0x1408 = 8 ∧ (t.fn fn).mig = 0 ∧ cleared t
      ∧ ∀ x, x < 8 → (s.ctx fn x).state ≠ 0 → (t.ctx fn x).state = 5
    let kept (t : State) : Prop := (t.fn fn).migIn = [] ∧ (t.fn fn).migAll = f.migAll ++ b ∧ (t.fn fn).mig = 4
    refuses (.migrationPreCopy fn) (f.mig = 0) ∧ refuses (.migrationStopping fn) (f.mig = 0 ∨ f.mig = 1)
    ∧ refuses (.migrationResuming fn) (f.mig = 0 ∧ ∀ x, x < 8 → (s.ctx fn x).state = 0)
    ∧ (f.mig ≠ 1 → f.mig ≠ 3 → Completes (.migrationRunning fn) s (fun t => err t))
    ∧ (fn ≠ 0 → f.mig = 0 → Completes (.migrationPreCopy fn) s (fun t => (t.fn fn).mig = 1 ∧ (t.fn fn).migOut = func
        ∧ (t.fn fn).migAll = func ∧ (t.fn fn).migStage = 1 ∧ t.slots = s.slots ∧ t.mem = s.mem))
    ∧ (fn ≠ 0 → (f.mig = 0 ∨ f.mig = 1) → Completes (.migrationStopping fn) s (fun t => (t.fn fn).mig = 2
        ∧ (∀ x, running x → (t.ctx fn x).state = 2 ∨ (t.ctx fn x).state = 3) ∧ SlotsButYield s t ∧ t.mem = s.mem
        ∧ ∀ x, (x, 1) ∈ (t.fn fn).migStates ↔ running x))
    ∧ (fn ≠ 0 → f.mig = 0 → (∀ x, x < 8 → (s.ctx fn x).state = 0) →
        Completes (.migrationResuming fn) s (fun t => (t.fn fn).mig = 4 ∧ cleared t ∧ t.slots = s.slots ∧ t.mem = s.mem))
    ∧ (f.mig = 1 → Completes (.migrationRunning fn) s (fun t => (t.fn fn).mig = 0 ∧ cleared t ∧ (t.fn fn).ctxs = f.ctxs
        ∧ t.slots = s.slots ∧ t.mem = s.mem))
    ∧ (f.mig = 3 → Completes (.migrationRunning fn) s (fun t => (t.fn fn).mig = 0 ∧ cleared t ∧ t.slots = s.slots
        ∧ ∀ x, (x, 1) ∈ f.migStates → (s.ctx fn x).state = 3 → (t.ctx fn x).auto = true))
    ∧ (fn ≠ 0 → (f.mig = 0 ∨ f.mig = 4) → Completes (.migrationStreamRead fn) s (fun t => read t (List.replicate 8 0xFF)
        ∧ t.fns = s.fns))
    ∧ (s.migAvail fn = 0 → ¬(f.mig = 2 ∧ ∃ x, running x) → Completes (.migrationStreamRead fn) s (fun t => read t (List.replicate 8 0xFF) ∧ t.mem = s.mem
        ∧ (t.fn fn).migAll = f.migAll ∧ (t.fn fn).mig = f.mig))
    ∧ ((f.mig = 1 ∨ f.mig = 2 ∨ f.mig = 3) → 8 < f.migOut.length → Completes (.migrationStreamRead fn) s (fun t =>
        read t (f.migOut.take 8) ∧ (t.fn fn).migOut = f.migOut.drop 8 ∧ (t.fn fn).mig = f.mig ∧ (t.fn fn).migAll = f.migAll))
    ∧ (f.mig = 2 → f.migStage = 2 → f.migOut.length = 8 → Completes (.migrationStreamRead fn) s (fun t =>
        read t f.migOut ∧ (t.fn fn).migOut = [] ∧ (t.fn fn).mig = 3))
    ∧ (f.mig ≠ 4 → Completes (.migrationStreamWrite fn v) s (fun t => t = s))
    ∧ (f.mig = 4 → (b.length < 16 ∨ (streamHeaderOk (b.take 16) = true ∧ b.length < n)) →
        Completes (.migrationStreamWrite fn v) s (fun t => t.fn fn = { f with migIn := b } ∧ t.mem = s.mem ∧ t.slots = s.slots))
    ∧ (fn ≠ 0 → f.mig = 4 → 16 ≤ b.length → streamHeaderOk (b.take 16) = false →
        Completes (.migrationStreamWrite fn v) s (fun t => rejected t))
    ∧ (fn ≠ 0 → f.mig = 4 → whole →
        ((ty = 1 ∨ ty = 3) → Completes (.migrationStreamWrite fn v) s (fun t => kept t ∧ t.slots = s.slots ∧ t.mem = s.mem))
        ∧ (ty = 2 → ((s.ctx fn c).state = 0 ∨ (blockNum body 0 1 ≠ 1 ∧ blockNum body 0 1 ≠ 3)) →
            Completes (.migrationStreamWrite fn v) s (fun t => rejected t))
        ∧ (ty = 2 → (s.ctx fn c).state ≠ 0 → (blockNum body 0 1 = 1 ∨ blockNum body 0 1 = 3) →
            Completes (.migrationStreamWrite fn v) s (fun t => kept t ∧ (t.ctx fn c).pdeadline = blockNum body 2 2
              ∧ (t.ctx fn c).slice = blockNum body 4 4 ∧ mfind (t.fn fn).migStates c = some (blockNum body 0 1)))
        ∧ (∀ x, ty = 4 → (s.ctx fn c).state ≠ 0 → s.ctxPhys fn c (blockNum b 8 8) = some x →
            (blockNum b 8 8 < (s.ctx fn c).saveBase ∨
              0x480000 * 32 * s.nclus (s.partOfFn fn) ≤ blockNum b 8 8 - (s.ctx fn c).saveBase) →
            Completes (.migrationStreamWrite fn v) s (fun t => kept t
              ∧ (∀ i, i < 0x10000 → Memory.read t.mem (x + i) = body.getD i 0)
              ∧ ∀ y, y < x ∨ x + 0x10000 ≤ y → Memory.read t.mem y = Memory.read s.mem y))
        ∧ (ty = 5 → ofBytes body ≠ (Config.sha256 (f.migAll ++ b.take 16)).toNat → Completes (.migrationStreamWrite fn v) s (fun t => rejected t))
        ∧ (ty = 5 → ofBytes body = (Config.sha256 (f.migAll ++ b.take 16)).toNat → Completes (.migrationStreamWrite fn v) s (fun t =>
            (t.fn fn).mig = 0 ∧ cleared t ∧ ((∀ x ∈ f.migStates, x.2 ≠ 3) → t.mem = s.mem)
              ∧ ((f.migStates.map (·.1)).Nodup → ∀ x ∈ f.migStates, (t.ctx fn x.1).state = x.2))))

/-- R449 to R454: a module reset, the six steps of start-up in their order, and the clock, the power cap and the
thermal signals. How many steps the clock changes by, which dies fail and the device number are free (log entry 20).
-/
def Obligations.ResetStartUpAndPower : Prop :=
  ∀ (s : State) (bad : List Nat) (on : Bool) (x : Nat),
    let m := s.mp
    let w := s.power
    let cap := mget s.regs 0x1710 0
    let quiet := s.fatal = none ∧ w.powered = true
    let step (i : Instr) (n : Nat) (P : State → Prop) : Prop :=
      ((m.startStep + 1 ≠ n ∨ ¬quiet) → Completes i s (fun t => t = s))
      ∧ (m.startStep + 1 = n → quiet → Completes i s (fun t => t.mp.startStep = n ∧ t.slots = s.slots ∧ P t))
    let spare (d : Nat) := d * 16 + Config.spareCluster d % 16
    let dead (c : Nat) : Prop := c < 16 * s.ndie ∧ c ∈ bad
    let calm (t : State) : Prop := t.power.average ≤ cap ∧ t.power.junction < 95 ∧ t.power.pwrbrk = false
    let noted (t : State) : Prop := (¬calm t → t.power.clearSince = none)
      ∧ (calm t → t.power.clearSince = some (w.clearSince.getD s.now))
    let only (t : State) : Prop := t.slots = s.slots ∧ t.mem = s.mem ∧ t.regs = s.regs ∧ t.mp = s.mp ∧ t.parts = s.parts
    let lowered (t : State) : Prop := ∃ k, 1 ≤ k ∧ k ≤ 9 ∧ t.power.clock = max 1200 (w.clock - 100 * k)
    let measured (t : State) : Prop := only t ∧ t.power.junction = x ∧ noted t
      ∧ (x < 95 → t.power.clock = w.clock ∧ t.power.byHeat = w.byHeat) ∧ (95 ≤ x → lowered t ∧ t.power.byHeat = true)
      ∧ (t.power.thermAlert = true ↔ 105 ≤ x ∨ (w.thermAlert = true ∧ 100 ≤ x)) ∧ (x < 110 → t.fatal = s.fatal ∧ t.cmds = s.cmds)
      ∧ (110 ≤ x → s.fatal = none → t.fatal = some ⟨5, 0xFF, s.deviceCycle⟩ ∧ t.cmds = [])
    let raises := ∃ t0, w.clearSince = some t0 ∧ t0 + 21000000 ≤ s.now ∧ w.average ≤ cap ∧ w.junction < 95 ∧ w.pwrbrk = false
    Completes .moduleReset s (fun t => t = { State.reset with
        mem := s.mem.filter (fun c => isHostAperture c.1)
        variant := s.variant
        regs := [(0x1710, if s.variant = 0 then 2600 else 1400)]
        now := s.now
        stepNo := s.stepNo
        fresh := s.fresh
        turn := s.turn
        out := s.out })
    ∧ step .managementProcessorBoot 1 (fun t => t.mp = { m with up := true, beat := s.now, startStep := 1 } ∧ t.mem = s.mem)
    ∧ step .dieBoot 2 (fun t => (∀ d ∈ t.mp.deadDies, d < s.ndie)
        ∧ ((∀ d, d < s.ndie → d ∈ t.mp.deadDies) ↔ t.fatal = some ⟨6, 0xFF, s.deviceCycle⟩)
        ∧ ((∃ d, d < s.ndie ∧ d ∉ t.mp.deadDies) → t.fatal = none) ∧ t.mem = s.mem)
    ∧ step .hbmTraining 3 (fun t => (∀ a, Memory.read t.mem a = if a < 0x8000000000 then 0 else Memory.read s.mem a)
        ∧ (∀ a, t.classOf a = 0) ∧ (∀ a, t.frame a = {}) ∧ t.classLocks = [])
    ∧ step (.clusterBuiltInTest bad) 4 (fun t => (∀ c, c ∈ t.mp.dead ↔ dead c)
        ∧ (∀ d, d ∈ t.mp.spareUsed ↔ d < s.ndie ∧ ¬dead (spare d) ∧ ∃ c, dead c ∧ c / 16 = d ∧ c ≠ spare d)
        ∧ t.mp.lastBist = s.now ∧ t.mem = s.mem)
    ∧ step .dumpAreaReservation 5 (fun t => mget t.regs 0x1600 0 = Config.dumpBase ∧ t.devNumber < 4096
        ∧ (∀ d, d < 4096 → mget t.routes d 0 = Config.routeOf d)
        ∧ (∀ n, n < 24 → t.port n = { up := true }) ∧ t.mem = s.mem)
    ∧ step .hostLinkTraining 6 (fun t => t.mp = { m with startStep := 6 } ∧ t.mem = s.mem ∧ t.regs = s.regs)
    ∧ Completes (.pwrbrk on) s (fun t => only t ∧ t.power.pwrbrk = on ∧ t.power.clock = (if on then 1200 else w.clock)
        ∧ t.power.byBrk = (w.byBrk || on) ∧ noted t)
    ∧ Completes (.powerAverage x) s (fun t => only t ∧ t.power.average = x ∧ noted t
        ∧ (x ≤ cap → t.power.clock = w.clock ∧ t.power.byCap = w.byCap) ∧ (cap < x → lowered t ∧ t.power.byCap = true))
    ∧ Completes (.junctionThrottle x) s measured
    ∧ (¬raises → Completes .clockRaise s (fun t => t = s))
    ∧ (raises → Completes .clockRaise s (fun t => only t ∧ (∃ k, 1 ≤ k ∧ k ≤ 9 ∧ t.power.clock = min 2100 (w.clock + 100 * k))
        ∧ (t.power.clock = 2100 → t.power.byCap = false ∧ t.power.byHeat = false ∧ t.power.byBrk = false)
        ∧ (t.power.clock ≠ 2100 → t.power.byCap = w.byCap ∧ t.power.byHeat = w.byHeat ∧ t.power.byBrk = w.byBrk)))
    ∧ Completes (.thermAlert x) s measured
    ∧ (x < 110 → Completes (.thermalTrip x) s (fun t => t = s))
    ∧ (110 ≤ x → Completes (.thermalTrip x) s measured)

/-- R42, R43, R53: decoding what encoding gives is the instruction itself, for every well-formed instruction word,
with every operand at every value that its encoding admits. -/
def Obligations.DecodeUndoesEncode : Prop :=
  ∀ i : Instr, isWord i = true → wellFormed i = true → decodeWords (encode i) = .ok (i, (encode i).length)

/-- Every step keeps memory in its canonical form: addresses rising, no entry equal to what an unlisted address reads
as. The canonical form, and zero as what an unlisted byte reads as, are the model’s choice (log entry 3). -/
def Obligations.StepKeepsMemoryCanonical : Prop :=
  ∀ s t : State, Memory.wf s.mem = true → step s = .next t → Memory.wf t.mem = true

/-- R4, R8, R30, R314, R429, R447, R449, R451: what reset leaves, in the device and in a slot where a task has yet to
start; and reset memory is canonical. Values for which the spec states no reset value are the model’s choice (log
entry 5). -/
def Obligations.ResetValues : Prop :=
  Memory.wf State.reset.mem = true
  ∧ (∀ a, Memory.read State.reset.mem a = 0) ∧ (∀ a, State.reset.full a = false) ∧ (∀ p, State.reset.part? p = none)
  ∧ (∀ fn c, (State.reset.ctx fn c).state = 0) ∧ (∀ sl, State.reset.slot sl = {}) ∧ State.reset.cmds = []
  ∧ State.reset.kernels = [] ∧ (∀ fn, State.reset.fn fn = {}) ∧ State.reset.fatal = none
  ∧ (∀ fn off, State.reset.reg fn off = if fn = 0 ∧ off = 0x1710 then 2600 else 0)
  ∧ (∀ p, p < 16 → State.reset.hostRead 0 (0x1500 + 8 * p) = 31 + 64)
  ∧ State.reset.hostRead 0 0x1700 = State.reset.devfeat ∧ State.reset.hostRead 0 0x1718 = 2100
  ∧ (∀ fn, State.reset.hostRead fn 0x1120 = 0)
  ∧ (State.reset.mp.up = false ∧ State.reset.mp.startStep = 0)
  ∧ (let v : Slot := {}
     (∀ n, v.readS n = 0) ∧ v.readP 0 = 0xFFFFFFFF#32 ∧ (∀ n, n ≠ 0 → v.readP n = 0) ∧ (∀ n, (v.readH n).valid = false)
     ∧ v.csr.fpcsr = 0 ∧ (∀ c, v.csr.gen c = seedGenerator 0 c) ∧ v.level = false ∧ ∀ e, (v.seq e).q = [])

/-- R54, R55, R57, R66, R241, R307: a step at a control core whose PC holds an instruction runs that instruction and
no other; at an engine it runs the instruction at the head of the queue of the slot that holds the grant, with the
error that ERRINJ armed for that boundary where the word does not stall; an event's turn is that event. -/
def Obligations.StepRunsTheDecodedInstruction : Prop :=
  ∀ (s : State) (sl : SlotId) (w : Nat) (pre : Option Nat) (i : Instr) (e : Engine) (en : Entry) (g : Grant) (a : Nat),
    let v := s.slot sl
    let s0 := (s.tookTurn sl).settleFetch sl
    let s1 := s0.atWord sl w pre
    let q := v.seq e
    let s2 := { s with cur := { slot := sl, engine := some e, entry := en } }.signAt sl e q.pos
    let begun := e = .m ∧ (s.epiCmd sl).isSome = true
    let hit := ¬begun ∧ (s2.slot sl).csr.atBoundary e = true
    let stalls (o : Host.Outcome State Fault Refusal) : Prop := ∃ t, o = .next t ∧ t.cur.status = .stalled
    let goesOn (o : Host.Outcome State Fault Refusal) : Prop := step s = onNext o (fun t =>
      let u := t.afterEntry sl e
      State.tick exec (if u.cur.status = .stalled then u.endGrant sl.tileId e else u))
    let bytes (b : Nat) : List Byte := (List.range 4).map (fun n => Memory.read s.mem (b + n))
    (s.turn = .core sl → s.stopped sl = false → (v.traps = [] ∨ v.level = true) → v.exhausted = false → v.deliverable = false →
      v.wait = none → s.issueTurn sl = true → s0.fetch sl = .word w pre → queuedEngine w = none → s1.absentFeature w = false →
      decodeWord w (pre.map payloadOf) = .ok i → ((s1.slot sl).bundles = [] ∨ inBundle i = true) →
      (s1.forbids sl i = true → step s = onNext (exec i s1) (State.tick exec))
      ∧ (s1.forbids sl i = false → (∀ n ∈ scalarReads i ++ scalarWrites i, (s1.slot sl).isPending n = false) →
      (∀ n ∈ scalarReads i, n ≠ 0 → (s1.slot sl).sIndex n ∉ (s1.slot sl).regs.spoison) →
      step s = onNext (exec i (s1.settleScalars sl (scalarReads i)))
        (fun t => State.tick exec (t.modSlot sl (fun x => { x with resumed := false })))))
    ∧ (s.hist = [] → s.fetchAddr sl v.pc.toNat = some a →
        (∀ j, decode (bytes a) = .ok (j, 1) → s.fetch sl = .word (ofBytes (bytes a)) none ∧ decodeWord (ofBytes (bytes a)) none = .ok j)
        ∧ ∀ b j, field (ofBytes (bytes a)) 29 3 = 7 → s.fetchAddr sl (v.pc.toNat + 4) = some b →
            decode (bytes a ++ bytes b) = .ok (j, 2) →
            s.fetch sl = .word (ofBytes (bytes b)) (some (ofBytes (bytes a) % 2 ^ 29))
            ∧ decodeWord (ofBytes (bytes b)) (some (payloadOf (ofBytes (bytes a) % 2 ^ 29))) = .ok j)
    ∧ (s.turn = .engine sl e → e ≠ .b → s.engineStopped sl e = false → (s.kiln sl.tileId e).grant = some g → g.slot = sl.slot →
        ((s.now < g.start + quantum e ∧ e ∉ v.yield) ∨ begun) → q.q[q.pos]? = some en → s.loopsAllow sl e = true → en.kind = .word →
        (e = .x → v.chain = none) → q.skip = 0 → en.poison = none → decodeWord en.word (en.pre.map payloadOf) = .ok i →
        ((¬hit ∨ stalls (exec i (s2.inject sl))) → goesOn (exec i s2))
        ∧ (hit → ¬stalls (exec i (s2.inject sl)) → goesOn (exec i (s2.inject sl))))
    ∧ (s.turn = .event i → (i = .moduleReset ∨ i = .hostLinkTraining ∨ i = .mpRestart ∨ i = .dumpDone ∨ i = .clockRaise) →
        step s = onNext (exec i s) (State.tick exec))

/-- R7, R43, R53, R84, R91, R96, R100, R112, R147, R159, R196, R209, R219, R227, R231: words that the spec writes out
decode to the instructions that it gives for them; the words 0 and two prefixes do not decode. -/
def Obligations.WordsOfTheSpecDecode : Prop :=
  decodeWords [0x0A450123] = .ok (.movi 5 0x123 none, 1)
  ∧ decodeWords [0xE0000001, 0x0A472345] = .ok (.movi 7 0x2345 (some 1), 2)
  ∧ decodeWords [0x08051BFD] = .ok (.addi 5 6 0x3FD none, 1)
  ∧ decodeWords [0x104503FE] = .ok (.bne 5 0 0x3FE none, 1)
  ∧ decodeWords [0x14851384] = .ok (.ldl 5 4 7 4 none, 1)
  ∧ decodeWords [0x16050401] = .ok (.aadd 5 1 0 1, 1)
  ∧ decodeWords [0xC407080A] = .ok (.waitc 7 2 0 10 none, 1)
  ∧ decodeWords [0xC6000015] = .ok (.fence 1 5 none, 1)
  ∧ decodeWords [0x20030420] = .ok (.vadd 0x03 0x01 0x02 0 0, 1)
  ∧ decodeWords [0x22044B33] = .ok (.vfma 0x04 0x12 0x33 1 1, 1)
  ∧ decodeWords [0x30838499] = .ok (.vcmpLtF32 7 0x02 0x13 1, 1)
  ∧ decodeWords [0x600920A0] = .ok (.xcpy 9 8 10 0 0, 1)
  ∧ decodeWords [0xA0C030D0] = .ok (.bkgsum 0 12 13 0, 1)
  ∧ decodeWords [0x80900832] = .ok (.dfromvV 4 0 1 0x03 1, 1)
  ∧ decodeWords [0x86148400] = .ok (.dmom 5 2 1 0, 1)
  ∧ decodeWords [0x86588071] = .ok (.dqnt 6 2 0x07 0, 1)
  ∧ decodeWords [0] = .error .unassigned ∧ decodeWords [0xE0000001, 0xE0000001] = .error .prefixOfPrefix
end

