-- ==== Sys2Proof/Laws/Memory.lean ====
section
/-!
SUPPORT. Memory: a read after a write, and the canonical form, which every memory operation keeps.
-/

namespace Sys2Proof.Machine

@[simp] theorem Memory.read_filter (m : List Host.Cell) (a x : Nat) :
    Memory.read (m.filter (fun c => decide (c.1 ≠ a))) x = if x = a then Memory.unlisted else Memory.read m x := by
  induction m with
  | nil => simp [Memory.read]
  | cons c r ih =>
    obtain ⟨k, v⟩ := c
    by_cases h : k = a
    · subst h
      simp only [List.filter, ne_eq, not_true_eq_false, decide_false, ih, Memory.read]
      split
      · rfl
      · next h => rw [if_neg (fun e => h e.symm)]
    · simp only [List.filter, ne_eq, h, not_false_eq_true, decide_true, Memory.read, ih]
      split <;> simp_all

theorem Memory.read_insert (m : List Host.Cell) (a x : Nat) (b : Byte) (h : Memory.read m a = Memory.unlisted)
    (hm : ∀ c ∈ m, c.1 ≠ a) : Memory.read (Memory.insert m a b) x = if x = a then b else Memory.read m x := by
  induction m with
  | nil => simp [Memory.insert, Memory.read, eq_comm]
  | cons c r ih =>
    obtain ⟨k, v⟩ := c
    have hk : k ≠ a := hm (k, v) (by simp)
    have hr : Memory.read r a = Memory.unlisted := by simpa [Memory.read, hk] using h
    have := ih hr (fun c hc => hm c (by simp [hc]))
    unfold Memory.insert
    split
    · simp [Memory.read, eq_comm]
    · simp only [Memory.read, this]
      split
      · next e => subst e; simp [hk]
      · rfl

/-- A read after a write of one byte. -/
@[simp] theorem Memory.read_write (m : List Host.Cell) (a x : Nat) (b : Byte) :
    Memory.read (Memory.write m a b) x = if x = a then b else Memory.read m x := by
  unfold Memory.write
  split
  · next h => subst h; rw [Memory.read_filter]
  · rw [Memory.read_insert _ _ _ _ (by rw [Memory.read_filter]; simp) (by simp), Memory.read_filter]
    split <;> rfl

/-- A read after a write of bytes. -/
theorem Memory.read_writeAll (bs : List Byte) (m : List Host.Cell) (a x : Nat) :
    Memory.read (Memory.writeAll m a bs) x = if a ≤ x ∧ x < a + bs.length then bs.getD (x - a) 0 else Memory.read m x := by
  induction bs generalizing m a with
  | nil =>
    rw [Memory.writeAll, if_neg (by simp only [List.length_nil]; omega)]
  | cons b bs ih =>
    rw [Memory.writeAll, ih, Memory.read_write, List.length_cons]
    by_cases h : x = a
    · subst h
      rw [if_neg (by omega), if_pos rfl, if_pos (by omega), Nat.sub_self]
      rfl
    · rw [if_neg h]
      by_cases h2 : a ≤ x ∧ x < a + (bs.length + 1)
      · obtain ⟨k, hk⟩ : ∃ k, x - a = k + 1 := ⟨x - a - 1, by omega⟩
        rw [if_pos (by omega), if_pos h2, hk, show x - (a + 1) = k by omega]
        rfl
      · rw [if_neg (by omega), if_neg h2]

/-! ## The canonical form -/

/-- Addresses rise above a bound, and no entry is what an unlisted address reads as. -/
def Memory.above : Nat → List Host.Cell → Prop
  | _, [] => True
  | n, (k, v) :: r => n ≤ k ∧ v ≠ Memory.unlisted ∧ Memory.above (k + 1) r

theorem Memory.above_mono {m : List Host.Cell} {a b : Nat} (h : a ≤ b) (hb : Memory.above b m) : Memory.above a m := by
  cases m with
  | nil => trivial
  | cons c r => obtain ⟨k, v⟩ := c; exact ⟨Nat.le_trans h hb.1, hb.2⟩

theorem Memory.wf_iff (m : List Host.Cell) : Memory.wf m = true ↔ Memory.above 0 m := by
  have key : ∀ (m : List Host.Cell) (k : Nat) (v : Byte),
      Memory.wf ((k, v) :: m) = true ↔ v ≠ Memory.unlisted ∧ Memory.above (k + 1) m := by
    intro m
    induction m with
    | nil => intro k v; simp [Memory.wf, Memory.above]
    | cons c r ih =>
      intro k v
      obtain ⟨k2, v2⟩ := c
      simp only [Memory.wf, Bool.and_eq_true, bne_iff_ne, ne_eq, decide_eq_true_eq, ih, Memory.above, and_assoc]
      rfl
  cases m with
  | nil => simp [Memory.wf, Memory.above]
  | cons c r => obtain ⟨k, v⟩ := c; rw [key]; simp [Memory.above]

theorem Memory.above_filter {m : List Host.Cell} {n : Nat} (p : Host.Cell → Bool) (h : Memory.above n m) :
    Memory.above n (m.filter p) := by
  induction m generalizing n with
  | nil => trivial
  | cons c r ih =>
    obtain ⟨k, v⟩ := c
    simp only [List.filter]
    split
    · exact ⟨h.1, h.2.1, ih h.2.2⟩
    · exact Memory.above_mono (Nat.le_succ_of_le h.1) (ih h.2.2)

theorem Memory.above_insert {m : List Host.Cell} {n a : Nat} {b : Byte} (h : Memory.above n m) (hn : n ≤ a)
    (hb : b ≠ Memory.unlisted) (hm : ∀ c ∈ m, c.1 ≠ a) : Memory.above n (Memory.insert m a b) := by
  induction m generalizing n with
  | nil => exact ⟨hn, hb, trivial⟩
  | cons c r ih =>
    obtain ⟨k, v⟩ := c
    have hk : k ≠ a := hm (k, v) (by simp)
    unfold Memory.insert
    split
    · next hlt => exact ⟨hn, hb, by omega, h.2.1, h.2.2⟩
    · exact ⟨h.1, h.2.1, ih h.2.2 (by omega) (fun c hc => hm c (by simp [hc]))⟩

/-- A write of one byte keeps the canonical form. -/
theorem Memory.wf_write {m : List Host.Cell} (a : Nat) (b : Byte) (h : Memory.wf m = true) :
    Memory.wf (Memory.write m a b) = true := by
  rw [Memory.wf_iff] at *
  unfold Memory.write
  split
  · exact Memory.above_filter _ h
  · next hb => exact Memory.above_insert (Memory.above_filter _ h) (Nat.zero_le _) hb (by simp)

/-- A write of bytes keeps the canonical form. -/
theorem Memory.wf_writeAll (bs : List Byte) {m : List Host.Cell} (a : Nat) (h : Memory.wf m = true) :
    Memory.wf (Memory.writeAll m a bs) = true := by
  induction bs generalizing m a with
  | nil => exact h
  | cons b bs ih => exact ih _ (Memory.wf_write a b h)

/-- Removing entries keeps the canonical form. -/
theorem Memory.wf_filter {m : List Host.Cell} (p : Host.Cell → Bool) (h : Memory.wf m = true) :
    Memory.wf (m.filter p) = true := by
  rw [Memory.wf_iff] at *
  exact Memory.above_filter p h

end Sys2Proof.Machine
end

