-- ==== Sys2Proof/Laws/State.lean ====
section
/-!
SUPPORT. What the updates of State leave as it was, one lemma per field per update, and what maps and slots hold after an
update.
-/

namespace Sys2Proof.Machine

/-! ## Maps -/

theorem mfind_mdel {κ α : Type} [DecidableEq κ] (m : Map κ α) (k x : κ) :
    mfind (mdel m k) x = if x = k then none else mfind m x := by
  induction m with
  | nil => simp [mdel, mfind]
  | cons e r ih =>
    obtain ⟨a, b⟩ := e
    unfold mdel at *
    by_cases h : a = k
    · subst h
      simp only [List.filter, ne_eq, not_true_eq_false, decide_false, mfind]
      rw [ih]
      split <;> simp_all [eq_comm]
    · simp only [List.filter, ne_eq, h, not_false_eq_true, decide_true, mfind]
      split <;> simp_all

@[simp] theorem mfind_mset {κ α : Type} [DecidableEq κ] (m : Map κ α) (k x : κ) (v : α) :
    mfind (mset m k v) x = if k = x then some v else mfind m x := by
  unfold mset
  simp only [mfind, mfind_mdel]
  split <;> simp_all [eq_comm]

@[simp] theorem mget_mset {κ α : Type} [DecidableEq κ] (m : Map κ α) (k x : κ) (v d : α) :
    mget (mset m k v) x d = if k = x then v else mget m x d := by
  unfold mget
  rw [mfind_mset]
  split <;> simp

theorem mset_mset {κ α : Type} [DecidableEq κ] (m : Map κ α) (k : κ) (v w : α) : mset (mset m k v) k w = mset m k w := by
  simp [mset, mdel]

theorem mget_mmod {κ α : Type} [DecidableEq κ] (m : Map κ α) (k x : κ) (f : α → α) (d : α) :
    mget (mmod m k d f) x d = if k = x then f (mget m k d) else mget m x d := by
  unfold mmod
  rw [mget_mset]

/-! ## Slots of a state -/

@[simp] theorem State.slot_setSlot (s : State) (a b : SlotId) (v : Slot) :
    (s.setSlot a v).slot b = if a = b then v else s.slot b := by
  simp [State.slot, State.setSlot]

@[simp] theorem State.slot_modSlot (s : State) (a b : SlotId) (f : Slot → Slot) :
    (s.modSlot a f).slot b = if a = b then f (s.slot a) else s.slot b := by
  simp [State.modSlot]

theorem State.modSlot_modSlot (s : State) (a : SlotId) (f g : Slot → Slot) :
    (s.modSlot a f).modSlot a g = s.modSlot a (fun v => g (f v)) := by
  simp only [State.modSlot, State.slot_setSlot, if_true]
  simp [State.setSlot, mset_mset]

@[simp] theorem State.slot_writeS (s : State) (a b : SlotId) (n : Nat) (x : Word) :
    (s.writeS a n x).slot b = if a = b then (s.slot a).writeS n x else s.slot b := by
  simp [State.writeS]

@[simp] theorem State.slot_modCsr (s : State) (a b : SlotId) (f : Csrs → Csrs) :
    (s.modCsr a f).slot b = if a = b then { s.slot a with csr := f (s.slot a).csr } else s.slot b := by
  simp [State.modCsr]

@[simp] theorem State.slot_modRegs (s : State) (a b : SlotId) (f : Regs → Regs) :
    (s.modRegs a f).slot b = if a = b then { s.slot a with regs := f (s.slot a).regs } else s.slot b := by
  simp [State.modRegs]

@[simp] theorem State.slot_modSeq (s : State) (a b : SlotId) (e : Engine) (f : Sequencer → Sequencer) :
    (s.modSeq a e f).slot b = if a = b then (s.slot a).modSeq e f else s.slot b := by
  simp [State.modSeq]

@[simp] theorem State.slot_setPc (s : State) (p : Word) (b : SlotId) :
    (s.setPc p).slot b = if s.cur.slot = b then { s.slot s.cur.slot with pc := p } else s.slot b := by
  simp [State.setPc]

/-! ## One lemma per field per update -/


@[simp] theorem State.mem_setSlot (s : State) (a : SlotId) (v : Slot) : (s.setSlot a v).mem = s.mem := rfl
@[simp] theorem State.tags_setSlot (s : State) (a : SlotId) (v : Slot) : (s.setSlot a v).tags = s.tags := rfl
@[simp] theorem State.poison_setSlot (s : State) (a : SlotId) (v : Slot) : (s.setSlot a v).poison = s.poison := rfl
@[simp] theorem State.flips_setSlot (s : State) (a : SlotId) (v : Slot) : (s.setSlot a v).flips = s.flips := rfl
@[simp] theorem State.hist_setSlot (s : State) (a : SlotId) (v : Slot) : (s.setSlot a v).hist = s.hist := rfl
@[simp] theorem State.vis_setSlot (s : State) (a : SlotId) (v : Slot) : (s.setSlot a v).vis = s.vis := rfl
@[simp] theorem State.pubs_setSlot (s : State) (a : SlotId) (v : Slot) : (s.setSlot a v).pubs = s.pubs := rfl
@[simp] theorem State.parts_setSlot (s : State) (a : SlotId) (v : Slot) : (s.setSlot a v).parts = s.parts := rfl
@[simp] theorem State.kernels_setSlot (s : State) (a : SlotId) (v : Slot) : (s.setSlot a v).kernels = s.kernels := rfl
@[simp] theorem State.nextKernel_setSlot (s : State) (a : SlotId) (v : Slot) : (s.setSlot a v).nextKernel = s.nextKernel := rfl
@[simp] theorem State.gangs_setSlot (s : State) (a : SlotId) (v : Slot) : (s.setSlot a v).gangs = s.gangs := rfl
@[simp] theorem State.nextGang_setSlot (s : State) (a : SlotId) (v : Slot) : (s.setSlot a v).nextGang = s.nextGang := rfl
@[simp] theorem State.cmds_setSlot (s : State) (a : SlotId) (v : Slot) : (s.setSlot a v).cmds = s.cmds := rfl
@[simp] theorem State.nextCmd_setSlot (s : State) (a : SlotId) (v : Slot) : (s.setSlot a v).nextCmd = s.nextCmd := rfl
@[simp] theorem State.fns_setSlot (s : State) (a : SlotId) (v : Slot) : (s.setSlot a v).fns = s.fns := rfl
@[simp] theorem State.currencies_setSlot (s : State) (a : SlotId) (v : Slot) : (s.setSlot a v).currencies = s.currencies := rfl
@[simp] theorem State.classes_setSlot (s : State) (a : SlotId) (v : Slot) : (s.setSlot a v).classes = s.classes := rfl
@[simp] theorem State.classLocks_setSlot (s : State) (a : SlotId) (v : Slot) : (s.setSlot a v).classLocks = s.classLocks := rfl
@[simp] theorem State.frames_setSlot (s : State) (a : SlotId) (v : Slot) : (s.setSlot a v).frames = s.frames := rfl
@[simp] theorem State.ports_setSlot (s : State) (a : SlotId) (v : Slot) : (s.setSlot a v).ports = s.ports := rfl
@[simp] theorem State.devNumber_setSlot (s : State) (a : SlotId) (v : Slot) : (s.setSlot a v).devNumber = s.devNumber := rfl
@[simp] theorem State.routes_setSlot (s : State) (a : SlotId) (v : Slot) : (s.setSlot a v).routes = s.routes := rfl
@[simp] theorem State.mp_setSlot (s : State) (a : SlotId) (v : Slot) : (s.setSlot a v).mp = s.mp := rfl
@[simp] theorem State.power_setSlot (s : State) (a : SlotId) (v : Slot) : (s.setSlot a v).power = s.power := rfl
@[simp] theorem State.regs_setSlot (s : State) (a : SlotId) (v : Slot) : (s.setSlot a v).regs = s.regs := rfl
@[simp] theorem State.variant_setSlot (s : State) (a : SlotId) (v : Slot) : (s.setSlot a v).variant = s.variant := rfl
@[simp] theorem State.fatal_setSlot (s : State) (a : SlotId) (v : Slot) : (s.setSlot a v).fatal = s.fatal := rfl
@[simp] theorem State.dump_setSlot (s : State) (a : SlotId) (v : Slot) : (s.setSlot a v).dump = s.dump := rfl
@[simp] theorem State.devErrSeq_setSlot (s : State) (a : SlotId) (v : Slot) : (s.setSlot a v).devErrSeq = s.devErrSeq := rfl
@[simp] theorem State.devRecords_setSlot (s : State) (a : SlotId) (v : Slot) : (s.setSlot a v).devRecords = s.devRecords := rfl
@[simp] theorem State.out_setSlot (s : State) (a : SlotId) (v : Slot) : (s.setSlot a v).out = s.out := rfl
@[simp] theorem State.now_setSlot (s : State) (a : SlotId) (v : Slot) : (s.setSlot a v).now = s.now := rfl
@[simp] theorem State.turn_setSlot (s : State) (a : SlotId) (v : Slot) : (s.setSlot a v).turn = s.turn := rfl
@[simp] theorem State.stepNo_setSlot (s : State) (a : SlotId) (v : Slot) : (s.setSlot a v).stepNo = s.stepNo := rfl
@[simp] theorem State.fresh_setSlot (s : State) (a : SlotId) (v : Slot) : (s.setSlot a v).fresh = s.fresh := rfl
@[simp] theorem State.seqT_setSlot (s : State) (a : SlotId) (v : Slot) : (s.setSlot a v).seqT = s.seqT := rfl
@[simp] theorem State.cur_setSlot (s : State) (a : SlotId) (v : Slot) : (s.setSlot a v).cur = s.cur := rfl
@[simp] theorem State.found_setSlot (s : State) (a : SlotId) (v : Slot) : (s.setSlot a v).found = s.found := rfl
@[simp] theorem State.dieErrors_setSlot (s : State) (a : SlotId) (v : Slot) : (s.setSlot a v).dieErrors = s.dieErrors := rfl
@[simp] theorem State.channelsOut_setSlot (s : State) (a : SlotId) (v : Slot) : (s.setSlot a v).channelsOut = s.channelsOut := rfl

@[simp] theorem State.mem_modSlot (s : State) (a : SlotId) (f : Slot → Slot) : (s.modSlot a f).mem = s.mem := rfl
@[simp] theorem State.tags_modSlot (s : State) (a : SlotId) (f : Slot → Slot) : (s.modSlot a f).tags = s.tags := rfl
@[simp] theorem State.poison_modSlot (s : State) (a : SlotId) (f : Slot → Slot) : (s.modSlot a f).poison = s.poison := rfl
@[simp] theorem State.flips_modSlot (s : State) (a : SlotId) (f : Slot → Slot) : (s.modSlot a f).flips = s.flips := rfl
@[simp] theorem State.hist_modSlot (s : State) (a : SlotId) (f : Slot → Slot) : (s.modSlot a f).hist = s.hist := rfl
@[simp] theorem State.vis_modSlot (s : State) (a : SlotId) (f : Slot → Slot) : (s.modSlot a f).vis = s.vis := rfl
@[simp] theorem State.pubs_modSlot (s : State) (a : SlotId) (f : Slot → Slot) : (s.modSlot a f).pubs = s.pubs := rfl
@[simp] theorem State.parts_modSlot (s : State) (a : SlotId) (f : Slot → Slot) : (s.modSlot a f).parts = s.parts := rfl
@[simp] theorem State.kernels_modSlot (s : State) (a : SlotId) (f : Slot → Slot) : (s.modSlot a f).kernels = s.kernels := rfl
@[simp] theorem State.nextKernel_modSlot (s : State) (a : SlotId) (f : Slot → Slot) : (s.modSlot a f).nextKernel = s.nextKernel := rfl
@[simp] theorem State.gangs_modSlot (s : State) (a : SlotId) (f : Slot → Slot) : (s.modSlot a f).gangs = s.gangs := rfl
@[simp] theorem State.nextGang_modSlot (s : State) (a : SlotId) (f : Slot → Slot) : (s.modSlot a f).nextGang = s.nextGang := rfl
@[simp] theorem State.cmds_modSlot (s : State) (a : SlotId) (f : Slot → Slot) : (s.modSlot a f).cmds = s.cmds := rfl
@[simp] theorem State.nextCmd_modSlot (s : State) (a : SlotId) (f : Slot → Slot) : (s.modSlot a f).nextCmd = s.nextCmd := rfl
@[simp] theorem State.fns_modSlot (s : State) (a : SlotId) (f : Slot → Slot) : (s.modSlot a f).fns = s.fns := rfl
@[simp] theorem State.currencies_modSlot (s : State) (a : SlotId) (f : Slot → Slot) : (s.modSlot a f).currencies = s.currencies := rfl
@[simp] theorem State.classes_modSlot (s : State) (a : SlotId) (f : Slot → Slot) : (s.modSlot a f).classes = s.classes := rfl
@[simp] theorem State.classLocks_modSlot (s : State) (a : SlotId) (f : Slot → Slot) : (s.modSlot a f).classLocks = s.classLocks := rfl
@[simp] theorem State.frames_modSlot (s : State) (a : SlotId) (f : Slot → Slot) : (s.modSlot a f).frames = s.frames := rfl
@[simp] theorem State.ports_modSlot (s : State) (a : SlotId) (f : Slot → Slot) : (s.modSlot a f).ports = s.ports := rfl
@[simp] theorem State.devNumber_modSlot (s : State) (a : SlotId) (f : Slot → Slot) : (s.modSlot a f).devNumber = s.devNumber := rfl
@[simp] theorem State.routes_modSlot (s : State) (a : SlotId) (f : Slot → Slot) : (s.modSlot a f).routes = s.routes := rfl
@[simp] theorem State.mp_modSlot (s : State) (a : SlotId) (f : Slot → Slot) : (s.modSlot a f).mp = s.mp := rfl
@[simp] theorem State.power_modSlot (s : State) (a : SlotId) (f : Slot → Slot) : (s.modSlot a f).power = s.power := rfl
@[simp] theorem State.regs_modSlot (s : State) (a : SlotId) (f : Slot → Slot) : (s.modSlot a f).regs = s.regs := rfl
@[simp] theorem State.variant_modSlot (s : State) (a : SlotId) (f : Slot → Slot) : (s.modSlot a f).variant = s.variant := rfl
@[simp] theorem State.fatal_modSlot (s : State) (a : SlotId) (f : Slot → Slot) : (s.modSlot a f).fatal = s.fatal := rfl
@[simp] theorem State.dump_modSlot (s : State) (a : SlotId) (f : Slot → Slot) : (s.modSlot a f).dump = s.dump := rfl
@[simp] theorem State.devErrSeq_modSlot (s : State) (a : SlotId) (f : Slot → Slot) : (s.modSlot a f).devErrSeq = s.devErrSeq := rfl
@[simp] theorem State.devRecords_modSlot (s : State) (a : SlotId) (f : Slot → Slot) : (s.modSlot a f).devRecords = s.devRecords := rfl
@[simp] theorem State.out_modSlot (s : State) (a : SlotId) (f : Slot → Slot) : (s.modSlot a f).out = s.out := rfl
@[simp] theorem State.now_modSlot (s : State) (a : SlotId) (f : Slot → Slot) : (s.modSlot a f).now = s.now := rfl
@[simp] theorem State.turn_modSlot (s : State) (a : SlotId) (f : Slot → Slot) : (s.modSlot a f).turn = s.turn := rfl
@[simp] theorem State.stepNo_modSlot (s : State) (a : SlotId) (f : Slot → Slot) : (s.modSlot a f).stepNo = s.stepNo := rfl
@[simp] theorem State.fresh_modSlot (s : State) (a : SlotId) (f : Slot → Slot) : (s.modSlot a f).fresh = s.fresh := rfl
@[simp] theorem State.seqT_modSlot (s : State) (a : SlotId) (f : Slot → Slot) : (s.modSlot a f).seqT = s.seqT := rfl
@[simp] theorem State.cur_modSlot (s : State) (a : SlotId) (f : Slot → Slot) : (s.modSlot a f).cur = s.cur := rfl
@[simp] theorem State.found_modSlot (s : State) (a : SlotId) (f : Slot → Slot) : (s.modSlot a f).found = s.found := rfl
@[simp] theorem State.dieErrors_modSlot (s : State) (a : SlotId) (f : Slot → Slot) : (s.modSlot a f).dieErrors = s.dieErrors := rfl
@[simp] theorem State.channelsOut_modSlot (s : State) (a : SlotId) (f : Slot → Slot) : (s.modSlot a f).channelsOut = s.channelsOut := rfl

@[simp] theorem State.mem_writeS (s : State) (a : SlotId) (n : Nat) (x : Word) : (s.writeS a n x).mem = s.mem := rfl
@[simp] theorem State.tags_writeS (s : State) (a : SlotId) (n : Nat) (x : Word) : (s.writeS a n x).tags = s.tags := rfl
@[simp] theorem State.poison_writeS (s : State) (a : SlotId) (n : Nat) (x : Word) : (s.writeS a n x).poison = s.poison := rfl
@[simp] theorem State.flips_writeS (s : State) (a : SlotId) (n : Nat) (x : Word) : (s.writeS a n x).flips = s.flips := rfl
@[simp] theorem State.hist_writeS (s : State) (a : SlotId) (n : Nat) (x : Word) : (s.writeS a n x).hist = s.hist := rfl
@[simp] theorem State.vis_writeS (s : State) (a : SlotId) (n : Nat) (x : Word) : (s.writeS a n x).vis = s.vis := rfl
@[simp] theorem State.pubs_writeS (s : State) (a : SlotId) (n : Nat) (x : Word) : (s.writeS a n x).pubs = s.pubs := rfl
@[simp] theorem State.parts_writeS (s : State) (a : SlotId) (n : Nat) (x : Word) : (s.writeS a n x).parts = s.parts := rfl
@[simp] theorem State.kernels_writeS (s : State) (a : SlotId) (n : Nat) (x : Word) : (s.writeS a n x).kernels = s.kernels := rfl
@[simp] theorem State.nextKernel_writeS (s : State) (a : SlotId) (n : Nat) (x : Word) : (s.writeS a n x).nextKernel = s.nextKernel := rfl
@[simp] theorem State.gangs_writeS (s : State) (a : SlotId) (n : Nat) (x : Word) : (s.writeS a n x).gangs = s.gangs := rfl
@[simp] theorem State.nextGang_writeS (s : State) (a : SlotId) (n : Nat) (x : Word) : (s.writeS a n x).nextGang = s.nextGang := rfl
@[simp] theorem State.cmds_writeS (s : State) (a : SlotId) (n : Nat) (x : Word) : (s.writeS a n x).cmds = s.cmds := rfl
@[simp] theorem State.nextCmd_writeS (s : State) (a : SlotId) (n : Nat) (x : Word) : (s.writeS a n x).nextCmd = s.nextCmd := rfl
@[simp] theorem State.fns_writeS (s : State) (a : SlotId) (n : Nat) (x : Word) : (s.writeS a n x).fns = s.fns := rfl
@[simp] theorem State.currencies_writeS (s : State) (a : SlotId) (n : Nat) (x : Word) : (s.writeS a n x).currencies = s.currencies := rfl
@[simp] theorem State.classes_writeS (s : State) (a : SlotId) (n : Nat) (x : Word) : (s.writeS a n x).classes = s.classes := rfl
@[simp] theorem State.classLocks_writeS (s : State) (a : SlotId) (n : Nat) (x : Word) : (s.writeS a n x).classLocks = s.classLocks := rfl
@[simp] theorem State.frames_writeS (s : State) (a : SlotId) (n : Nat) (x : Word) : (s.writeS a n x).frames = s.frames := rfl
@[simp] theorem State.ports_writeS (s : State) (a : SlotId) (n : Nat) (x : Word) : (s.writeS a n x).ports = s.ports := rfl
@[simp] theorem State.devNumber_writeS (s : State) (a : SlotId) (n : Nat) (x : Word) : (s.writeS a n x).devNumber = s.devNumber := rfl
@[simp] theorem State.routes_writeS (s : State) (a : SlotId) (n : Nat) (x : Word) : (s.writeS a n x).routes = s.routes := rfl
@[simp] theorem State.mp_writeS (s : State) (a : SlotId) (n : Nat) (x : Word) : (s.writeS a n x).mp = s.mp := rfl
@[simp] theorem State.power_writeS (s : State) (a : SlotId) (n : Nat) (x : Word) : (s.writeS a n x).power = s.power := rfl
@[simp] theorem State.regs_writeS (s : State) (a : SlotId) (n : Nat) (x : Word) : (s.writeS a n x).regs = s.regs := rfl
@[simp] theorem State.variant_writeS (s : State) (a : SlotId) (n : Nat) (x : Word) : (s.writeS a n x).variant = s.variant := rfl
@[simp] theorem State.fatal_writeS (s : State) (a : SlotId) (n : Nat) (x : Word) : (s.writeS a n x).fatal = s.fatal := rfl
@[simp] theorem State.dump_writeS (s : State) (a : SlotId) (n : Nat) (x : Word) : (s.writeS a n x).dump = s.dump := rfl
@[simp] theorem State.devErrSeq_writeS (s : State) (a : SlotId) (n : Nat) (x : Word) : (s.writeS a n x).devErrSeq = s.devErrSeq := rfl
@[simp] theorem State.devRecords_writeS (s : State) (a : SlotId) (n : Nat) (x : Word) : (s.writeS a n x).devRecords = s.devRecords := rfl
@[simp] theorem State.out_writeS (s : State) (a : SlotId) (n : Nat) (x : Word) : (s.writeS a n x).out = s.out := rfl
@[simp] theorem State.now_writeS (s : State) (a : SlotId) (n : Nat) (x : Word) : (s.writeS a n x).now = s.now := rfl
@[simp] theorem State.turn_writeS (s : State) (a : SlotId) (n : Nat) (x : Word) : (s.writeS a n x).turn = s.turn := rfl
@[simp] theorem State.stepNo_writeS (s : State) (a : SlotId) (n : Nat) (x : Word) : (s.writeS a n x).stepNo = s.stepNo := rfl
@[simp] theorem State.fresh_writeS (s : State) (a : SlotId) (n : Nat) (x : Word) : (s.writeS a n x).fresh = s.fresh := rfl
@[simp] theorem State.seqT_writeS (s : State) (a : SlotId) (n : Nat) (x : Word) : (s.writeS a n x).seqT = s.seqT := rfl
@[simp] theorem State.cur_writeS (s : State) (a : SlotId) (n : Nat) (x : Word) : (s.writeS a n x).cur = s.cur := rfl
@[simp] theorem State.found_writeS (s : State) (a : SlotId) (n : Nat) (x : Word) : (s.writeS a n x).found = s.found := rfl
@[simp] theorem State.dieErrors_writeS (s : State) (a : SlotId) (n : Nat) (x : Word) : (s.writeS a n x).dieErrors = s.dieErrors := rfl
@[simp] theorem State.channelsOut_writeS (s : State) (a : SlotId) (n : Nat) (x : Word) : (s.writeS a n x).channelsOut = s.channelsOut := rfl

@[simp] theorem State.mem_modCsr (s : State) (a : SlotId) (f : Csrs → Csrs) : (s.modCsr a f).mem = s.mem := rfl
@[simp] theorem State.tags_modCsr (s : State) (a : SlotId) (f : Csrs → Csrs) : (s.modCsr a f).tags = s.tags := rfl
@[simp] theorem State.poison_modCsr (s : State) (a : SlotId) (f : Csrs → Csrs) : (s.modCsr a f).poison = s.poison := rfl
@[simp] theorem State.flips_modCsr (s : State) (a : SlotId) (f : Csrs → Csrs) : (s.modCsr a f).flips = s.flips := rfl
@[simp] theorem State.hist_modCsr (s : State) (a : SlotId) (f : Csrs → Csrs) : (s.modCsr a f).hist = s.hist := rfl
@[simp] theorem State.vis_modCsr (s : State) (a : SlotId) (f : Csrs → Csrs) : (s.modCsr a f).vis = s.vis := rfl
@[simp] theorem State.pubs_modCsr (s : State) (a : SlotId) (f : Csrs → Csrs) : (s.modCsr a f).pubs = s.pubs := rfl
@[simp] theorem State.parts_modCsr (s : State) (a : SlotId) (f : Csrs → Csrs) : (s.modCsr a f).parts = s.parts := rfl
@[simp] theorem State.kernels_modCsr (s : State) (a : SlotId) (f : Csrs → Csrs) : (s.modCsr a f).kernels = s.kernels := rfl
@[simp] theorem State.nextKernel_modCsr (s : State) (a : SlotId) (f : Csrs → Csrs) : (s.modCsr a f).nextKernel = s.nextKernel := rfl
@[simp] theorem State.gangs_modCsr (s : State) (a : SlotId) (f : Csrs → Csrs) : (s.modCsr a f).gangs = s.gangs := rfl
@[simp] theorem State.nextGang_modCsr (s : State) (a : SlotId) (f : Csrs → Csrs) : (s.modCsr a f).nextGang = s.nextGang := rfl
@[simp] theorem State.cmds_modCsr (s : State) (a : SlotId) (f : Csrs → Csrs) : (s.modCsr a f).cmds = s.cmds := rfl
@[simp] theorem State.nextCmd_modCsr (s : State) (a : SlotId) (f : Csrs → Csrs) : (s.modCsr a f).nextCmd = s.nextCmd := rfl
@[simp] theorem State.fns_modCsr (s : State) (a : SlotId) (f : Csrs → Csrs) : (s.modCsr a f).fns = s.fns := rfl
@[simp] theorem State.currencies_modCsr (s : State) (a : SlotId) (f : Csrs → Csrs) : (s.modCsr a f).currencies = s.currencies := rfl
@[simp] theorem State.classes_modCsr (s : State) (a : SlotId) (f : Csrs → Csrs) : (s.modCsr a f).classes = s.classes := rfl
@[simp] theorem State.classLocks_modCsr (s : State) (a : SlotId) (f : Csrs → Csrs) : (s.modCsr a f).classLocks = s.classLocks := rfl
@[simp] theorem State.frames_modCsr (s : State) (a : SlotId) (f : Csrs → Csrs) : (s.modCsr a f).frames = s.frames := rfl
@[simp] theorem State.ports_modCsr (s : State) (a : SlotId) (f : Csrs → Csrs) : (s.modCsr a f).ports = s.ports := rfl
@[simp] theorem State.devNumber_modCsr (s : State) (a : SlotId) (f : Csrs → Csrs) : (s.modCsr a f).devNumber = s.devNumber := rfl
@[simp] theorem State.routes_modCsr (s : State) (a : SlotId) (f : Csrs → Csrs) : (s.modCsr a f).routes = s.routes := rfl
@[simp] theorem State.mp_modCsr (s : State) (a : SlotId) (f : Csrs → Csrs) : (s.modCsr a f).mp = s.mp := rfl
@[simp] theorem State.power_modCsr (s : State) (a : SlotId) (f : Csrs → Csrs) : (s.modCsr a f).power = s.power := rfl
@[simp] theorem State.regs_modCsr (s : State) (a : SlotId) (f : Csrs → Csrs) : (s.modCsr a f).regs = s.regs := rfl
@[simp] theorem State.variant_modCsr (s : State) (a : SlotId) (f : Csrs → Csrs) : (s.modCsr a f).variant = s.variant := rfl
@[simp] theorem State.fatal_modCsr (s : State) (a : SlotId) (f : Csrs → Csrs) : (s.modCsr a f).fatal = s.fatal := rfl
@[simp] theorem State.dump_modCsr (s : State) (a : SlotId) (f : Csrs → Csrs) : (s.modCsr a f).dump = s.dump := rfl
@[simp] theorem State.devErrSeq_modCsr (s : State) (a : SlotId) (f : Csrs → Csrs) : (s.modCsr a f).devErrSeq = s.devErrSeq := rfl
@[simp] theorem State.devRecords_modCsr (s : State) (a : SlotId) (f : Csrs → Csrs) : (s.modCsr a f).devRecords = s.devRecords := rfl
@[simp] theorem State.out_modCsr (s : State) (a : SlotId) (f : Csrs → Csrs) : (s.modCsr a f).out = s.out := rfl
@[simp] theorem State.now_modCsr (s : State) (a : SlotId) (f : Csrs → Csrs) : (s.modCsr a f).now = s.now := rfl
@[simp] theorem State.turn_modCsr (s : State) (a : SlotId) (f : Csrs → Csrs) : (s.modCsr a f).turn = s.turn := rfl
@[simp] theorem State.stepNo_modCsr (s : State) (a : SlotId) (f : Csrs → Csrs) : (s.modCsr a f).stepNo = s.stepNo := rfl
@[simp] theorem State.fresh_modCsr (s : State) (a : SlotId) (f : Csrs → Csrs) : (s.modCsr a f).fresh = s.fresh := rfl
@[simp] theorem State.seqT_modCsr (s : State) (a : SlotId) (f : Csrs → Csrs) : (s.modCsr a f).seqT = s.seqT := rfl
@[simp] theorem State.cur_modCsr (s : State) (a : SlotId) (f : Csrs → Csrs) : (s.modCsr a f).cur = s.cur := rfl
@[simp] theorem State.found_modCsr (s : State) (a : SlotId) (f : Csrs → Csrs) : (s.modCsr a f).found = s.found := rfl
@[simp] theorem State.dieErrors_modCsr (s : State) (a : SlotId) (f : Csrs → Csrs) : (s.modCsr a f).dieErrors = s.dieErrors := rfl
@[simp] theorem State.channelsOut_modCsr (s : State) (a : SlotId) (f : Csrs → Csrs) : (s.modCsr a f).channelsOut = s.channelsOut := rfl

@[simp] theorem State.mem_modRegs (s : State) (a : SlotId) (f : Regs → Regs) : (s.modRegs a f).mem = s.mem := rfl
@[simp] theorem State.tags_modRegs (s : State) (a : SlotId) (f : Regs → Regs) : (s.modRegs a f).tags = s.tags := rfl
@[simp] theorem State.poison_modRegs (s : State) (a : SlotId) (f : Regs → Regs) : (s.modRegs a f).poison = s.poison := rfl
@[simp] theorem State.flips_modRegs (s : State) (a : SlotId) (f : Regs → Regs) : (s.modRegs a f).flips = s.flips := rfl
@[simp] theorem State.hist_modRegs (s : State) (a : SlotId) (f : Regs → Regs) : (s.modRegs a f).hist = s.hist := rfl
@[simp] theorem State.vis_modRegs (s : State) (a : SlotId) (f : Regs → Regs) : (s.modRegs a f).vis = s.vis := rfl
@[simp] theorem State.pubs_modRegs (s : State) (a : SlotId) (f : Regs → Regs) : (s.modRegs a f).pubs = s.pubs := rfl
@[simp] theorem State.parts_modRegs (s : State) (a : SlotId) (f : Regs → Regs) : (s.modRegs a f).parts = s.parts := rfl
@[simp] theorem State.kernels_modRegs (s : State) (a : SlotId) (f : Regs → Regs) : (s.modRegs a f).kernels = s.kernels := rfl
@[simp] theorem State.nextKernel_modRegs (s : State) (a : SlotId) (f : Regs → Regs) : (s.modRegs a f).nextKernel = s.nextKernel := rfl
@[simp] theorem State.gangs_modRegs (s : State) (a : SlotId) (f : Regs → Regs) : (s.modRegs a f).gangs = s.gangs := rfl
@[simp] theorem State.nextGang_modRegs (s : State) (a : SlotId) (f : Regs → Regs) : (s.modRegs a f).nextGang = s.nextGang := rfl
@[simp] theorem State.cmds_modRegs (s : State) (a : SlotId) (f : Regs → Regs) : (s.modRegs a f).cmds = s.cmds := rfl
@[simp] theorem State.nextCmd_modRegs (s : State) (a : SlotId) (f : Regs → Regs) : (s.modRegs a f).nextCmd = s.nextCmd := rfl
@[simp] theorem State.fns_modRegs (s : State) (a : SlotId) (f : Regs → Regs) : (s.modRegs a f).fns = s.fns := rfl
@[simp] theorem State.currencies_modRegs (s : State) (a : SlotId) (f : Regs → Regs) : (s.modRegs a f).currencies = s.currencies := rfl
@[simp] theorem State.classes_modRegs (s : State) (a : SlotId) (f : Regs → Regs) : (s.modRegs a f).classes = s.classes := rfl
@[simp] theorem State.classLocks_modRegs (s : State) (a : SlotId) (f : Regs → Regs) : (s.modRegs a f).classLocks = s.classLocks := rfl
@[simp] theorem State.frames_modRegs (s : State) (a : SlotId) (f : Regs → Regs) : (s.modRegs a f).frames = s.frames := rfl
@[simp] theorem State.ports_modRegs (s : State) (a : SlotId) (f : Regs → Regs) : (s.modRegs a f).ports = s.ports := rfl
@[simp] theorem State.devNumber_modRegs (s : State) (a : SlotId) (f : Regs → Regs) : (s.modRegs a f).devNumber = s.devNumber := rfl
@[simp] theorem State.routes_modRegs (s : State) (a : SlotId) (f : Regs → Regs) : (s.modRegs a f).routes = s.routes := rfl
@[simp] theorem State.mp_modRegs (s : State) (a : SlotId) (f : Regs → Regs) : (s.modRegs a f).mp = s.mp := rfl
@[simp] theorem State.power_modRegs (s : State) (a : SlotId) (f : Regs → Regs) : (s.modRegs a f).power = s.power := rfl
@[simp] theorem State.regs_modRegs (s : State) (a : SlotId) (f : Regs → Regs) : (s.modRegs a f).regs = s.regs := rfl
@[simp] theorem State.variant_modRegs (s : State) (a : SlotId) (f : Regs → Regs) : (s.modRegs a f).variant = s.variant := rfl
@[simp] theorem State.fatal_modRegs (s : State) (a : SlotId) (f : Regs → Regs) : (s.modRegs a f).fatal = s.fatal := rfl
@[simp] theorem State.dump_modRegs (s : State) (a : SlotId) (f : Regs → Regs) : (s.modRegs a f).dump = s.dump := rfl
@[simp] theorem State.devErrSeq_modRegs (s : State) (a : SlotId) (f : Regs → Regs) : (s.modRegs a f).devErrSeq = s.devErrSeq := rfl
@[simp] theorem State.devRecords_modRegs (s : State) (a : SlotId) (f : Regs → Regs) : (s.modRegs a f).devRecords = s.devRecords := rfl
@[simp] theorem State.out_modRegs (s : State) (a : SlotId) (f : Regs → Regs) : (s.modRegs a f).out = s.out := rfl
@[simp] theorem State.now_modRegs (s : State) (a : SlotId) (f : Regs → Regs) : (s.modRegs a f).now = s.now := rfl
@[simp] theorem State.turn_modRegs (s : State) (a : SlotId) (f : Regs → Regs) : (s.modRegs a f).turn = s.turn := rfl
@[simp] theorem State.stepNo_modRegs (s : State) (a : SlotId) (f : Regs → Regs) : (s.modRegs a f).stepNo = s.stepNo := rfl
@[simp] theorem State.fresh_modRegs (s : State) (a : SlotId) (f : Regs → Regs) : (s.modRegs a f).fresh = s.fresh := rfl
@[simp] theorem State.seqT_modRegs (s : State) (a : SlotId) (f : Regs → Regs) : (s.modRegs a f).seqT = s.seqT := rfl
@[simp] theorem State.cur_modRegs (s : State) (a : SlotId) (f : Regs → Regs) : (s.modRegs a f).cur = s.cur := rfl
@[simp] theorem State.found_modRegs (s : State) (a : SlotId) (f : Regs → Regs) : (s.modRegs a f).found = s.found := rfl
@[simp] theorem State.dieErrors_modRegs (s : State) (a : SlotId) (f : Regs → Regs) : (s.modRegs a f).dieErrors = s.dieErrors := rfl
@[simp] theorem State.channelsOut_modRegs (s : State) (a : SlotId) (f : Regs → Regs) : (s.modRegs a f).channelsOut = s.channelsOut := rfl

@[simp] theorem State.mem_modSeq (s : State) (a : SlotId) (e : Engine) (f : Sequencer → Sequencer) : (s.modSeq a e f).mem = s.mem := rfl
@[simp] theorem State.tags_modSeq (s : State) (a : SlotId) (e : Engine) (f : Sequencer → Sequencer) : (s.modSeq a e f).tags = s.tags := rfl
@[simp] theorem State.poison_modSeq (s : State) (a : SlotId) (e : Engine) (f : Sequencer → Sequencer) : (s.modSeq a e f).poison = s.poison := rfl
@[simp] theorem State.flips_modSeq (s : State) (a : SlotId) (e : Engine) (f : Sequencer → Sequencer) : (s.modSeq a e f).flips = s.flips := rfl
@[simp] theorem State.hist_modSeq (s : State) (a : SlotId) (e : Engine) (f : Sequencer → Sequencer) : (s.modSeq a e f).hist = s.hist := rfl
@[simp] theorem State.vis_modSeq (s : State) (a : SlotId) (e : Engine) (f : Sequencer → Sequencer) : (s.modSeq a e f).vis = s.vis := rfl
@[simp] theorem State.pubs_modSeq (s : State) (a : SlotId) (e : Engine) (f : Sequencer → Sequencer) : (s.modSeq a e f).pubs = s.pubs := rfl
@[simp] theorem State.parts_modSeq (s : State) (a : SlotId) (e : Engine) (f : Sequencer → Sequencer) : (s.modSeq a e f).parts = s.parts := rfl
@[simp] theorem State.kernels_modSeq (s : State) (a : SlotId) (e : Engine) (f : Sequencer → Sequencer) : (s.modSeq a e f).kernels = s.kernels := rfl
@[simp] theorem State.nextKernel_modSeq (s : State) (a : SlotId) (e : Engine) (f : Sequencer → Sequencer) : (s.modSeq a e f).nextKernel = s.nextKernel := rfl
@[simp] theorem State.gangs_modSeq (s : State) (a : SlotId) (e : Engine) (f : Sequencer → Sequencer) : (s.modSeq a e f).gangs = s.gangs := rfl
@[simp] theorem State.nextGang_modSeq (s : State) (a : SlotId) (e : Engine) (f : Sequencer → Sequencer) : (s.modSeq a e f).nextGang = s.nextGang := rfl
@[simp] theorem State.cmds_modSeq (s : State) (a : SlotId) (e : Engine) (f : Sequencer → Sequencer) : (s.modSeq a e f).cmds = s.cmds := rfl
@[simp] theorem State.nextCmd_modSeq (s : State) (a : SlotId) (e : Engine) (f : Sequencer → Sequencer) : (s.modSeq a e f).nextCmd = s.nextCmd := rfl
@[simp] theorem State.fns_modSeq (s : State) (a : SlotId) (e : Engine) (f : Sequencer → Sequencer) : (s.modSeq a e f).fns = s.fns := rfl
@[simp] theorem State.currencies_modSeq (s : State) (a : SlotId) (e : Engine) (f : Sequencer → Sequencer) : (s.modSeq a e f).currencies = s.currencies := rfl
@[simp] theorem State.classes_modSeq (s : State) (a : SlotId) (e : Engine) (f : Sequencer → Sequencer) : (s.modSeq a e f).classes = s.classes := rfl
@[simp] theorem State.classLocks_modSeq (s : State) (a : SlotId) (e : Engine) (f : Sequencer → Sequencer) : (s.modSeq a e f).classLocks = s.classLocks := rfl
@[simp] theorem State.frames_modSeq (s : State) (a : SlotId) (e : Engine) (f : Sequencer → Sequencer) : (s.modSeq a e f).frames = s.frames := rfl
@[simp] theorem State.ports_modSeq (s : State) (a : SlotId) (e : Engine) (f : Sequencer → Sequencer) : (s.modSeq a e f).ports = s.ports := rfl
@[simp] theorem State.devNumber_modSeq (s : State) (a : SlotId) (e : Engine) (f : Sequencer → Sequencer) : (s.modSeq a e f).devNumber = s.devNumber := rfl
@[simp] theorem State.routes_modSeq (s : State) (a : SlotId) (e : Engine) (f : Sequencer → Sequencer) : (s.modSeq a e f).routes = s.routes := rfl
@[simp] theorem State.mp_modSeq (s : State) (a : SlotId) (e : Engine) (f : Sequencer → Sequencer) : (s.modSeq a e f).mp = s.mp := rfl
@[simp] theorem State.power_modSeq (s : State) (a : SlotId) (e : Engine) (f : Sequencer → Sequencer) : (s.modSeq a e f).power = s.power := rfl
@[simp] theorem State.regs_modSeq (s : State) (a : SlotId) (e : Engine) (f : Sequencer → Sequencer) : (s.modSeq a e f).regs = s.regs := rfl
@[simp] theorem State.variant_modSeq (s : State) (a : SlotId) (e : Engine) (f : Sequencer → Sequencer) : (s.modSeq a e f).variant = s.variant := rfl
@[simp] theorem State.fatal_modSeq (s : State) (a : SlotId) (e : Engine) (f : Sequencer → Sequencer) : (s.modSeq a e f).fatal = s.fatal := rfl
@[simp] theorem State.dump_modSeq (s : State) (a : SlotId) (e : Engine) (f : Sequencer → Sequencer) : (s.modSeq a e f).dump = s.dump := rfl
@[simp] theorem State.devErrSeq_modSeq (s : State) (a : SlotId) (e : Engine) (f : Sequencer → Sequencer) : (s.modSeq a e f).devErrSeq = s.devErrSeq := rfl
@[simp] theorem State.devRecords_modSeq (s : State) (a : SlotId) (e : Engine) (f : Sequencer → Sequencer) : (s.modSeq a e f).devRecords = s.devRecords := rfl
@[simp] theorem State.out_modSeq (s : State) (a : SlotId) (e : Engine) (f : Sequencer → Sequencer) : (s.modSeq a e f).out = s.out := rfl
@[simp] theorem State.now_modSeq (s : State) (a : SlotId) (e : Engine) (f : Sequencer → Sequencer) : (s.modSeq a e f).now = s.now := rfl
@[simp] theorem State.turn_modSeq (s : State) (a : SlotId) (e : Engine) (f : Sequencer → Sequencer) : (s.modSeq a e f).turn = s.turn := rfl
@[simp] theorem State.stepNo_modSeq (s : State) (a : SlotId) (e : Engine) (f : Sequencer → Sequencer) : (s.modSeq a e f).stepNo = s.stepNo := rfl
@[simp] theorem State.fresh_modSeq (s : State) (a : SlotId) (e : Engine) (f : Sequencer → Sequencer) : (s.modSeq a e f).fresh = s.fresh := rfl
@[simp] theorem State.seqT_modSeq (s : State) (a : SlotId) (e : Engine) (f : Sequencer → Sequencer) : (s.modSeq a e f).seqT = s.seqT := rfl
@[simp] theorem State.cur_modSeq (s : State) (a : SlotId) (e : Engine) (f : Sequencer → Sequencer) : (s.modSeq a e f).cur = s.cur := rfl
@[simp] theorem State.found_modSeq (s : State) (a : SlotId) (e : Engine) (f : Sequencer → Sequencer) : (s.modSeq a e f).found = s.found := rfl
@[simp] theorem State.dieErrors_modSeq (s : State) (a : SlotId) (e : Engine) (f : Sequencer → Sequencer) : (s.modSeq a e f).dieErrors = s.dieErrors := rfl
@[simp] theorem State.channelsOut_modSeq (s : State) (a : SlotId) (e : Engine) (f : Sequencer → Sequencer) : (s.modSeq a e f).channelsOut = s.channelsOut := rfl

@[simp] theorem State.mem_setPc (s : State) (p : Word) : (s.setPc p).mem = s.mem := rfl
@[simp] theorem State.tags_setPc (s : State) (p : Word) : (s.setPc p).tags = s.tags := rfl
@[simp] theorem State.poison_setPc (s : State) (p : Word) : (s.setPc p).poison = s.poison := rfl
@[simp] theorem State.flips_setPc (s : State) (p : Word) : (s.setPc p).flips = s.flips := rfl
@[simp] theorem State.hist_setPc (s : State) (p : Word) : (s.setPc p).hist = s.hist := rfl
@[simp] theorem State.vis_setPc (s : State) (p : Word) : (s.setPc p).vis = s.vis := rfl
@[simp] theorem State.pubs_setPc (s : State) (p : Word) : (s.setPc p).pubs = s.pubs := rfl
@[simp] theorem State.parts_setPc (s : State) (p : Word) : (s.setPc p).parts = s.parts := rfl
@[simp] theorem State.kernels_setPc (s : State) (p : Word) : (s.setPc p).kernels = s.kernels := rfl
@[simp] theorem State.nextKernel_setPc (s : State) (p : Word) : (s.setPc p).nextKernel = s.nextKernel := rfl
@[simp] theorem State.gangs_setPc (s : State) (p : Word) : (s.setPc p).gangs = s.gangs := rfl
@[simp] theorem State.nextGang_setPc (s : State) (p : Word) : (s.setPc p).nextGang = s.nextGang := rfl
@[simp] theorem State.cmds_setPc (s : State) (p : Word) : (s.setPc p).cmds = s.cmds := rfl
@[simp] theorem State.nextCmd_setPc (s : State) (p : Word) : (s.setPc p).nextCmd = s.nextCmd := rfl
@[simp] theorem State.fns_setPc (s : State) (p : Word) : (s.setPc p).fns = s.fns := rfl
@[simp] theorem State.currencies_setPc (s : State) (p : Word) : (s.setPc p).currencies = s.currencies := rfl
@[simp] theorem State.classes_setPc (s : State) (p : Word) : (s.setPc p).classes = s.classes := rfl
@[simp] theorem State.classLocks_setPc (s : State) (p : Word) : (s.setPc p).classLocks = s.classLocks := rfl
@[simp] theorem State.frames_setPc (s : State) (p : Word) : (s.setPc p).frames = s.frames := rfl
@[simp] theorem State.ports_setPc (s : State) (p : Word) : (s.setPc p).ports = s.ports := rfl
@[simp] theorem State.devNumber_setPc (s : State) (p : Word) : (s.setPc p).devNumber = s.devNumber := rfl
@[simp] theorem State.routes_setPc (s : State) (p : Word) : (s.setPc p).routes = s.routes := rfl
@[simp] theorem State.mp_setPc (s : State) (p : Word) : (s.setPc p).mp = s.mp := rfl
@[simp] theorem State.power_setPc (s : State) (p : Word) : (s.setPc p).power = s.power := rfl
@[simp] theorem State.regs_setPc (s : State) (p : Word) : (s.setPc p).regs = s.regs := rfl
@[simp] theorem State.variant_setPc (s : State) (p : Word) : (s.setPc p).variant = s.variant := rfl
@[simp] theorem State.fatal_setPc (s : State) (p : Word) : (s.setPc p).fatal = s.fatal := rfl
@[simp] theorem State.dump_setPc (s : State) (p : Word) : (s.setPc p).dump = s.dump := rfl
@[simp] theorem State.devErrSeq_setPc (s : State) (p : Word) : (s.setPc p).devErrSeq = s.devErrSeq := rfl
@[simp] theorem State.devRecords_setPc (s : State) (p : Word) : (s.setPc p).devRecords = s.devRecords := rfl
@[simp] theorem State.out_setPc (s : State) (p : Word) : (s.setPc p).out = s.out := rfl
@[simp] theorem State.now_setPc (s : State) (p : Word) : (s.setPc p).now = s.now := rfl
@[simp] theorem State.turn_setPc (s : State) (p : Word) : (s.setPc p).turn = s.turn := rfl
@[simp] theorem State.stepNo_setPc (s : State) (p : Word) : (s.setPc p).stepNo = s.stepNo := rfl
@[simp] theorem State.fresh_setPc (s : State) (p : Word) : (s.setPc p).fresh = s.fresh := rfl
@[simp] theorem State.seqT_setPc (s : State) (p : Word) : (s.setPc p).seqT = s.seqT := rfl
@[simp] theorem State.cur_setPc (s : State) (p : Word) : (s.setPc p).cur = s.cur := rfl
@[simp] theorem State.found_setPc (s : State) (p : Word) : (s.setPc p).found = s.found := rfl
@[simp] theorem State.dieErrors_setPc (s : State) (p : Word) : (s.setPc p).dieErrors = s.dieErrors := rfl
@[simp] theorem State.channelsOut_setPc (s : State) (p : Word) : (s.setPc p).channelsOut = s.channelsOut := rfl

@[simp] theorem State.mem_advance (s : State) : (s.advance).mem = s.mem := rfl
@[simp] theorem State.tags_advance (s : State) : (s.advance).tags = s.tags := rfl
@[simp] theorem State.poison_advance (s : State) : (s.advance).poison = s.poison := rfl
@[simp] theorem State.flips_advance (s : State) : (s.advance).flips = s.flips := rfl
@[simp] theorem State.hist_advance (s : State) : (s.advance).hist = s.hist := rfl
@[simp] theorem State.vis_advance (s : State) : (s.advance).vis = s.vis := rfl
@[simp] theorem State.pubs_advance (s : State) : (s.advance).pubs = s.pubs := rfl
@[simp] theorem State.parts_advance (s : State) : (s.advance).parts = s.parts := rfl
@[simp] theorem State.kernels_advance (s : State) : (s.advance).kernels = s.kernels := rfl
@[simp] theorem State.nextKernel_advance (s : State) : (s.advance).nextKernel = s.nextKernel := rfl
@[simp] theorem State.gangs_advance (s : State) : (s.advance).gangs = s.gangs := rfl
@[simp] theorem State.nextGang_advance (s : State) : (s.advance).nextGang = s.nextGang := rfl
@[simp] theorem State.cmds_advance (s : State) : (s.advance).cmds = s.cmds := rfl
@[simp] theorem State.nextCmd_advance (s : State) : (s.advance).nextCmd = s.nextCmd := rfl
@[simp] theorem State.fns_advance (s : State) : (s.advance).fns = s.fns := rfl
@[simp] theorem State.currencies_advance (s : State) : (s.advance).currencies = s.currencies := rfl
@[simp] theorem State.classes_advance (s : State) : (s.advance).classes = s.classes := rfl
@[simp] theorem State.classLocks_advance (s : State) : (s.advance).classLocks = s.classLocks := rfl
@[simp] theorem State.frames_advance (s : State) : (s.advance).frames = s.frames := rfl
@[simp] theorem State.ports_advance (s : State) : (s.advance).ports = s.ports := rfl
@[simp] theorem State.devNumber_advance (s : State) : (s.advance).devNumber = s.devNumber := rfl
@[simp] theorem State.routes_advance (s : State) : (s.advance).routes = s.routes := rfl
@[simp] theorem State.mp_advance (s : State) : (s.advance).mp = s.mp := rfl
@[simp] theorem State.power_advance (s : State) : (s.advance).power = s.power := rfl
@[simp] theorem State.regs_advance (s : State) : (s.advance).regs = s.regs := rfl
@[simp] theorem State.variant_advance (s : State) : (s.advance).variant = s.variant := rfl
@[simp] theorem State.fatal_advance (s : State) : (s.advance).fatal = s.fatal := rfl
@[simp] theorem State.dump_advance (s : State) : (s.advance).dump = s.dump := rfl
@[simp] theorem State.devErrSeq_advance (s : State) : (s.advance).devErrSeq = s.devErrSeq := rfl
@[simp] theorem State.devRecords_advance (s : State) : (s.advance).devRecords = s.devRecords := rfl
@[simp] theorem State.out_advance (s : State) : (s.advance).out = s.out := rfl
@[simp] theorem State.now_advance (s : State) : (s.advance).now = s.now := rfl
@[simp] theorem State.turn_advance (s : State) : (s.advance).turn = s.turn := rfl
@[simp] theorem State.stepNo_advance (s : State) : (s.advance).stepNo = s.stepNo := rfl
@[simp] theorem State.fresh_advance (s : State) : (s.advance).fresh = s.fresh := rfl
@[simp] theorem State.seqT_advance (s : State) : (s.advance).seqT = s.seqT := rfl
@[simp] theorem State.cur_advance (s : State) : (s.advance).cur = s.cur := rfl
@[simp] theorem State.found_advance (s : State) : (s.advance).found = s.found := rfl
@[simp] theorem State.dieErrors_advance (s : State) : (s.advance).dieErrors = s.dieErrors := rfl
@[simp] theorem State.channelsOut_advance (s : State) : (s.advance).channelsOut = s.channelsOut := rfl

@[simp] theorem State.mem_result (s : State) (d : Nat) (x : Word) : (s.result d x).mem = s.mem := rfl
@[simp] theorem State.tags_result (s : State) (d : Nat) (x : Word) : (s.result d x).tags = s.tags := rfl
@[simp] theorem State.poison_result (s : State) (d : Nat) (x : Word) : (s.result d x).poison = s.poison := rfl
@[simp] theorem State.flips_result (s : State) (d : Nat) (x : Word) : (s.result d x).flips = s.flips := rfl
@[simp] theorem State.hist_result (s : State) (d : Nat) (x : Word) : (s.result d x).hist = s.hist := rfl
@[simp] theorem State.vis_result (s : State) (d : Nat) (x : Word) : (s.result d x).vis = s.vis := rfl
@[simp] theorem State.pubs_result (s : State) (d : Nat) (x : Word) : (s.result d x).pubs = s.pubs := rfl
@[simp] theorem State.parts_result (s : State) (d : Nat) (x : Word) : (s.result d x).parts = s.parts := rfl
@[simp] theorem State.kernels_result (s : State) (d : Nat) (x : Word) : (s.result d x).kernels = s.kernels := rfl
@[simp] theorem State.nextKernel_result (s : State) (d : Nat) (x : Word) : (s.result d x).nextKernel = s.nextKernel := rfl
@[simp] theorem State.gangs_result (s : State) (d : Nat) (x : Word) : (s.result d x).gangs = s.gangs := rfl
@[simp] theorem State.nextGang_result (s : State) (d : Nat) (x : Word) : (s.result d x).nextGang = s.nextGang := rfl
@[simp] theorem State.cmds_result (s : State) (d : Nat) (x : Word) : (s.result d x).cmds = s.cmds := rfl
@[simp] theorem State.nextCmd_result (s : State) (d : Nat) (x : Word) : (s.result d x).nextCmd = s.nextCmd := rfl
@[simp] theorem State.fns_result (s : State) (d : Nat) (x : Word) : (s.result d x).fns = s.fns := rfl
@[simp] theorem State.currencies_result (s : State) (d : Nat) (x : Word) : (s.result d x).currencies = s.currencies := rfl
@[simp] theorem State.classes_result (s : State) (d : Nat) (x : Word) : (s.result d x).classes = s.classes := rfl
@[simp] theorem State.classLocks_result (s : State) (d : Nat) (x : Word) : (s.result d x).classLocks = s.classLocks := rfl
@[simp] theorem State.frames_result (s : State) (d : Nat) (x : Word) : (s.result d x).frames = s.frames := rfl
@[simp] theorem State.ports_result (s : State) (d : Nat) (x : Word) : (s.result d x).ports = s.ports := rfl
@[simp] theorem State.devNumber_result (s : State) (d : Nat) (x : Word) : (s.result d x).devNumber = s.devNumber := rfl
@[simp] theorem State.routes_result (s : State) (d : Nat) (x : Word) : (s.result d x).routes = s.routes := rfl
@[simp] theorem State.mp_result (s : State) (d : Nat) (x : Word) : (s.result d x).mp = s.mp := rfl
@[simp] theorem State.power_result (s : State) (d : Nat) (x : Word) : (s.result d x).power = s.power := rfl
@[simp] theorem State.regs_result (s : State) (d : Nat) (x : Word) : (s.result d x).regs = s.regs := rfl
@[simp] theorem State.variant_result (s : State) (d : Nat) (x : Word) : (s.result d x).variant = s.variant := rfl
@[simp] theorem State.fatal_result (s : State) (d : Nat) (x : Word) : (s.result d x).fatal = s.fatal := rfl
@[simp] theorem State.dump_result (s : State) (d : Nat) (x : Word) : (s.result d x).dump = s.dump := rfl
@[simp] theorem State.devErrSeq_result (s : State) (d : Nat) (x : Word) : (s.result d x).devErrSeq = s.devErrSeq := rfl
@[simp] theorem State.devRecords_result (s : State) (d : Nat) (x : Word) : (s.result d x).devRecords = s.devRecords := rfl
@[simp] theorem State.out_result (s : State) (d : Nat) (x : Word) : (s.result d x).out = s.out := rfl
@[simp] theorem State.now_result (s : State) (d : Nat) (x : Word) : (s.result d x).now = s.now := rfl
@[simp] theorem State.turn_result (s : State) (d : Nat) (x : Word) : (s.result d x).turn = s.turn := rfl
@[simp] theorem State.stepNo_result (s : State) (d : Nat) (x : Word) : (s.result d x).stepNo = s.stepNo := rfl
@[simp] theorem State.fresh_result (s : State) (d : Nat) (x : Word) : (s.result d x).fresh = s.fresh := rfl
@[simp] theorem State.seqT_result (s : State) (d : Nat) (x : Word) : (s.result d x).seqT = s.seqT := rfl
@[simp] theorem State.cur_result (s : State) (d : Nat) (x : Word) : (s.result d x).cur = s.cur := rfl
@[simp] theorem State.found_result (s : State) (d : Nat) (x : Word) : (s.result d x).found = s.found := rfl
@[simp] theorem State.dieErrors_result (s : State) (d : Nat) (x : Word) : (s.result d x).dieErrors = s.dieErrors := rfl
@[simp] theorem State.channelsOut_result (s : State) (d : Nat) (x : Word) : (s.result d x).channelsOut = s.channelsOut := rfl

@[simp] theorem State.mem_modFn (s : State) (n : Nat) (f : Fn → Fn) : (s.modFn n f).mem = s.mem := rfl
@[simp] theorem State.tags_modFn (s : State) (n : Nat) (f : Fn → Fn) : (s.modFn n f).tags = s.tags := rfl
@[simp] theorem State.poison_modFn (s : State) (n : Nat) (f : Fn → Fn) : (s.modFn n f).poison = s.poison := rfl
@[simp] theorem State.flips_modFn (s : State) (n : Nat) (f : Fn → Fn) : (s.modFn n f).flips = s.flips := rfl
@[simp] theorem State.hist_modFn (s : State) (n : Nat) (f : Fn → Fn) : (s.modFn n f).hist = s.hist := rfl
@[simp] theorem State.vis_modFn (s : State) (n : Nat) (f : Fn → Fn) : (s.modFn n f).vis = s.vis := rfl
@[simp] theorem State.pubs_modFn (s : State) (n : Nat) (f : Fn → Fn) : (s.modFn n f).pubs = s.pubs := rfl
@[simp] theorem State.slots_modFn (s : State) (n : Nat) (f : Fn → Fn) : (s.modFn n f).slots = s.slots := rfl
@[simp] theorem State.parts_modFn (s : State) (n : Nat) (f : Fn → Fn) : (s.modFn n f).parts = s.parts := rfl
@[simp] theorem State.kernels_modFn (s : State) (n : Nat) (f : Fn → Fn) : (s.modFn n f).kernels = s.kernels := rfl
@[simp] theorem State.nextKernel_modFn (s : State) (n : Nat) (f : Fn → Fn) : (s.modFn n f).nextKernel = s.nextKernel := rfl
@[simp] theorem State.gangs_modFn (s : State) (n : Nat) (f : Fn → Fn) : (s.modFn n f).gangs = s.gangs := rfl
@[simp] theorem State.nextGang_modFn (s : State) (n : Nat) (f : Fn → Fn) : (s.modFn n f).nextGang = s.nextGang := rfl
@[simp] theorem State.cmds_modFn (s : State) (n : Nat) (f : Fn → Fn) : (s.modFn n f).cmds = s.cmds := rfl
@[simp] theorem State.nextCmd_modFn (s : State) (n : Nat) (f : Fn → Fn) : (s.modFn n f).nextCmd = s.nextCmd := rfl
@[simp] theorem State.currencies_modFn (s : State) (n : Nat) (f : Fn → Fn) : (s.modFn n f).currencies = s.currencies := rfl
@[simp] theorem State.classes_modFn (s : State) (n : Nat) (f : Fn → Fn) : (s.modFn n f).classes = s.classes := rfl
@[simp] theorem State.classLocks_modFn (s : State) (n : Nat) (f : Fn → Fn) : (s.modFn n f).classLocks = s.classLocks := rfl
@[simp] theorem State.frames_modFn (s : State) (n : Nat) (f : Fn → Fn) : (s.modFn n f).frames = s.frames := rfl
@[simp] theorem State.ports_modFn (s : State) (n : Nat) (f : Fn → Fn) : (s.modFn n f).ports = s.ports := rfl
@[simp] theorem State.devNumber_modFn (s : State) (n : Nat) (f : Fn → Fn) : (s.modFn n f).devNumber = s.devNumber := rfl
@[simp] theorem State.routes_modFn (s : State) (n : Nat) (f : Fn → Fn) : (s.modFn n f).routes = s.routes := rfl
@[simp] theorem State.mp_modFn (s : State) (n : Nat) (f : Fn → Fn) : (s.modFn n f).mp = s.mp := rfl
@[simp] theorem State.power_modFn (s : State) (n : Nat) (f : Fn → Fn) : (s.modFn n f).power = s.power := rfl
@[simp] theorem State.regs_modFn (s : State) (n : Nat) (f : Fn → Fn) : (s.modFn n f).regs = s.regs := rfl
@[simp] theorem State.variant_modFn (s : State) (n : Nat) (f : Fn → Fn) : (s.modFn n f).variant = s.variant := rfl
@[simp] theorem State.fatal_modFn (s : State) (n : Nat) (f : Fn → Fn) : (s.modFn n f).fatal = s.fatal := rfl
@[simp] theorem State.dump_modFn (s : State) (n : Nat) (f : Fn → Fn) : (s.modFn n f).dump = s.dump := rfl
@[simp] theorem State.devErrSeq_modFn (s : State) (n : Nat) (f : Fn → Fn) : (s.modFn n f).devErrSeq = s.devErrSeq := rfl
@[simp] theorem State.devRecords_modFn (s : State) (n : Nat) (f : Fn → Fn) : (s.modFn n f).devRecords = s.devRecords := rfl
@[simp] theorem State.out_modFn (s : State) (n : Nat) (f : Fn → Fn) : (s.modFn n f).out = s.out := rfl
@[simp] theorem State.now_modFn (s : State) (n : Nat) (f : Fn → Fn) : (s.modFn n f).now = s.now := rfl
@[simp] theorem State.turn_modFn (s : State) (n : Nat) (f : Fn → Fn) : (s.modFn n f).turn = s.turn := rfl
@[simp] theorem State.stepNo_modFn (s : State) (n : Nat) (f : Fn → Fn) : (s.modFn n f).stepNo = s.stepNo := rfl
@[simp] theorem State.fresh_modFn (s : State) (n : Nat) (f : Fn → Fn) : (s.modFn n f).fresh = s.fresh := rfl
@[simp] theorem State.seqT_modFn (s : State) (n : Nat) (f : Fn → Fn) : (s.modFn n f).seqT = s.seqT := rfl
@[simp] theorem State.cur_modFn (s : State) (n : Nat) (f : Fn → Fn) : (s.modFn n f).cur = s.cur := rfl
@[simp] theorem State.found_modFn (s : State) (n : Nat) (f : Fn → Fn) : (s.modFn n f).found = s.found := rfl
@[simp] theorem State.dieErrors_modFn (s : State) (n : Nat) (f : Fn → Fn) : (s.modFn n f).dieErrors = s.dieErrors := rfl
@[simp] theorem State.channelsOut_modFn (s : State) (n : Nat) (f : Fn → Fn) : (s.modFn n f).channelsOut = s.channelsOut := rfl

@[simp] theorem State.mem_send (s : State) (k : Nat) (l : List Nat) (b : List Byte) : (s.send k l b).mem = s.mem := rfl
@[simp] theorem State.tags_send (s : State) (k : Nat) (l : List Nat) (b : List Byte) : (s.send k l b).tags = s.tags := rfl
@[simp] theorem State.poison_send (s : State) (k : Nat) (l : List Nat) (b : List Byte) : (s.send k l b).poison = s.poison := rfl
@[simp] theorem State.flips_send (s : State) (k : Nat) (l : List Nat) (b : List Byte) : (s.send k l b).flips = s.flips := rfl
@[simp] theorem State.hist_send (s : State) (k : Nat) (l : List Nat) (b : List Byte) : (s.send k l b).hist = s.hist := rfl
@[simp] theorem State.vis_send (s : State) (k : Nat) (l : List Nat) (b : List Byte) : (s.send k l b).vis = s.vis := rfl
@[simp] theorem State.pubs_send (s : State) (k : Nat) (l : List Nat) (b : List Byte) : (s.send k l b).pubs = s.pubs := rfl
@[simp] theorem State.slots_send (s : State) (k : Nat) (l : List Nat) (b : List Byte) : (s.send k l b).slots = s.slots := rfl
@[simp] theorem State.parts_send (s : State) (k : Nat) (l : List Nat) (b : List Byte) : (s.send k l b).parts = s.parts := rfl
@[simp] theorem State.kernels_send (s : State) (k : Nat) (l : List Nat) (b : List Byte) : (s.send k l b).kernels = s.kernels := rfl
@[simp] theorem State.nextKernel_send (s : State) (k : Nat) (l : List Nat) (b : List Byte) : (s.send k l b).nextKernel = s.nextKernel := rfl
@[simp] theorem State.gangs_send (s : State) (k : Nat) (l : List Nat) (b : List Byte) : (s.send k l b).gangs = s.gangs := rfl
@[simp] theorem State.nextGang_send (s : State) (k : Nat) (l : List Nat) (b : List Byte) : (s.send k l b).nextGang = s.nextGang := rfl
@[simp] theorem State.cmds_send (s : State) (k : Nat) (l : List Nat) (b : List Byte) : (s.send k l b).cmds = s.cmds := rfl
@[simp] theorem State.nextCmd_send (s : State) (k : Nat) (l : List Nat) (b : List Byte) : (s.send k l b).nextCmd = s.nextCmd := rfl
@[simp] theorem State.fns_send (s : State) (k : Nat) (l : List Nat) (b : List Byte) : (s.send k l b).fns = s.fns := rfl
@[simp] theorem State.currencies_send (s : State) (k : Nat) (l : List Nat) (b : List Byte) : (s.send k l b).currencies = s.currencies := rfl
@[simp] theorem State.classes_send (s : State) (k : Nat) (l : List Nat) (b : List Byte) : (s.send k l b).classes = s.classes := rfl
@[simp] theorem State.classLocks_send (s : State) (k : Nat) (l : List Nat) (b : List Byte) : (s.send k l b).classLocks = s.classLocks := rfl
@[simp] theorem State.frames_send (s : State) (k : Nat) (l : List Nat) (b : List Byte) : (s.send k l b).frames = s.frames := rfl
@[simp] theorem State.ports_send (s : State) (k : Nat) (l : List Nat) (b : List Byte) : (s.send k l b).ports = s.ports := rfl
@[simp] theorem State.devNumber_send (s : State) (k : Nat) (l : List Nat) (b : List Byte) : (s.send k l b).devNumber = s.devNumber := rfl
@[simp] theorem State.routes_send (s : State) (k : Nat) (l : List Nat) (b : List Byte) : (s.send k l b).routes = s.routes := rfl
@[simp] theorem State.mp_send (s : State) (k : Nat) (l : List Nat) (b : List Byte) : (s.send k l b).mp = s.mp := rfl
@[simp] theorem State.power_send (s : State) (k : Nat) (l : List Nat) (b : List Byte) : (s.send k l b).power = s.power := rfl
@[simp] theorem State.regs_send (s : State) (k : Nat) (l : List Nat) (b : List Byte) : (s.send k l b).regs = s.regs := rfl
@[simp] theorem State.variant_send (s : State) (k : Nat) (l : List Nat) (b : List Byte) : (s.send k l b).variant = s.variant := rfl
@[simp] theorem State.fatal_send (s : State) (k : Nat) (l : List Nat) (b : List Byte) : (s.send k l b).fatal = s.fatal := rfl
@[simp] theorem State.dump_send (s : State) (k : Nat) (l : List Nat) (b : List Byte) : (s.send k l b).dump = s.dump := rfl
@[simp] theorem State.devErrSeq_send (s : State) (k : Nat) (l : List Nat) (b : List Byte) : (s.send k l b).devErrSeq = s.devErrSeq := rfl
@[simp] theorem State.devRecords_send (s : State) (k : Nat) (l : List Nat) (b : List Byte) : (s.send k l b).devRecords = s.devRecords := rfl
@[simp] theorem State.now_send (s : State) (k : Nat) (l : List Nat) (b : List Byte) : (s.send k l b).now = s.now := rfl
@[simp] theorem State.turn_send (s : State) (k : Nat) (l : List Nat) (b : List Byte) : (s.send k l b).turn = s.turn := rfl
@[simp] theorem State.stepNo_send (s : State) (k : Nat) (l : List Nat) (b : List Byte) : (s.send k l b).stepNo = s.stepNo := rfl
@[simp] theorem State.fresh_send (s : State) (k : Nat) (l : List Nat) (b : List Byte) : (s.send k l b).fresh = s.fresh := rfl
@[simp] theorem State.seqT_send (s : State) (k : Nat) (l : List Nat) (b : List Byte) : (s.send k l b).seqT = s.seqT := rfl
@[simp] theorem State.cur_send (s : State) (k : Nat) (l : List Nat) (b : List Byte) : (s.send k l b).cur = s.cur := rfl
@[simp] theorem State.found_send (s : State) (k : Nat) (l : List Nat) (b : List Byte) : (s.send k l b).found = s.found := rfl
@[simp] theorem State.dieErrors_send (s : State) (k : Nat) (l : List Nat) (b : List Byte) : (s.send k l b).dieErrors = s.dieErrors := rfl
@[simp] theorem State.channelsOut_send (s : State) (k : Nat) (l : List Nat) (b : List Byte) : (s.send k l b).channelsOut = s.channelsOut := rfl

@[simp] theorem State.tags_poke (s : State) (g : Agent) (c : Option Nat) (a : Nat) (b : List Byte) : (s.poke g c a b).tags = s.tags := rfl
@[simp] theorem State.poison_poke (s : State) (g : Agent) (c : Option Nat) (a : Nat) (b : List Byte) : (s.poke g c a b).poison = s.poison := rfl
@[simp] theorem State.vis_poke (s : State) (g : Agent) (c : Option Nat) (a : Nat) (b : List Byte) : (s.poke g c a b).vis = s.vis := rfl
@[simp] theorem State.pubs_poke (s : State) (g : Agent) (c : Option Nat) (a : Nat) (b : List Byte) : (s.poke g c a b).pubs = s.pubs := rfl
@[simp] theorem State.slots_poke (s : State) (g : Agent) (c : Option Nat) (a : Nat) (b : List Byte) : (s.poke g c a b).slots = s.slots := rfl
@[simp] theorem State.parts_poke (s : State) (g : Agent) (c : Option Nat) (a : Nat) (b : List Byte) : (s.poke g c a b).parts = s.parts := rfl
@[simp] theorem State.kernels_poke (s : State) (g : Agent) (c : Option Nat) (a : Nat) (b : List Byte) : (s.poke g c a b).kernels = s.kernels := rfl
@[simp] theorem State.nextKernel_poke (s : State) (g : Agent) (c : Option Nat) (a : Nat) (b : List Byte) : (s.poke g c a b).nextKernel = s.nextKernel := rfl
@[simp] theorem State.gangs_poke (s : State) (g : Agent) (c : Option Nat) (a : Nat) (b : List Byte) : (s.poke g c a b).gangs = s.gangs := rfl
@[simp] theorem State.nextGang_poke (s : State) (g : Agent) (c : Option Nat) (a : Nat) (b : List Byte) : (s.poke g c a b).nextGang = s.nextGang := rfl
@[simp] theorem State.cmds_poke (s : State) (g : Agent) (c : Option Nat) (a : Nat) (b : List Byte) : (s.poke g c a b).cmds = s.cmds := rfl
@[simp] theorem State.nextCmd_poke (s : State) (g : Agent) (c : Option Nat) (a : Nat) (b : List Byte) : (s.poke g c a b).nextCmd = s.nextCmd := rfl
@[simp] theorem State.fns_poke (s : State) (g : Agent) (c : Option Nat) (a : Nat) (b : List Byte) : (s.poke g c a b).fns = s.fns := rfl
@[simp] theorem State.currencies_poke (s : State) (g : Agent) (c : Option Nat) (a : Nat) (b : List Byte) : (s.poke g c a b).currencies = s.currencies := rfl
@[simp] theorem State.classes_poke (s : State) (g : Agent) (c : Option Nat) (a : Nat) (b : List Byte) : (s.poke g c a b).classes = s.classes := rfl
@[simp] theorem State.classLocks_poke (s : State) (g : Agent) (c : Option Nat) (a : Nat) (b : List Byte) : (s.poke g c a b).classLocks = s.classLocks := rfl
@[simp] theorem State.frames_poke (s : State) (g : Agent) (c : Option Nat) (a : Nat) (b : List Byte) : (s.poke g c a b).frames = s.frames := rfl
@[simp] theorem State.ports_poke (s : State) (g : Agent) (c : Option Nat) (a : Nat) (b : List Byte) : (s.poke g c a b).ports = s.ports := rfl
@[simp] theorem State.devNumber_poke (s : State) (g : Agent) (c : Option Nat) (a : Nat) (b : List Byte) : (s.poke g c a b).devNumber = s.devNumber := rfl
@[simp] theorem State.routes_poke (s : State) (g : Agent) (c : Option Nat) (a : Nat) (b : List Byte) : (s.poke g c a b).routes = s.routes := rfl
@[simp] theorem State.mp_poke (s : State) (g : Agent) (c : Option Nat) (a : Nat) (b : List Byte) : (s.poke g c a b).mp = s.mp := rfl
@[simp] theorem State.power_poke (s : State) (g : Agent) (c : Option Nat) (a : Nat) (b : List Byte) : (s.poke g c a b).power = s.power := rfl
@[simp] theorem State.regs_poke (s : State) (g : Agent) (c : Option Nat) (a : Nat) (b : List Byte) : (s.poke g c a b).regs = s.regs := rfl
@[simp] theorem State.variant_poke (s : State) (g : Agent) (c : Option Nat) (a : Nat) (b : List Byte) : (s.poke g c a b).variant = s.variant := rfl
@[simp] theorem State.fatal_poke (s : State) (g : Agent) (c : Option Nat) (a : Nat) (b : List Byte) : (s.poke g c a b).fatal = s.fatal := rfl
@[simp] theorem State.dump_poke (s : State) (g : Agent) (c : Option Nat) (a : Nat) (b : List Byte) : (s.poke g c a b).dump = s.dump := rfl
@[simp] theorem State.devErrSeq_poke (s : State) (g : Agent) (c : Option Nat) (a : Nat) (b : List Byte) : (s.poke g c a b).devErrSeq = s.devErrSeq := rfl
@[simp] theorem State.devRecords_poke (s : State) (g : Agent) (c : Option Nat) (a : Nat) (b : List Byte) : (s.poke g c a b).devRecords = s.devRecords := rfl
@[simp] theorem State.out_poke (s : State) (g : Agent) (c : Option Nat) (a : Nat) (b : List Byte) : (s.poke g c a b).out = s.out := rfl
@[simp] theorem State.now_poke (s : State) (g : Agent) (c : Option Nat) (a : Nat) (b : List Byte) : (s.poke g c a b).now = s.now := rfl
@[simp] theorem State.turn_poke (s : State) (g : Agent) (c : Option Nat) (a : Nat) (b : List Byte) : (s.poke g c a b).turn = s.turn := rfl
@[simp] theorem State.stepNo_poke (s : State) (g : Agent) (c : Option Nat) (a : Nat) (b : List Byte) : (s.poke g c a b).stepNo = s.stepNo := rfl
@[simp] theorem State.fresh_poke (s : State) (g : Agent) (c : Option Nat) (a : Nat) (b : List Byte) : (s.poke g c a b).fresh = s.fresh := rfl
@[simp] theorem State.cur_poke (s : State) (g : Agent) (c : Option Nat) (a : Nat) (b : List Byte) : (s.poke g c a b).cur = s.cur := rfl
@[simp] theorem State.found_poke (s : State) (g : Agent) (c : Option Nat) (a : Nat) (b : List Byte) : (s.poke g c a b).found = s.found := rfl
@[simp] theorem State.dieErrors_poke (s : State) (g : Agent) (c : Option Nat) (a : Nat) (b : List Byte) : (s.poke g c a b).dieErrors = s.dieErrors := rfl
@[simp] theorem State.channelsOut_poke (s : State) (g : Agent) (c : Option Nat) (a : Nat) (b : List Byte) : (s.poke g c a b).channelsOut = s.channelsOut := rfl


@[simp] theorem State.mem_setFull (s : State) (a : Nat) (b : Bool) : (s.setFull a b).mem = s.mem := rfl
@[simp] theorem State.poison_setFull (s : State) (a : Nat) (b : Bool) : (s.setFull a b).poison = s.poison := rfl
@[simp] theorem State.flips_setFull (s : State) (a : Nat) (b : Bool) : (s.setFull a b).flips = s.flips := rfl
@[simp] theorem State.hist_setFull (s : State) (a : Nat) (b : Bool) : (s.setFull a b).hist = s.hist := rfl
@[simp] theorem State.vis_setFull (s : State) (a : Nat) (b : Bool) : (s.setFull a b).vis = s.vis := rfl
@[simp] theorem State.pubs_setFull (s : State) (a : Nat) (b : Bool) : (s.setFull a b).pubs = s.pubs := rfl
@[simp] theorem State.slots_setFull (s : State) (a : Nat) (b : Bool) : (s.setFull a b).slots = s.slots := rfl
@[simp] theorem State.parts_setFull (s : State) (a : Nat) (b : Bool) : (s.setFull a b).parts = s.parts := rfl
@[simp] theorem State.kernels_setFull (s : State) (a : Nat) (b : Bool) : (s.setFull a b).kernels = s.kernels := rfl
@[simp] theorem State.nextKernel_setFull (s : State) (a : Nat) (b : Bool) : (s.setFull a b).nextKernel = s.nextKernel := rfl
@[simp] theorem State.gangs_setFull (s : State) (a : Nat) (b : Bool) : (s.setFull a b).gangs = s.gangs := rfl
@[simp] theorem State.nextGang_setFull (s : State) (a : Nat) (b : Bool) : (s.setFull a b).nextGang = s.nextGang := rfl
@[simp] theorem State.cmds_setFull (s : State) (a : Nat) (b : Bool) : (s.setFull a b).cmds = s.cmds := rfl
@[simp] theorem State.nextCmd_setFull (s : State) (a : Nat) (b : Bool) : (s.setFull a b).nextCmd = s.nextCmd := rfl
@[simp] theorem State.fns_setFull (s : State) (a : Nat) (b : Bool) : (s.setFull a b).fns = s.fns := rfl
@[simp] theorem State.currencies_setFull (s : State) (a : Nat) (b : Bool) : (s.setFull a b).currencies = s.currencies := rfl
@[simp] theorem State.classes_setFull (s : State) (a : Nat) (b : Bool) : (s.setFull a b).classes = s.classes := rfl
@[simp] theorem State.classLocks_setFull (s : State) (a : Nat) (b : Bool) : (s.setFull a b).classLocks = s.classLocks := rfl
@[simp] theorem State.frames_setFull (s : State) (a : Nat) (b : Bool) : (s.setFull a b).frames = s.frames := rfl
@[simp] theorem State.ports_setFull (s : State) (a : Nat) (b : Bool) : (s.setFull a b).ports = s.ports := rfl
@[simp] theorem State.devNumber_setFull (s : State) (a : Nat) (b : Bool) : (s.setFull a b).devNumber = s.devNumber := rfl
@[simp] theorem State.routes_setFull (s : State) (a : Nat) (b : Bool) : (s.setFull a b).routes = s.routes := rfl
@[simp] theorem State.mp_setFull (s : State) (a : Nat) (b : Bool) : (s.setFull a b).mp = s.mp := rfl
@[simp] theorem State.power_setFull (s : State) (a : Nat) (b : Bool) : (s.setFull a b).power = s.power := rfl
@[simp] theorem State.regs_setFull (s : State) (a : Nat) (b : Bool) : (s.setFull a b).regs = s.regs := rfl
@[simp] theorem State.variant_setFull (s : State) (a : Nat) (b : Bool) : (s.setFull a b).variant = s.variant := rfl
@[simp] theorem State.fatal_setFull (s : State) (a : Nat) (b : Bool) : (s.setFull a b).fatal = s.fatal := rfl
@[simp] theorem State.dump_setFull (s : State) (a : Nat) (b : Bool) : (s.setFull a b).dump = s.dump := rfl
@[simp] theorem State.devErrSeq_setFull (s : State) (a : Nat) (b : Bool) : (s.setFull a b).devErrSeq = s.devErrSeq := rfl
@[simp] theorem State.devRecords_setFull (s : State) (a : Nat) (b : Bool) : (s.setFull a b).devRecords = s.devRecords := rfl
@[simp] theorem State.out_setFull (s : State) (a : Nat) (b : Bool) : (s.setFull a b).out = s.out := rfl
@[simp] theorem State.now_setFull (s : State) (a : Nat) (b : Bool) : (s.setFull a b).now = s.now := rfl
@[simp] theorem State.turn_setFull (s : State) (a : Nat) (b : Bool) : (s.setFull a b).turn = s.turn := rfl
@[simp] theorem State.stepNo_setFull (s : State) (a : Nat) (b : Bool) : (s.setFull a b).stepNo = s.stepNo := rfl
@[simp] theorem State.fresh_setFull (s : State) (a : Nat) (b : Bool) : (s.setFull a b).fresh = s.fresh := rfl
@[simp] theorem State.seqT_setFull (s : State) (a : Nat) (b : Bool) : (s.setFull a b).seqT = s.seqT := rfl
@[simp] theorem State.cur_setFull (s : State) (a : Nat) (b : Bool) : (s.setFull a b).cur = s.cur := rfl
@[simp] theorem State.found_setFull (s : State) (a : Nat) (b : Bool) : (s.setFull a b).found = s.found := rfl
@[simp] theorem State.dieErrors_setFull (s : State) (a : Nat) (b : Bool) : (s.setFull a b).dieErrors = s.dieErrors := rfl
@[simp] theorem State.channelsOut_setFull (s : State) (a : Nat) (b : Bool) : (s.setFull a b).channelsOut = s.channelsOut := rfl

@[simp] theorem State.mem_setPoison (s : State) (a n : Nat) : (s.setPoison a n).mem = s.mem := rfl
@[simp] theorem State.tags_setPoison (s : State) (a n : Nat) : (s.setPoison a n).tags = s.tags := rfl
@[simp] theorem State.flips_setPoison (s : State) (a n : Nat) : (s.setPoison a n).flips = s.flips := rfl
@[simp] theorem State.hist_setPoison (s : State) (a n : Nat) : (s.setPoison a n).hist = s.hist := rfl
@[simp] theorem State.vis_setPoison (s : State) (a n : Nat) : (s.setPoison a n).vis = s.vis := rfl
@[simp] theorem State.pubs_setPoison (s : State) (a n : Nat) : (s.setPoison a n).pubs = s.pubs := rfl
@[simp] theorem State.parts_setPoison (s : State) (a n : Nat) : (s.setPoison a n).parts = s.parts := rfl
@[simp] theorem State.kernels_setPoison (s : State) (a n : Nat) : (s.setPoison a n).kernels = s.kernels := rfl
@[simp] theorem State.nextKernel_setPoison (s : State) (a n : Nat) : (s.setPoison a n).nextKernel = s.nextKernel := rfl
@[simp] theorem State.gangs_setPoison (s : State) (a n : Nat) : (s.setPoison a n).gangs = s.gangs := rfl
@[simp] theorem State.nextGang_setPoison (s : State) (a n : Nat) : (s.setPoison a n).nextGang = s.nextGang := rfl
@[simp] theorem State.nextCmd_setPoison (s : State) (a n : Nat) : (s.setPoison a n).nextCmd = s.nextCmd := rfl
@[simp] theorem State.fns_setPoison (s : State) (a n : Nat) : (s.setPoison a n).fns = s.fns := rfl
@[simp] theorem State.currencies_setPoison (s : State) (a n : Nat) : (s.setPoison a n).currencies = s.currencies := rfl
@[simp] theorem State.classes_setPoison (s : State) (a n : Nat) : (s.setPoison a n).classes = s.classes := rfl
@[simp] theorem State.classLocks_setPoison (s : State) (a n : Nat) : (s.setPoison a n).classLocks = s.classLocks := rfl
@[simp] theorem State.frames_setPoison (s : State) (a n : Nat) : (s.setPoison a n).frames = s.frames := rfl
@[simp] theorem State.ports_setPoison (s : State) (a n : Nat) : (s.setPoison a n).ports = s.ports := rfl
@[simp] theorem State.devNumber_setPoison (s : State) (a n : Nat) : (s.setPoison a n).devNumber = s.devNumber := rfl
@[simp] theorem State.routes_setPoison (s : State) (a n : Nat) : (s.setPoison a n).routes = s.routes := rfl
@[simp] theorem State.mp_setPoison (s : State) (a n : Nat) : (s.setPoison a n).mp = s.mp := rfl
@[simp] theorem State.power_setPoison (s : State) (a n : Nat) : (s.setPoison a n).power = s.power := rfl
@[simp] theorem State.regs_setPoison (s : State) (a n : Nat) : (s.setPoison a n).regs = s.regs := rfl
@[simp] theorem State.variant_setPoison (s : State) (a n : Nat) : (s.setPoison a n).variant = s.variant := rfl
@[simp] theorem State.fatal_setPoison (s : State) (a n : Nat) : (s.setPoison a n).fatal = s.fatal := rfl
@[simp] theorem State.dump_setPoison (s : State) (a n : Nat) : (s.setPoison a n).dump = s.dump := rfl
@[simp] theorem State.devErrSeq_setPoison (s : State) (a n : Nat) : (s.setPoison a n).devErrSeq = s.devErrSeq := rfl
@[simp] theorem State.devRecords_setPoison (s : State) (a n : Nat) : (s.setPoison a n).devRecords = s.devRecords := rfl
@[simp] theorem State.out_setPoison (s : State) (a n : Nat) : (s.setPoison a n).out = s.out := rfl
@[simp] theorem State.now_setPoison (s : State) (a n : Nat) : (s.setPoison a n).now = s.now := rfl
@[simp] theorem State.turn_setPoison (s : State) (a n : Nat) : (s.setPoison a n).turn = s.turn := rfl
@[simp] theorem State.stepNo_setPoison (s : State) (a n : Nat) : (s.setPoison a n).stepNo = s.stepNo := rfl
@[simp] theorem State.fresh_setPoison (s : State) (a n : Nat) : (s.setPoison a n).fresh = s.fresh := rfl
@[simp] theorem State.seqT_setPoison (s : State) (a n : Nat) : (s.setPoison a n).seqT = s.seqT := rfl
@[simp] theorem State.cur_setPoison (s : State) (a n : Nat) : (s.setPoison a n).cur = s.cur := rfl
@[simp] theorem State.found_setPoison (s : State) (a n : Nat) : (s.setPoison a n).found = s.found := rfl
@[simp] theorem State.dieErrors_setPoison (s : State) (a n : Nat) : (s.setPoison a n).dieErrors = s.dieErrors := rfl
@[simp] theorem State.channelsOut_setPoison (s : State) (a n : Nat) : (s.setPoison a n).channelsOut = s.channelsOut := rfl

@[simp] theorem State.mem_addFlip (s : State) (g : Nat) (bs : List Nat) (c : Option Bool) : (s.addFlip g bs c).mem = s.mem := rfl
@[simp] theorem State.tags_addFlip (s : State) (g : Nat) (bs : List Nat) (c : Option Bool) : (s.addFlip g bs c).tags = s.tags := rfl
@[simp] theorem State.poison_addFlip (s : State) (g : Nat) (bs : List Nat) (c : Option Bool) : (s.addFlip g bs c).poison = s.poison := rfl
@[simp] theorem State.hist_addFlip (s : State) (g : Nat) (bs : List Nat) (c : Option Bool) : (s.addFlip g bs c).hist = s.hist := rfl
@[simp] theorem State.vis_addFlip (s : State) (g : Nat) (bs : List Nat) (c : Option Bool) : (s.addFlip g bs c).vis = s.vis := rfl
@[simp] theorem State.pubs_addFlip (s : State) (g : Nat) (bs : List Nat) (c : Option Bool) : (s.addFlip g bs c).pubs = s.pubs := rfl
@[simp] theorem State.slots_addFlip (s : State) (g : Nat) (bs : List Nat) (c : Option Bool) : (s.addFlip g bs c).slots = s.slots := rfl
@[simp] theorem State.parts_addFlip (s : State) (g : Nat) (bs : List Nat) (c : Option Bool) : (s.addFlip g bs c).parts = s.parts := rfl
@[simp] theorem State.kernels_addFlip (s : State) (g : Nat) (bs : List Nat) (c : Option Bool) : (s.addFlip g bs c).kernels = s.kernels := rfl
@[simp] theorem State.nextKernel_addFlip (s : State) (g : Nat) (bs : List Nat) (c : Option Bool) : (s.addFlip g bs c).nextKernel = s.nextKernel := rfl
@[simp] theorem State.gangs_addFlip (s : State) (g : Nat) (bs : List Nat) (c : Option Bool) : (s.addFlip g bs c).gangs = s.gangs := rfl
@[simp] theorem State.nextGang_addFlip (s : State) (g : Nat) (bs : List Nat) (c : Option Bool) : (s.addFlip g bs c).nextGang = s.nextGang := rfl
@[simp] theorem State.cmds_addFlip (s : State) (g : Nat) (bs : List Nat) (c : Option Bool) : (s.addFlip g bs c).cmds = s.cmds := rfl
@[simp] theorem State.nextCmd_addFlip (s : State) (g : Nat) (bs : List Nat) (c : Option Bool) : (s.addFlip g bs c).nextCmd = s.nextCmd := rfl
@[simp] theorem State.fns_addFlip (s : State) (g : Nat) (bs : List Nat) (c : Option Bool) : (s.addFlip g bs c).fns = s.fns := rfl
@[simp] theorem State.currencies_addFlip (s : State) (g : Nat) (bs : List Nat) (c : Option Bool) : (s.addFlip g bs c).currencies = s.currencies := rfl
@[simp] theorem State.classes_addFlip (s : State) (g : Nat) (bs : List Nat) (c : Option Bool) : (s.addFlip g bs c).classes = s.classes := rfl
@[simp] theorem State.classLocks_addFlip (s : State) (g : Nat) (bs : List Nat) (c : Option Bool) : (s.addFlip g bs c).classLocks = s.classLocks := rfl
@[simp] theorem State.frames_addFlip (s : State) (g : Nat) (bs : List Nat) (c : Option Bool) : (s.addFlip g bs c).frames = s.frames := rfl
@[simp] theorem State.ports_addFlip (s : State) (g : Nat) (bs : List Nat) (c : Option Bool) : (s.addFlip g bs c).ports = s.ports := rfl
@[simp] theorem State.devNumber_addFlip (s : State) (g : Nat) (bs : List Nat) (c : Option Bool) : (s.addFlip g bs c).devNumber = s.devNumber := rfl
@[simp] theorem State.routes_addFlip (s : State) (g : Nat) (bs : List Nat) (c : Option Bool) : (s.addFlip g bs c).routes = s.routes := rfl
@[simp] theorem State.mp_addFlip (s : State) (g : Nat) (bs : List Nat) (c : Option Bool) : (s.addFlip g bs c).mp = s.mp := rfl
@[simp] theorem State.power_addFlip (s : State) (g : Nat) (bs : List Nat) (c : Option Bool) : (s.addFlip g bs c).power = s.power := rfl
@[simp] theorem State.regs_addFlip (s : State) (g : Nat) (bs : List Nat) (c : Option Bool) : (s.addFlip g bs c).regs = s.regs := rfl
@[simp] theorem State.variant_addFlip (s : State) (g : Nat) (bs : List Nat) (c : Option Bool) : (s.addFlip g bs c).variant = s.variant := rfl
@[simp] theorem State.fatal_addFlip (s : State) (g : Nat) (bs : List Nat) (c : Option Bool) : (s.addFlip g bs c).fatal = s.fatal := rfl
@[simp] theorem State.dump_addFlip (s : State) (g : Nat) (bs : List Nat) (c : Option Bool) : (s.addFlip g bs c).dump = s.dump := rfl
@[simp] theorem State.devErrSeq_addFlip (s : State) (g : Nat) (bs : List Nat) (c : Option Bool) : (s.addFlip g bs c).devErrSeq = s.devErrSeq := rfl
@[simp] theorem State.devRecords_addFlip (s : State) (g : Nat) (bs : List Nat) (c : Option Bool) : (s.addFlip g bs c).devRecords = s.devRecords := rfl
@[simp] theorem State.out_addFlip (s : State) (g : Nat) (bs : List Nat) (c : Option Bool) : (s.addFlip g bs c).out = s.out := rfl
@[simp] theorem State.now_addFlip (s : State) (g : Nat) (bs : List Nat) (c : Option Bool) : (s.addFlip g bs c).now = s.now := rfl
@[simp] theorem State.turn_addFlip (s : State) (g : Nat) (bs : List Nat) (c : Option Bool) : (s.addFlip g bs c).turn = s.turn := rfl
@[simp] theorem State.stepNo_addFlip (s : State) (g : Nat) (bs : List Nat) (c : Option Bool) : (s.addFlip g bs c).stepNo = s.stepNo := rfl
@[simp] theorem State.fresh_addFlip (s : State) (g : Nat) (bs : List Nat) (c : Option Bool) : (s.addFlip g bs c).fresh = s.fresh := rfl
@[simp] theorem State.seqT_addFlip (s : State) (g : Nat) (bs : List Nat) (c : Option Bool) : (s.addFlip g bs c).seqT = s.seqT := rfl
@[simp] theorem State.cur_addFlip (s : State) (g : Nat) (bs : List Nat) (c : Option Bool) : (s.addFlip g bs c).cur = s.cur := rfl
@[simp] theorem State.found_addFlip (s : State) (g : Nat) (bs : List Nat) (c : Option Bool) : (s.addFlip g bs c).found = s.found := rfl
@[simp] theorem State.dieErrors_addFlip (s : State) (g : Nat) (bs : List Nat) (c : Option Bool) : (s.addFlip g bs c).dieErrors = s.dieErrors := rfl
@[simp] theorem State.channelsOut_addFlip (s : State) (g : Nat) (bs : List Nat) (c : Option Bool) : (s.addFlip g bs c).channelsOut = s.channelsOut := rfl

@[simp] theorem State.mem_showAt (s : State) (g : Agent) (a n : Nat) : (s.showAt g a n).mem = s.mem := by
  unfold State.showAt; split <;> rfl
@[simp] theorem State.tags_showAt (s : State) (g : Agent) (a n : Nat) : (s.showAt g a n).tags = s.tags := by
  unfold State.showAt; split <;> rfl
@[simp] theorem State.poison_showAt (s : State) (g : Agent) (a n : Nat) : (s.showAt g a n).poison = s.poison := by
  unfold State.showAt; split <;> rfl
@[simp] theorem State.flips_showAt (s : State) (g : Agent) (a n : Nat) : (s.showAt g a n).flips = s.flips := by
  unfold State.showAt; split <;> rfl
@[simp] theorem State.vis_showAt (s : State) (g : Agent) (a n : Nat) : (s.showAt g a n).vis = s.vis := by
  unfold State.showAt; split <;> rfl
@[simp] theorem State.pubs_showAt (s : State) (g : Agent) (a n : Nat) : (s.showAt g a n).pubs = s.pubs := by
  unfold State.showAt; split <;> rfl
@[simp] theorem State.slots_showAt (s : State) (g : Agent) (a n : Nat) : (s.showAt g a n).slots = s.slots := by
  unfold State.showAt; split <;> rfl
@[simp] theorem State.parts_showAt (s : State) (g : Agent) (a n : Nat) : (s.showAt g a n).parts = s.parts := by
  unfold State.showAt; split <;> rfl
@[simp] theorem State.kernels_showAt (s : State) (g : Agent) (a n : Nat) : (s.showAt g a n).kernels = s.kernels := by
  unfold State.showAt; split <;> rfl
@[simp] theorem State.nextKernel_showAt (s : State) (g : Agent) (a n : Nat) : (s.showAt g a n).nextKernel = s.nextKernel := by
  unfold State.showAt; split <;> rfl
@[simp] theorem State.gangs_showAt (s : State) (g : Agent) (a n : Nat) : (s.showAt g a n).gangs = s.gangs := by
  unfold State.showAt; split <;> rfl
@[simp] theorem State.nextGang_showAt (s : State) (g : Agent) (a n : Nat) : (s.showAt g a n).nextGang = s.nextGang := by
  unfold State.showAt; split <;> rfl
@[simp] theorem State.cmds_showAt (s : State) (g : Agent) (a n : Nat) : (s.showAt g a n).cmds = s.cmds := by
  unfold State.showAt; split <;> rfl
@[simp] theorem State.nextCmd_showAt (s : State) (g : Agent) (a n : Nat) : (s.showAt g a n).nextCmd = s.nextCmd := by
  unfold State.showAt; split <;> rfl
@[simp] theorem State.fns_showAt (s : State) (g : Agent) (a n : Nat) : (s.showAt g a n).fns = s.fns := by
  unfold State.showAt; split <;> rfl
@[simp] theorem State.currencies_showAt (s : State) (g : Agent) (a n : Nat) : (s.showAt g a n).currencies = s.currencies := by
  unfold State.showAt; split <;> rfl
@[simp] theorem State.classes_showAt (s : State) (g : Agent) (a n : Nat) : (s.showAt g a n).classes = s.classes := by
  unfold State.showAt; split <;> rfl
@[simp] theorem State.classLocks_showAt (s : State) (g : Agent) (a n : Nat) : (s.showAt g a n).classLocks = s.classLocks := by
  unfold State.showAt; split <;> rfl
@[simp] theorem State.frames_showAt (s : State) (g : Agent) (a n : Nat) : (s.showAt g a n).frames = s.frames := by
  unfold State.showAt; split <;> rfl
@[simp] theorem State.ports_showAt (s : State) (g : Agent) (a n : Nat) : (s.showAt g a n).ports = s.ports := by
  unfold State.showAt; split <;> rfl
@[simp] theorem State.devNumber_showAt (s : State) (g : Agent) (a n : Nat) : (s.showAt g a n).devNumber = s.devNumber := by
  unfold State.showAt; split <;> rfl
@[simp] theorem State.routes_showAt (s : State) (g : Agent) (a n : Nat) : (s.showAt g a n).routes = s.routes := by
  unfold State.showAt; split <;> rfl
@[simp] theorem State.mp_showAt (s : State) (g : Agent) (a n : Nat) : (s.showAt g a n).mp = s.mp := by
  unfold State.showAt; split <;> rfl
@[simp] theorem State.power_showAt (s : State) (g : Agent) (a n : Nat) : (s.showAt g a n).power = s.power := by
  unfold State.showAt; split <;> rfl
@[simp] theorem State.regs_showAt (s : State) (g : Agent) (a n : Nat) : (s.showAt g a n).regs = s.regs := by
  unfold State.showAt; split <;> rfl
@[simp] theorem State.variant_showAt (s : State) (g : Agent) (a n : Nat) : (s.showAt g a n).variant = s.variant := by
  unfold State.showAt; split <;> rfl
@[simp] theorem State.fatal_showAt (s : State) (g : Agent) (a n : Nat) : (s.showAt g a n).fatal = s.fatal := by
  unfold State.showAt; split <;> rfl
@[simp] theorem State.dump_showAt (s : State) (g : Agent) (a n : Nat) : (s.showAt g a n).dump = s.dump := by
  unfold State.showAt; split <;> rfl
@[simp] theorem State.devErrSeq_showAt (s : State) (g : Agent) (a n : Nat) : (s.showAt g a n).devErrSeq = s.devErrSeq := by
  unfold State.showAt; split <;> rfl
@[simp] theorem State.devRecords_showAt (s : State) (g : Agent) (a n : Nat) : (s.showAt g a n).devRecords = s.devRecords := by
  unfold State.showAt; split <;> rfl
@[simp] theorem State.out_showAt (s : State) (g : Agent) (a n : Nat) : (s.showAt g a n).out = s.out := by
  unfold State.showAt; split <;> rfl
@[simp] theorem State.now_showAt (s : State) (g : Agent) (a n : Nat) : (s.showAt g a n).now = s.now := by
  unfold State.showAt; split <;> rfl
@[simp] theorem State.turn_showAt (s : State) (g : Agent) (a n : Nat) : (s.showAt g a n).turn = s.turn := by
  unfold State.showAt; split <;> rfl
@[simp] theorem State.stepNo_showAt (s : State) (g : Agent) (a n : Nat) : (s.showAt g a n).stepNo = s.stepNo := by
  unfold State.showAt; split <;> rfl
@[simp] theorem State.fresh_showAt (s : State) (g : Agent) (a n : Nat) : (s.showAt g a n).fresh = s.fresh := by
  unfold State.showAt; split <;> rfl
@[simp] theorem State.cur_showAt (s : State) (g : Agent) (a n : Nat) : (s.showAt g a n).cur = s.cur := by
  unfold State.showAt; split <;> rfl
@[simp] theorem State.found_showAt (s : State) (g : Agent) (a n : Nat) : (s.showAt g a n).found = s.found := by
  unfold State.showAt; split <;> rfl
@[simp] theorem State.dieErrors_showAt (s : State) (g : Agent) (a n : Nat) : (s.showAt g a n).dieErrors = s.dieErrors := by
  unfold State.showAt; split <;> rfl
@[simp] theorem State.channelsOut_showAt (s : State) (g : Agent) (a n : Nat) : (s.showAt g a n).channelsOut = s.channelsOut := by
  unfold State.showAt; split <;> rfl

/-! ## Scalar registers -/

@[simp] theorem Slot.readS_zero (v : Slot) : v.readS 0 = 0 := rfl

theorem Slot.sIndex_inj (v : Slot) (m n : Nat) (hm : m < 64) (hn : n < 64) (h : v.sIndex m = v.sIndex n) : m = n := by
  unfold Slot.sIndex at h
  split at h <;> split at h <;> (try split at h) <;> (try split at h) <;> (try split at h) <;> omega

@[simp] theorem Slot.pc_writeS (v : Slot) (n : Nat) (x : Word) : (v.writeS n x).pc = v.pc := by
  unfold Slot.writeS; split <;> rfl

@[simp] theorem Slot.level_writeS (v : Slot) (n : Nat) (x : Word) : (v.writeS n x).level = v.level := by
  unfold Slot.writeS; split <;> rfl

@[simp] theorem Slot.csr_writeS (v : Slot) (n : Nat) (x : Word) : (v.writeS n x).csr = v.csr := by
  unfold Slot.writeS; split <;> rfl

@[simp] theorem Slot.task_writeS (v : Slot) (n : Nat) (x : Word) : (v.writeS n x).task = v.task := by
  unfold Slot.writeS; split <;> rfl

/-- A scalar register reads what was written last, and s0 reads zero (R39). -/
theorem Slot.readS_writeS (v : Slot) (n m : Nat) (x : Word) (hn : n < 64) (hm : m < 64) :
    (v.writeS n x).readS m = if m = n ∧ n ≠ 0 then x else v.readS m := by
  by_cases h0 : n = 0
  · simp [Slot.writeS, h0]
  · by_cases hm0 : m = 0
    · subst hm0; simp [Slot.readS]; intro h; omega
    · have key : ∀ k, (v.writeS n x).sIndex k = v.sIndex k := by
        intro k; simp [Slot.sIndex]
      simp only [Slot.readS, hm0, if_false, key]
      simp only [Slot.writeS, h0, if_false, mget_mset]
      by_cases h : m = n
      · subst h; simp [h0]
      · have : v.sIndex n ≠ v.sIndex m := fun e => h (Slot.sIndex_inj v m n hm hn e.symm)
        simp [h, this]

@[simp] theorem State.len_writeS (s : State) (a : SlotId) (n : Nat) (x : Word) : (s.writeS a n x).len = s.len := rfl

/-- The slot after a result word: the register written and the PC past the word. -/
theorem State.slot_result (s : State) (d : Nat) (x : Word) (b : SlotId) :
    (s.result d x).slot b = if s.cur.slot = b then
      { (s.slot s.cur.slot).writeS d x with pc := (s.slot s.cur.slot).pc + BitVec.ofNat 64 s.len } else s.slot b := by
  by_cases h : s.cur.slot = b
  · subst h; simp [State.result, State.advance, State.pc]
  · simp [State.result, State.advance, h]

/-- The slot after a word that only goes on. -/
theorem State.slot_advance (s : State) (b : SlotId) :
    s.advance.slot b = if s.cur.slot = b then
      { s.slot s.cur.slot with pc := (s.slot s.cur.slot).pc + BitVec.ofNat 64 s.len } else s.slot b := by
  simp [State.advance, State.pc]

end Sys2Proof.Machine
end

