-- ==== Sys2Proof/Laws/Words.lean ====
section
/-!
SUPPORT. What a word of the control core that ends by writing a register, or by moving the PC, has done: everything that
the shared endings State.result, State.advance and State.setPc can do.
-/

namespace Sys2Proof

open Machine

theorem MemorySame.rfl' {s t : State} (h : t.mem = s.mem) (h2 : t.tags = s.tags) (h3 : t.poison = s.poison) :
    MemorySame s t := ⟨fun _ _ => by rw [h], h2, h3⟩

theorem onlyScalar_result (s : State) (d : Fin 64) (v : Word) : OnlyScalar s (s.result d v) d := by
  refine ⟨?_, ?_, ?_, rfl, MemorySame.rfl' rfl rfl rfl⟩
  · intro m hm hne
    simp only [State.sreg, State.here, State.cur_result, State.slot_result, if_true]
    have := (s.slot s.cur.slot).readS_writeS d m v d.isLt hm
    simp only [hne, false_and, if_false] at this
    exact this
  · simp only [State.here, State.cur_result, State.slot_result, if_true, Slot.butScalars, Slot.writeS]
    split <;> rfl
  · intro x hx
    simp [State.slot_result, hx.symm]

theorem sreg_result (s : State) (d : Fin 64) (v : Word) : (s.result d v).sreg d = written d.val v := by
  unfold written
  simp only [State.sreg, State.here, State.cur_result, State.slot_result, if_true]
  have := (s.slot s.cur.slot).readS_writeS d d v d.isLt d.isLt
  split
  · next h => simp [h, Slot.readS]
  · next h => exact this.trans (if_pos ⟨rfl, h⟩)

theorem pc_result (s : State) (d : Nat) (v : Word) : (s.result d v).pc = s.nextPc := by
  simp [State.pc, State.nextPc, State.slot_result]

/-- A word that answers State.result writes its register and changes nothing else. -/
theorem writesScalar_of_result {i : Instr} {s : State} {d : Fin 64} {v w : Word} (h : exec i s = .next (s.result d w))
    (e : w = v) : WritesScalar i s d v :=
  ⟨_, h, by rw [sreg_result, e], pc_result s d w, e ▸ onlyScalar_result s d w⟩

theorem onlyPc_setPc (s : State) (a : Word) : OnlyPc s (s.setPc a) := by
  refine ⟨?_, ?_, rfl, MemorySame.rfl' rfl rfl rfl⟩
  · simp [State.here, Slot.butPc]
  · intro x hx
    simp [hx.symm]

theorem pc_setPc (s : State) (a : Word) : (s.setPc a).pc = a := by simp [State.pc]

theorem pc_advance (s : State) : s.advance.pc = s.nextPc := by simp [State.advance, pc_setPc, State.nextPc]

/-- A word that answers State.setPc goes there and changes nothing else. -/
theorem jumpsTo_of_setPc {i : Instr} {s : State} {a b : Word} (h : exec i s = .next (s.setPc a)) (e : a = b) :
    JumpsTo i s b := ⟨_, h, by rw [pc_setPc, e], onlyPc_setPc s a⟩

/-- A word that writes a register after its CSRs have changed. -/
theorem onlyScalarCsr_result (s : State) (d : Fin 64) (v : Word) (c : Csrs) :
    c.inh = s.here.csr.inh →
    OnlyScalarCsr s ((s.modCsr s.cur.slot (fun _ => c)).result d v) d := by
  intro hc
  have o := onlyScalar_result (s.modCsr s.cur.slot (fun _ => c)) d v
  refine ⟨?_, ?_, ?_, ?_, MemorySame.rfl' rfl rfl rfl⟩
  · intro m hm hne
    rw [o.scalars m hm hne]
    simp only [State.sreg, State.here, State.cur_modCsr, State.slot_modCsr, if_true, Slot.readS, Slot.sIndex] at *
    rw [hc]
    rfl
  · have := o.rest
    simp only [State.here, Slot.butScalars, Slot.butCsr] at *
    rw [Slot.mk.injEq] at *
    simp at this ⊢
    simp [State.slot_result, Slot.writeS]
    split <;> simp
  · intro x hx; rw [o.others x hx]; simp [hx.symm]
  · exact o.device

/-- What State.fpFinish can do: the result with its flags, or the FPE trap (R90). -/
theorem fpFinish_result {i : Instr} {s : State} {d : Fin 64} {rm : Nat} {x : Nat × Nat} (f : State)
    (h : exec i s = fpFinish f d x) (hf : f = s ∧ rm ≠ 4 ∨ f = s.modCsr s.cur.slot (fun _ => s.coreCsr rm 0)) : FloatResult i s d rm x := by
  have e : f.raise s.cur.slot x.2 = s.modCsr s.cur.slot (fun _ => s.coreCsr rm x.2) := by
    rcases hf with ⟨rfl, hf⟩ | rfl
    · simp [State.raise, State.modCsr, State.coreCsr, State.here, hf, State.modSlot]
    · simp [State.raise, State.modCsr, State.modSlot_modSlot, State.coreCsr, State.here]
  have hcur : f.cur = s.cur := by rcases hf with ⟨rfl, hf⟩ | rfl <;> rfl
  unfold FloatResult
  unfold fpFinish at h
  simp only [hcur, e] at h
  simp at h
  show if _ then _ else _
  split
  · next hc => rw [if_pos hc] at h; exact h
  · next hc =>
    rw [if_neg hc] at h
    refine ⟨_, h, ?_, ?_, ?_, ?_⟩
    · rw [sreg_result]
    · rw [pc_result]; simp [State.nextPc, State.pc]; rfl
    · exact onlyScalarCsr_result s d _ _ rfl
    · simp [State.here, State.slot_result]

/-- The draw of a control-core word (R25, R26). -/
theorem draws_core (s : State) (rm : Nat) : (s.draws s.cur.slot 0 rm 1).1.headD 0 = s.coreDraw rm ∧
    ((s.draws s.cur.slot 0 rm 1).2 = s ∧ rm ≠ 4 ∨ (s.draws s.cur.slot 0 rm 1).2 = s.modCsr s.cur.slot (fun _ => s.coreCsr rm 0)) := by
  unfold State.draws State.coreDraw State.coreCsr
  by_cases h : rm = 4
  · subst h; simp [drawsFrom, State.here, State.modCsr, State.modSlot]
  · simp [h]

/-- What fpWord can do. -/
theorem fpWord_result {i : Instr} {s : State} {d : Fin 64} {rm : Nat} {x : Ex} (h : exec i s = fpWord s d rm x) :
   FloatResult i s d rm (x.round FP32 rm true (s.coreDraw rm)) := by
  have := draws_core s rm
  exact fpFinish_result (i := i) _ (by rw [h]; unfold fpWord; simp only [this.1]) this.2

end Sys2Proof
end

