-- ==== Sys2Proof/Tests/Slice0.lean ====
section
/-!
SUPPORT. The model's own tests: ill-formed instructions, words that the spec writes out or that follow from its encoding
tables, the spec's worked examples, and for each statement states and operands that meet its hypotheses.
-/

namespace Sys2Proof.Tests

open Machine

-- One theorem after the other: the kernel evaluates most of them, and each waiting one would hold a thread.
set_option Elab.async false

/-! ## Well-formedness: one ill-formed term for each check (R66, test 4) -/

theorem test_illformed_extension_width : wellFormed (.sext 1 2 3) = false ∧ wellFormed (.zext 1 2 3) = false := by decide
theorem test_illformed_shift_amount :
    wellFormed (.slli 1 2 64 none) = false ∧ wellFormed (.srai 1 2 0 (some 1)) = false := by decide
theorem test_illformed_rounding_mode : wellFormed (.fadd 1 2 3 5) = false ∧ wellFormed (.mdrain 0 1 5 0) = false := by decide
theorem test_illformed_compare_condition : wellFormed (.fcmp 1 2 3 5) = false := by decide
theorem test_illformed_conversion :
    wellFormed (.fcvt 1 2 12 0 0) = false ∧ wellFormed (.fcvt 1 2 0 1 0) = false ∧ wellFormed (.fcvt 1 2 10 0 1) = false := by
  decide
theorem test_illformed_memory_type : wellFormed (.ld 1 0 2 8) = false ∧ wellFormed (.st 1 0 2 15) = false := by decide
theorem test_illformed_atomic_scope :
    wellFormed (.aadd 1 0 2 6) = false ∧ wellFormed (.aadd 1 0 2 8) = false ∧ wellFormed (.acas 2 0 2 10) = false := by decide
theorem test_illformed_register_pair :
    wellFormed (.acas 3 0 2 1) = false ∧ wellFormed (.qtryPop 3 0 2) = false ∧ wellFormed (.qtryPush 5 0 2) = false := by decide
theorem test_illformed_csr_number : wellFormed (.csrr 1 4 none) = false ∧ wellFormed (.csrw 1 0 (some 1)) = false := by decide
theorem test_illformed_predicate_number :
    wellFormed (.prd 1 96 none) = false ∧ wellFormed (.vpand 96 0 0 0) = false ∧ wellFormed (.vpsel 127) = false := by decide
theorem test_illformed_vread_extension : wellFormed (.vread 1 2 3 2) = false := by decide
theorem test_illformed_prefix_bits :
    wellFormed (.uien 1 (some 1)) = false ∧ wellFormed (.rfree 1 (some 1)) = false ∧ wellFormed (.vbrk 1 0 (some 1)) = false := by
  decide
theorem test_illformed_counter : wellFormed (.waitc 1 6 0 0 none) = false := by decide
theorem test_illformed_fence : wellFormed (.fence 0 1 none) = false ∧ wellFormed (.fence 1 6 none) = false := by decide
theorem test_illformed_engine_code :
    wellFormed (.kset 0 0 1 0 none) = false ∧ wellFormed (.xset 6 0 1 2 0 0) = false ∧ wellFormed (.renq 1 2 3 7) = false := by
  decide
theorem test_illformed_loop_list :
    wellFormed (.loopb 0 0 0 0 0 0 0 0 none) = false ∧ wellFormed (.loopb 1 0 0 0 0 0 1 0 none) = false
    ∧ wellFormed (.loopb 1 0 0 0 0 0 0 1 none) = false ∧ wellFormed (.loopb 6 0 0 0 0 0 0 0 none) = false
    ∧ wellFormed (.loopb 1 0 0 0 2 0 0 0 none) = false := by decide
theorem test_illformed_queue_capacity : wellFormed (.qinit 0 1 11) = false := by decide
theorem test_illformed_ticket_kind :
    wellFormed (.tkget 1 0 5) = false ∧ wellFormed (.tkget 1 1 0) = false ∧ wellFormed (.tkget 1 5 2) = false := by decide
theorem test_illformed_region_class : wellFormed (.ralloc 1 3 none) = false := by decide
theorem test_illformed_last_use_of_stream : wellFormed (.vadd 1 48 2 0 1) = false ∧ wellFormed (.vst 1 63 0 0 1) = false := by
  decide
theorem test_illformed_fused_stream_destination : wellFormed (.vfma 48 1 2 0 0) = false := by decide
theorem test_illformed_skip_count : wellFormed (.vskipz 0 none) = false ∧ wellFormed (.vskipz 33 none) = false := by decide
theorem test_illformed_moment : wellFormed (.dmom 1 2 3 0) = false := by decide
theorem test_illformed_event_operands :
    wellFormed (.pcreate 16) = false ∧ wellFormed (.kill 32 0) = false ∧ wellFormed (.create 1 8) = false
    ∧ wellFormed (.launchDoorbell 1 0 8 0) = false ∧ wellFormed (.flitReceive 24 ⟨[]⟩) = false ∧ wellFormed (.clusterRepair 64) = false
    ∧ wellFormed (.kilnDraw ⟨0, 240⟩ .v) = false ∧ wellFormed (.taskSave ⟨0, 0, 8⟩) = false ∧ wellFormed (.taskSave ⟨0, 239, 7⟩) = true := by decide

/-! ## Decoding: words that the spec writes out -/

/-- spec/03, the example of R84: MOVI and MOVS build a constant 16 bits at a time. -/
theorem test_decode_movs : decodeWords [0x0A8589AB] = .ok (.movs 5 0x89AB, 1) := rfl
/-- spec/03, the example of R92. -/
theorem test_decode_counting_loop :
    decodeWords [0x08061803] = .ok (.addi 6 6 3 none, 1) ∧ decodeWords [0x0A45000A] = .ok (.movi 5 10 none, 1) := ⟨rfl, rfl⟩
/-- spec/04, the example of R116. -/
theorem test_decode_gang_barrier :
    decodeWords [0xC4C90000] = .ok (.bara 9 0, 1) ∧ decodeWords [0xC50A2400] = .ok (.barw 10 9 0 0 none, 1) := ⟨rfl, rfl⟩
/-- spec/04, the example of R126. -/
theorem test_decode_loop_bundle :
    decodeWords [0xC8080002] = .ok (.kset 1 0 0 2 none, 1) ∧ decodeWords [0xC8490094] = .ok (.xset 1 1 0 9 1 0, 1)
    ∧ decodeWords [0xC8480085] = .ok (.xset 1 0 0 8 1 1, 1)
    ∧ decodeWords [0xC8890000] = .ok (.loopb 1 1 0 0 0 0 0 0 none, 1) ∧ decodeWords [0xC8C00000] = .ok (.loope, 1) := ⟨rfl, rfl, rfl, rfl, rfl⟩
/-- spec/05, the example of R149. -/
theorem test_decode_stochastic_conversion : decodeWords [0x2C450604] = .ok (.vcvtBf16F32 5 1 4 0 2 0, 1) := rfl
/-- spec/05, the example of R155. -/
theorem test_decode_masked_absolute_value :
    decodeWords [0x31438210] = .ok (.vcmpLtI32 7 1 2 0, 1) ∧ decodeWords [0x35400700] = .ok (.vmpush 7 0, 1)
    ∧ decodeWords [0x36000001] = .ok (.vskipz 1 none, 1) ∧ decodeWords [0x24410810] = .ok (.visub 1 2 1 0 0, 1)
    ∧ decodeWords [0x35800000] = .ok (.vminv, 1) ∧ decodeWords [0x24010410] = .ok (.viadd 1 1 1 0 0, 1)
    ∧ decodeWords [0x35C00000] = .ok (.vmpop, 1) := ⟨rfl, rfl, rfl, rfl, rfl, rfl, rfl⟩
/-- spec/06, the example of R170. -/
theorem test_decode_matrix_word : decodeWords [0x40520908] = .ok (.mma 1 8 9 0 1 0 0 0, 1) := rfl
/-- spec/02, R64 and the examples of R66. -/
theorem test_decode_events :
    decodeWords [0x3F800001] = .ok (.esetV 1, 1) ∧ decodeWords [0x5F800001] = .ok (.esetM 1, 1)
    ∧ decodeWords [0xBF800000] = .ok (.esetB 0, 1) := ⟨rfl, rfl, rfl⟩
/-- spec/02, R53: a prefix gives the upper bits of the field of the word after it; not every word takes one. -/
theorem test_decode_prefix :
    decodeWords [0xE0000002, 0x08051BFD] = .ok (.addi 5 6 0x3FD (some 2), 2)
    ∧ decodeWords [0xE0000002, 0x00451C00] = .error .prefixForbidden := ⟨rfl, rfl⟩
/-- R66, test 4: a reserved field that is not zero. -/
theorem test_decode_reserved_field : decodeWords [0x00451C01] = .error .reserved ∧ decodeWords [0x00451C00] = .ok (.add 5 7 0, 1) := ⟨rfl, rfl⟩
/-- R7: the words of an instruction lie in memory in little-endian order. -/
theorem test_decode_bytes : decode [0x23, 0x01, 0x45, 0x0A] = .ok (.movi 5 0x123 none, 1) ∧ decode [0x23, 0x01] = .error .truncated := ⟨rfl, rfl⟩
/-- The host's numbering of a row's bits: the first word lowest. -/
theorem test_decode_table_word :
    decodeTableWord 32 0x0A450123 = some (.movi 5 0x123 none) ∧ decodeTableWord 64 0x0A472345E0000001 = some (.movi 7 0x2345 (some 1)) := ⟨rfl, rfl⟩
/-- Encoding gives the spec's words back. -/
theorem test_encode :
    encode (.movi 7 0x2345 (some 1)) = [0xE0000001, 0x0A472345] ∧ encode (.vcmpLtF32 7 0x02 0x13 1) = [0x30838499]
    ∧ encode (.fence 1 5 none) = [0xC6000015] := ⟨rfl, rfl, rfl⟩

/-! ## States for the witnesses

A task runs in slot 0 of logical tile 0 of partition 0, with every region of its tile and a page of HBM. -/

/-- The slot of the tests. -/
def sl : SlotId := ⟨0, 0, 0⟩
/-- The state of the tests. -/
def base : State := State.reset.withTask
/-- That state with its slot changed. -/
def at_ (f : Slot → Slot) : State := base.modSlot sl f
/-- The class of the kernel. -/
def withClass (c : Nat) (s : State) : State := s.modKernel 0 (fun k => { k with cls := c })
/-- A handler is loaded. -/
def withHandler (s : State) : State := s.modPart 0 (fun p => { p with hasHandler := true })
/-- Scalar registers set. -/
def regS (xs : List (Nat × Word)) (v : Slot) : Slot := { v with regs := { v.regs with s := xs ++ v.regs.s } }
/-- Handles set. -/
def regH (xs : List (Nat × Handle)) (v : Slot) : Slot := { v with regs := { v.regs with h := xs ++ v.regs.h } }
/-- Kernel level. -/
def kernelLevel (v : Slot) : Slot := { v with level := true }
/-- A handle of the task's page, with rights and bank. -/
def pageH (r w bk : Bool) : Handle :=
  { (default : Handle) with
    va := 0x10000
    frame := 0x10000
    r := r
    w := w
    bank := bk
    valid := true }
/-- A state with handle 1 and offset in s2. -/
def handleState (h : Handle) (off : Word) : State := at_ (regH [(1, h)] ∘ regS [(2, off)])
/-- The queue of an engine. -/
def withQ (e : Engine) (es : List Entry) (v : Slot) : Slot := v.modSeq e (fun q => { q with q := es })
/-- A queued word. -/
def queued (w : Nat) : Entry := { (default : Entry) with word := w, stamp := 1 }
/-- An entry being executed by an engine, with its captured values. -/
def running (e : Engine) (c1 c2 : Word) (s : State) : State :=
  { s with cur := { s.cur with slot := sl, engine := some e, entry := { (default : Entry) with cap1 := c1, cap2 := c2 } } }

theorem Clean.intro {s : State} {a n : Nat} (h : s.flips = []) (p : s.poisonedIn a n = false) : s.Clean a n :=
  ⟨by simp [h], p⟩

/-! ## Witnesses: the control core -/

theorem witness_UnaryAndImmediateWordsWriteResult : (2 : Fin 16).val < 3 ∧ extU none 1024 63 < 64 ∧ ¬extU none 1024 64 < 64 := by
  decide
theorem witness_Fp32WordsRoundOnceAndFlag :
    (base.coreCsr 0 fNV).fpe fNV = false ∧ ((at_ (fun v => { v with csr := { v.csr with fpcsr := 0x100 } })).coreCsr 0 fNV).fpe fNV = true := by
  decide +kernel
theorem witness_BranchesAndJumps :
    (regS [(1, 8)] {}).readS 1 + BitVec.ofInt 64 (extS none 10 0x3FC) = 4#64
    ∧ ((regS [(1, 9)] {}).readS 1 + BitVec.ofInt 64 (extS none 10 0x3FC)).toNat % 4 ≠ 0
    ∧ (at_ (regS [(1, 9)])).sreg 1 ≠ (at_ (regS [(1, 9)])).sreg 2 := by decide +kernel
theorem witness_HandleAccessChecksInOrder :
    ((handleState {} 0).here.readH 1).valid = false
    ∧ (let s := handleState (pageH true true false) 1; (s.here.readH 1).valid = true ∧ (s.sreg 2).toNat % typeSize 6 ≠ 0)
    ∧ (let s := handleState (pageH true true false) 0x10000
       (s.sreg 2).toNat % typeSize 6 = 0 ∧ pageBytes (s.here.readH 1).size < (s.sreg 2).toNat + typeSize 6)
    ∧ (let s := handleState (pageH false false false) 0xFFF8
       (s.here.readH 1).valid = true ∧ (s.sreg 2).toNat % typeSize 6 = 0 ∧ (s.sreg 2).toNat + typeSize 6 ≤ pageBytes (s.here.readH 1).size
       ∧ (s.here.readH 1).r = false ∧ (s.here.readH 1).w = false ∧ (s.here.readH 1).bank = false)
    ∧ (let s := handleState { pageH true true false with va := 0x1FFFFFFBFFF0000 } 0xFFF8
       inHandlerArea ((s.here.readH 1).va + (s.sreg 2).toNat) = true ∧ s.here.level = false)
    ∧ (let s := handleState (pageH false false true) 0
       inHandlerArea ((s.here.readH 1).va) = false ∧ (s.here.readH 1).sh = 0 ∧ s.physOk (s.here.readH 1).frame = true
       ∧ isPeer (s.here.readH 1).frame = false)
    ∧ (handleState { pageH true true false with frame := 0x3800000 } 0).physOk 0x3800000 = false
    ∧ isPeer 0x8000000000000 = true := by decide +kernel
theorem witness_LoadsAndStores :
    (let s := handleState (pageH true true false) 0xFFF8
     s.access 1 0xFFF8 8 0 = .ok 0x1FFF8 0x1FFF8 ∧ s.access 1 0xFFF8 8 1 = .ok 0x1FFF8 0x1FFF8 ∧ s.Clean 0x1FFF8 8)
    ∧ (let s := at_ (regS [(1, 0x3FFFF8)])
       s.spanHeld sl 0x3FFFF8 8 = true ∧ s.resident sl 0x3FFFF8 8 = true ∧ s.here.wait = none
       ∧ s.Clean (s.window sl.tileId + 0x3FFFF8) 8 ∧ s.here.csr.armed 1 2 = false) :=
  ⟨⟨by decide +kernel, by decide +kernel, Clean.intro rfl (by decide +kernel)⟩, by decide +kernel, by decide +kernel, rfl,
    Clean.intro rfl (by decide +kernel), by decide +kernel⟩
/-- The task's region 1 spilled. -/
def spilledRegion : State := base.modTile sl.tileId (fun t => { t with regions := mmod t.regions 1 {} (fun r =>
  { r with
    owner := none
    spilled := [⟨0, [], [], 0, false, none⟩] }) })
theorem witness_LoadsAndStores_elsewhere :
    (4 : Nat) % typeSize 6 ≠ 0 ∧ base.spanHeld sl 0x400000 8 = false
    ∧ spilledRegion.spanHeld sl 0x40000 8 = true ∧ spilledRegion.resident sl 0x40000 8 = false := by decide +kernel
theorem witness_FullEmptyWordsAndAtomics :
    (let s := handleState (pageH true true false) 0xFFF8
     s.access 1 0xFFF8 8 0 = .ok 0x1FFF8 0x1FFF8 ∧ (s.flagged 16).access 1 0xFFF8 8 1 = .ok 0x1FFF8 0x1FFF8
     ∧ (s.flagged 8).access 1 0xFFF8 8 2 = .ok 0x1FFF8 0x1FFF8 ∧ (s.here.readH 1).bank = false ∧ s.full 0x1FFF8 = false
     ∧ (s.setFull 0x1FFF8 true).full 0x1FFF8 = true ∧ s.here.wait = none)
    ∧ (let s := handleState (pageH false false true) 0
       (s.here.readH 1).bank = true ∧ s.access 1 0 8 0 = .ok 0x10000 0x10000 ∧ (s.flagged 16).access 1 0 8 1 = .ok 0x10000 0x10000
       ∧ (s.flagged 8).access 1 0 8 2 = .ok 0x10000 0x10000) := by decide +kernel
theorem witness_FullEmptyWordsAndAtomics_clean :
    ((handleState (pageH true true false) 0xFFF8).flagged 8).Clean 0x1FFF8 8 := Clean.intro (by decide +kernel) (by decide +kernel)
theorem witness_CsrWordsAndInterlockedReads :
    (extU none 1024 0x050 = 0x050 ∧ base.here.level = false)
    ∧ (at_ (withQ .v [queued 0x20030420])).enginesIdle sl = false ∧ base.enginesIdle sl = true
    ∧ (at_ kernelLevel).here.level = true ∧ (base.part? 0).isSome
    ∧ (at_ (withQ .v [queued 0x30838499])).here.queued [.v] (fun y => writesPredicate y.word 7) = true
    ∧ base.here.queued [.v] (fun y => writesPredicate y.word 7) = false
    ∧ (at_ (withQ .v [queued 0x30838499])).here.queued [.v, .d] (fun _ => true) = true ∧ base.here.csr.armed 2 2 = false := by
  decide +kernel
theorem witness_TrapEntryAndItsFates : (withHandler (withClass 1 base)).handled 0x07 ∧ ¬base.handled 0x01
    ∧ base.kclass sl = 0 ∧ base.mayReplay sl = true :=
  ⟨⟨by decide +kernel, by decide +kernel, by decide, fun _ => by decide +kernel⟩, fun h => absurd h.2.1 (by decide +kernel),
    by decide +kernel, by decide +kernel⟩
theorem witness_SoftwareTrapsAndReturn : (withHandler base).handled 0x11
    ∧ (at_ kernelLevel).here.level ≠ false ∧ (at_ kernelLevel).here.csr.trappc.toNat % 4 = 0
    ∧ (at_ (fun v => kernelLevel { v with csr := { v.csr with trappc := 2 } })).here.csr.trappc.toNat % 4 ≠ 0 :=
  ⟨⟨by decide +kernel, by decide +kernel, by decide, fun h => absurd h (by decide)⟩, by decide +kernel, by decide +kernel,
    by decide +kernel⟩
/-- The gang of the task, changed. -/
def withGang (f : Gang → Gang) (s : State) : State := { s with gangs := s.gangs.map (fun g => (g.1, f g.2)) }
theorem witness_EventsWaitsAndBarriers :
    base.here.csr.inh = false
    ∧ (let s := at_ (fun v => { v with csr := { v.csr with inh := true } }); s.here.csr.inh = true ∧ (mget s.here.regs.s 127 0).toNat % 4 = 0)
    ∧ (let s := at_ (fun v => { regS [(127, 2)] v with csr := { v.csr with inh := true } })
       s.here.csr.inh = true ∧ (mget s.here.regs.s 127 0).toNat % 4 ≠ 0)
    ∧ (at_ (fun v => { v with csr := { v.csr with evlatch := true } })).here.csr.evlatch = true
    ∧ (at_ (fun v => { v with resumed := true })).here.resumed = true ∧ base.here.csr.evlatch = false ∧ base.here.resumed = false
    ∧ base.counter sl 0 ≤ extU none 64 0 ∧ extU none 64 0 < (at_ (withQ .v [queued 0x20030420])).counter sl 0
    ∧ mget (at_ (fun v => { v with ready := [(0, 2)] })).here.ready 0 0 ≠ 0 ∧ mget base.here.ready 0 0 = 0
    ∧ (1 : Nat) % 16 ≠ 0 ∧ base.spanHeld sl 0x400000 16 = false
    ∧ base.spanHeld sl 0x3FFFF0 16 = true ∧ base.resident sl 0x3FFFF0 16 = true ∧ base.here.csr.armed 1 2 = false
    ∧ base.readNum (.core sl) (base.window sl.tileId) 16 % 2 = 0
    ∧ (∃ k g, base.here.task = some k ∧ mfind base.gangs k.gang = some g ∧ mget g.arrived (0, k.member) 0 ≤ mget g.completed 0 0
        ∧ ¬mget g.completed 0 0 < mget g.arrived (0, k.member) 0)
    ∧ (let s := withGang (fun g => { g with arrived := [((3, 0), 1)], completed := [(0, 1)] }) base
       ∃ k g, s.here.task = some k ∧ mfind s.gangs k.gang = some g ∧ mget g.completed 3 0 < mget g.arrived (3, k.member) 0
        ∧ 0 < mget g.completed 0 0 ∧ mget g.completed 1 0 ≤ 0) := by
  refine ⟨rfl, ?_, ?_, rfl, rfl, rfl, rfl, ?_, ?_, ?_, ?_, ?_, ?_, ?_, ?_, rfl, ?_, ⟨_, _, rfl, rfl, ?_, ?_⟩,
    ⟨_, _, rfl, rfl, ?_, ?_, ?_⟩⟩ <;> decide +kernel
/-- A command in flight. -/
def command (e : Engine) : Cmd := { (default : Cmd) with slot := sl, engine := e, stamp := 1, executed := false }
/-- A page of the kernel. -/
def withPage (f : Page → Page) (s : State) : State := s.modKernel 0 (fun k => { k with pages := k.pages.map f })
theorem witness_FencesRecordsAndHandles :
    base.bankBusy sl none = false ∧ { base with cmds := [command .b] }.bankBusy sl none = true
    ∧ ((handleState {} 0).here.readH 1).valid = false
    ∧ (let s := handleState (pageH true true true) 0; (s.here.readH 1).valid = true ∧ s.bankBusy sl (some (s.here.readH 1)) = false)
    ∧ (at_ (withQ .x [queued 0x600920A0])).here.queued [.x, .m] (fun x => namesRecord x.word) = true
    ∧ base.here.queued [.x, .m] (fun x => namesRecord x.word) = false ∧ (base.part? 0).isSome
    ∧ inHandlerArea 0x10000 = false ∧ base.pageOf sl 0x1FFFF = some placePage ∧ base.kernelOf sl = some placeKernel
    ∧ base.pageOf sl 0x20000 = none ∧ inHandlerArea 0x1FFFFFFB0000000 = true ∧ base.here.level = false
    ∧ wellFormed (.fence 1 7 none) = true ∧ wellFormed (.fence 3 0 none) = true
    ∧ wellFormed (.fence 2 1 none) = true := by decide +kernel
theorem witness_FencesRecordsAndHandles_handlerArea :
    (let s := withHandler (at_ (kernelLevel ∘ regS [(1, 0x1FFFFFFB07FFFFF), (2, 0x1FFFFFFB1000000), (3, 0x1FFFFFFB1010000)]))
     [1, 2, 3].map (fun n => let va := (s.sreg n).toNat
       (inHandlerArea va, decide (va - 0x1FFFFFFB0000000 < 0x800000), decide (0x800000 ≤ va - 0x1FFFFFFB0000000),
         decide ((va - 0x1FFFFFFB0000000) / 0x10000 = 0x100 + identity sl)))
      = [(true, true, false, false), (true, false, true, true), (true, false, true, false)]
     ∧ s.here.level = true ∧ s.hasHandler sl.part = true ∧ base.hasHandler sl.part = false) := by decide +kernel
/-- A command at the bank of the page's first slab. -/
def atBank : State :=
  { handleState (pageH true true true) 0 with cmds := [{ command .b with bank := some (slabBank 0x10000) }] }
theorem witness_FencesRecordsAndHandles_busy : atBank.bankBusy sl (some (pageH true true true)) = true := by
  have e : (atBank.inflight sl) = [{ command .b with bank := some (slabBank 0x10000) }] := by
    simp [atBank, State.inflight, command]
  simp [State.bankBusy, e, pageH, command, Cmd.drained]
  exact Or.inr ⟨0, by decide, rfl⟩
theorem witness_MarkersAndLoopBundles :
    Engine.ofCode 1 = some .v ∧ base.mayPush sl .v = true
    ∧ (at_ (withQ .v (List.replicate 32 (queued 0x20030420)))).mayPush sl .v = false
    ∧ participants [(1, 0), (0, 0), (0, 0), (0, 0)] = [(.v, 0)]
    ∧ (at_ (fun v => { v with bundles := [⟨1, [(.m, 0)]⟩] })).here.bundles = [⟨1, [(.m, 0)]⟩]
    ∧ (Engine.v ∉ [Engine.m]) ∧ base.here.bundles = [] ∧ mget base.here.used Engine.v 0 < 32
    ∧ ¬mget (at_ (fun v => { v with used := [(.m, 32)] })).here.used Engine.m 0 < 32 := by decide +kernel
/-- Bytes put into memory. -/
def put (ws : List (Nat × List Byte)) (s : State) : State :=
  { s with mem := ws.foldl (fun m w => Memory.writeAll m w.1 w.2) s.mem }
/-- A context with a page table: pages 0x10000 and 0x20000 at the frames of those numbers; launch queue 0 at 0x20000 takes
records from the device into a ring of four at 0x10400, with its entries at 0x10800. -/
def mapped : State :=
  let owned : Frame := { (default : Frame) with state := 1, fn := 1, ctx := 0, tag := 1 }
  let s := put [(0x100000, toBytes 8 0x110003), (0x110000, toBytes 8 0x111003), (0x111000, toBytes 8 0x112003),
    (0x112000, toBytes 8 0x112103), (0x112108, toBytes 8 0x1000D), (0x112110, toBytes 8 0x2000D),
    (0x20010, [2, 3]), (0x20018, toBytes 8 0x10400), (0x20020, toBytes 8 0x10800)] base
  { s with frames := [(0x10, owned), (0x11, owned), (1, owned), (2, owned)] }.modCtx 1 0 (fun c =>
    { c with
      ptroot := 0x100000
      lqBase := 0x20000
      errBase := 0x20000
      saveBase := 0x20000
      pinned := [(2, 0x20000)] })
/-- A record of FP32 elements in class P, in the slot's record cache. -/
def recordBytes (at_ e0 e1 attr : Nat) : List Byte :=
  toBytes 8 at_ ++ toBytes 8 0 ++ toBytes 2 e0 ++ toBytes 2 e1 ++ toBytes 2 1 ++ toBytes 2 1 ++ toBytes 2 1 ++ toBytes 2 0
    ++ toBytes 4 (4 * e0) ++ toBytes 4 0 ++ toBytes 4 0 ++ [1, 4, BitVec.ofNat 8 attr, 0] ++ toBytes 20 0
/-- That record cached. -/
def withRecord (tid : Nat) (b : List Byte) (s : State) : State :=
  s.modTile sl.tileId (fun t => { t with cache := { slot := 0, tid := tid, bytes := b, table := 0 } :: t.cache })
/-- The task's page as a shadow page whose leaf stands at 0x112108. -/
def shadowed (s : State) : State :=
  (withPage (fun p => { p with sh := true, leaf := 0x112108 }) s).modKernel 0 (fun k =>
    { k with ranges := k.ranges.map (fun x => { x with shadow := true }) })
theorem witness_PublishInvertsEveryLeaf :
    (base.lookup sl (.core sl) 0 0).2 = none
    ∧ ((withRecord 5 (recordBytes 0x10000 4 4 0) base).lookup sl (.core sl) 0 5).2.isSome
    ∧ ((withRecord 5 (recordBytes 0x10000 4 4 4) base).lookup sl (.core sl) 0 5).2.map (base.publishable sl) = some false
    ∧ ((withRecord 5 (recordBytes 0x10000 4 4 0) base).lookup sl (.core sl) 0 5).2.map
        (fun r => (base.publishable sl r, r.shadow)) = some (true, false)
    ∧ (let s := shadowed (withRecord 5 (recordBytes 0x10000 4 4 4) base)
       (s.lookup sl (.core sl) 0 5).2.map (fun r => (s.publishable sl r, r.shadow, s.bufferBusy sl (s.bufferPages sl r),
         (s.bufferPages sl r).map (·.leaf))) = some (true, true, false, [0x112108]))
    ∧ (let s := (shadowed (withRecord 5 (recordBytes 0x10000 4 4 4) base)).modSlot sl (withQ .x [queued 0x63400000])
       (s.lookup sl (.core sl) 0 5).2.map (fun r => (s.publishable sl r, r.shadow, s.bufferBusy sl (s.bufferPages sl r)))
        = some (true, true, true)) ∧ wellFormed (.pub 1 2 0) = true ∧ wellFormed (.pub 63 63 9) = true := by decide +kernel
/-- A TCB in memory: new, entry point 0x10000. -/
def withTcb (entry : Nat) : State := put [(0x18008, toBytes 8 entry)] (handleState (pageH true true false) 0x8000)
theorem witness_SpawnAndRetire :
    (let u := (withTcb 0x10000).flagged 32
     u.access 1 0x8000 128 2 = .ok 0x18000 0x18000 ∧ u.here.task.isSome ∧ (u.part? 0).isSome
     ∧ blockNum (u.readBytes (.core sl) 0x18000 128) 104 4 % 8 = 0
     ∧ (u.kernelOf sl).map (fun k => (tcbIllFormed k 0x18000 (u.readBytes (.core sl) 0x18000 128), u.leasePhys k (0x18000 + 104)))
        = some (false, some 0x18068))
    ∧ (let u := (withTcb 0x10002).flagged 32
       (u.kernelOf sl).map (fun k => tcbIllFormed k 0x18000 (u.readBytes (.core sl) 0x18000 128)) = some true)
    ∧ (let u := (put [(0x18068, [1])] (withTcb 0x10000)).flagged 32
       blockNum (u.readBytes (.core sl) 0x18000 128) 104 4 % 8 ≠ 0)
    ∧ ([Engine.v, .m, .x, .d, .b].all fun e => (base.here.seq e).isEmpty) ∧ base.counter sl 5 = 0 ∧ base.here.chain = none ∧ base.here.task.isSome ∧ (base.kernelOf sl).isSome
    ∧ (at_ (withQ .v [queued 0x20030420])).counter sl 5 ≠ 0 := by decide +kernel
theorem witness_SpawnAndRetire_clean : ((withTcb 0x10000).flagged 32).Clean 0x18000 128 :=
  Clean.intro (by decide +kernel) (by decide +kernel)
theorem witness_LaunchAndRemoteEnqueue :
    (let s := mapped.modSlot sl (regH [(1, pageH true true false)])
     let u := s.flagged 32
     u.access 1 0x8000 64 0 = .ok 0x18000 0x18000 ∧ (s.here.readH 1).bank = false ∧ (s.kernelOf sl).isSome ∧ u.here.wait = none
     ∧ (u.launchQueue 1 0 0).map (fun Q => (Q.en, Q.feed, Q.tail - Q.head, Q.cap, u.ctxPhys 1 0 (Q.record Q.tail)))
        = some (true, true, 0, 2, some 0x10400))
    ∧ ((put [(0x20008, [4])] mapped).launchQueue 1 0 0).map (fun Q => (Q.tail - Q.head, Q.cap)) = some (4, 2)
    ∧ (4 : Nat) % 8 ≠ 0 ∧ (base.flagged 32).spanHeld sl 0x3FFFF8 8 = true ∧ (base.flagged 32).spanHeld sl 0x400000 8 = false
    ∧ Engine.ofCode 5 = some .b ∧ ((base.flagged 32).gangOf sl).map (fun g => (mfind g.members 0, mfind g.members 1)) = some (some sl, none)
    ∧ (base.flagged 32).here.stall = none ∧ (base.flagged 32).queueIsFull sl .b = false
    ∧ ((at_ (withQ .b (List.replicate 32 (queued 0xA0C030D0)))).flagged 32).queueIsFull sl .b = true := by decide +kernel
/-- A queue object of four entries at 0x10000, with one entry in it or full. -/
def withQueue (tail : Nat) : State :=
  put [(0x10008, [BitVec.ofNat 8 tail]), (0x10010, [2]), (0x10020, [9])] (handleState (pageH true true false) 0)
/-- An agent of the slot sees every write of the queue object. -/
def seen (u : State) (n : Nat) : State := u.showAt (.core sl) 0x10000 n
theorem witness_QueueSemaphoreAndFutureWords :
    ((withQueue 1).flagged 8).here.wait = none ∧ ((withQueue 1).flagged 32).here.wait = none
    ∧ ((withQueue 1).flagged 8).objectAddr sl 1 0 32 1 64 = .ok 0x10000 0x10000
    ∧ (let u := (withQueue 1).flagged 32
       u.objectAddr sl 1 0 32 2 64 = .ok 0x10000 0x10000 ∧ field ((seen u 32).readNum (.core sl) 0x10000 32) 64 64 = 1
       ∧ field ((seen u 32).readNum (.core sl) 0x10000 32) 128 4 = 2 ∧ u.access 1 (0 + 32 + 8 * 1) 8 1 = .ok 0x10028 0x10028)
    ∧ (let u := (withQueue 4).flagged 32; (field ((seen u 32).readNum (.core sl) 0x10000 32) 64 64 + 2 ^ 64) % 2 ^ 64 = 2 ^ 2)
    ∧ (let u := (withQueue 1).flagged 8
       u.objectAddr sl 1 0 32 2 64 = .ok 0x10000 0x10000 ∧ u.access 1 (0 + 32 + 8 * 0) 8 0 = .ok 0x10020 0x10020)
    ∧ (let u := (withQueue 0).flagged 8; field ((seen u 32).readNum (.core sl) 0x10000 32) 64 64 = field ((seen u 32).readNum (.core sl) 0x10000 32) 0 64)
    ∧ (let u := (withQueue 1).flagged 8
       u.objectAddr sl 1 8 16 2 8 = .ok 0x10008 0x10008 ∧ (u.showAt (.core sl) 0x10008 16).readNum (.core sl) 0x10008 16 % 2 ^ 64 ≠ 0)
    ∧ ((withQueue 1).flagged 16).objectAddr sl 1 0 8 2 8 = .ok 0x10000 0x10000
    ∧ ((withQueue 1).flagged 8).objectAddr sl 1 0 8 2 8 = .ok 0x10000 0x10000
    ∧ (let u := (withQueue 0).flagged 8; (u.showAt (.core sl) 0x10040 16).readNum (.core sl) 0x10040 16 % 2 ^ 64 = 0) := by decide +kernel
theorem witness_QueueSemaphoreAndFutureWords_clean :
    ((withQueue 1).flagged 32).Clean 0x10000 32 ∧ ((withQueue 1).flagged 8).Clean 0x10020 8 :=
  ⟨Clean.intro (by decide +kernel) (by decide +kernel), Clean.intro (by decide +kernel) (by decide +kernel)⟩
/-- Regions of the slot's tile changed. -/
def withRegion (k : Nat) (f : Region → Region) (s : State) : State :=
  s.modTile sl.tileId (fun t => { t with regions := mmod t.regions k {} f })
theorem witness_TicketRegionAndSegmentWords :
    Engine.ofCode 4 = some .d ∧ (base.part? 0).isSome ∧ base.here.wait = none ∧ base.cleared sl = none
    ∧ ((List.range 16).filter (fun n => (withRegion 15 (fun r => { r with owner := none }) base).freeFor sl n) = [15])
    ∧ (List.range 16).filter (fun n => base.freeFor sl n) = [] ∧ (∀ n, n < 16 → (base.region sl n).owner = some sl.slot)
    ∧ (let s := withRegion 0 (fun r => { r with owner := some 1 }) base
       (List.range 16).filter (fun n => s.freeFor sl n) = [] ∧ (s.region sl 0).owner = some 1 ∧ (s.region sl 0).pinned = false)
    ∧ (base.modTile sl.tileId (fun t => { t with
        regions := mset t.regions 3 {}
        spilling := [⟨3, 0, false⟩] })).cleared sl = some 3
    ∧ (at_ (withQ .v [queued 0x20030420])).wordsDone sl = false ∧ base.wordsDone sl = true
    ∧ (withRegion 2 (fun r => { r with owner := some 1 }) base).holds sl 2 = false ∧ (base.region sl 15).owner = some sl.slot
    ∧ spilledRegion.holds sl 1 = true ∧ (spilledRegion.region sl 1).owner ≠ some sl.slot
    ∧ ((withRegion 2 (fun r => { r with pinned := true }) base).region sl 2).pinned = true
    ∧ (let s := (List.range 12).foldl (fun s k => withRegion k (fun r => { r with pinned := true }) s) base
       12 ≤ ((List.range 16).filter (fun i => (s.region sl i).pinned)).length ∧ (s.region sl 12).pinned = false)
    ∧ ((List.range 16).filter (fun i => (base.region sl i).pinned)).length < 12 := by decide +kernel
theorem witness_TicketRegionAndSegmentWords_segments :
    base.here.csr.segOpen = false
    ∧ (let s := at_ (fun v => withQ .v [queued 0x20030420] { v with csr := { v.csr with segOpen := true, segIdx := 7 } })
       s.here.csr.segOpen = true ∧ s.here.csr.segIdx = extU none 65536 7)
    ∧ (at_ (withQ .v [{ queued 0x20030420 with seg := true }])).here.segmentTaken = false
    ∧ base.here.segmentTaken = true ∧ (withClass 2 base).kclass sl = 2 ∧ base.kclass sl ≠ 2
    ∧ (let s := (put [(0x10030, toBytes 8 1)] base).modKernel 0 (fun k => { k with sigbase := 0x10000 })
       (s.kernelOf sl).map (fun k => (k.sigbase + 48, (k.page? 0x10030).map (fun p => grantsR (k.rangeRights p)),
         s.leasePhys k 0x10030, s.leasePhys k (0x10030 + 47))) = some (0x10030, some true, some 0x10030, some 0x1005F)
       ∧ s.here.csr.segDiff 1 (s.readBytes (.core sl) 0x10030 48) = (false, none)
       ∧ s.here.csr.segDiff 2 (s.readBytes (.core sl) 0x10030 48) = (true, none)
       ∧ { s.here.csr with segBeats := [(5, 1)] }.segDiff 1 (s.readBytes (.core sl) 0x10030 48) = (false, some (5, true)))
    ∧ (base.kernelOf sl).map (·.sigbase) = some 0 := by decide +kernel

/-! ## Witnesses: the vector, matrix, copy, bank and distribution queues -/

/-- An entry of the vector queue executes. -/
def vec : State := running .v 0x1000 0 base
/-- A read-stream q0 with 40 elements, and a write-stream q1. -/
def streams : List (Nat × Stream) :=
  [(0, ⟨false, 0, [64, 1, 1, 1], [1, 0, 0, 0], 0, List.replicate 40 (0x3F800000#32, false), [], 0, 0, []⟩),
   (1, ⟨true, 0, [64, 1, 1, 1], [1, 0, 0, 0], 0, [], [], 0, 0, []⟩)]
/-- The same with the streams bound. -/
def vecStreams : State := vec.modRegs sl (fun r => { r with streams := streams })
/-- Operand codes: m1.r, m2.c, q0 and q1. -/
theorem witness_VectorLanes :
    LaneReady vec [1, 0x12] (some 3) 0 ∧ LaneReady vecStreams [0x30] (some 0x31) 0 ∧ LaneReady vec [1, 2, 3] (some 3) 7
    ∧ LaneReady vec [] (some 5) 0 ∧ LaneReady vec [1, 2] none 0 := by
  refine ⟨⟨?_, ?_, ?_⟩, ⟨?_, ?_, ?_⟩, ⟨?_, ?_, ?_⟩, ⟨?_, ?_, ?_⟩, ⟨?_, ?_, ?_⟩⟩ <;> decide +kernel
theorem witness_VectorPredicatesReductionsAndScans :
    (95 : Fin 128).val < 96 ∧ vec.here.regs.mask = []
    ∧ (vec.modRegs sl (fun r => { r with mask := List.replicate 8 5#32 })).here.regs.mask.length = 8
    ∧ (vec.modRegs sl (fun r => { r with mask := [5#32] })).here.regs.mask = 5#32 :: [] := by decide +kernel
theorem witness_VectorLoadsAndStores :
    vec.SpotsReady (vec.laneSpots (fun n => 0x1000 + 128 * (toSigned 6 0x3F + 0) + 4 * n))
    ∧ vec.Clean (vec.localSpot 0xF80) 4
    ∧ vec.badLane sl (vec.laneSpots (fun n => 0x3FFF84 + 4 * n)) = some 0x400000
    ∧ (running .v 0x1000 0 spilledRegion).badLane sl (vec.laneSpots (fun n => 0x40000 + 4 * n)) = none
    ∧ (running .v 0x1000 0 spilledRegion).lanesResident sl (vec.laneSpots (fun n => 0x40000 + 4 * n)) = false := by
  refine ⟨⟨?_, ?_, ?_⟩, Clean.intro rfl ?_, ?_, ?_, ?_⟩ <;> decide +kernel
/-- The vector sequencer changed. -/
def vecSeq (f : Sequencer → Sequencer) : State := vec.modSeq sl .v f
theorem witness_VectorControlWordsAndOperandFaults :
    (∀ e, e < 1024 → vec.here.regs.elBad 3 e = false) ∧ vec.here.csr.armed 2 2 = false
    ∧ (vec.modRegs sl (fun r => { r with mask := [0#32] })).here.regs.mask.head? = some 0#32 ∧ vec.here.regs.mask.head? ≠ some 0#32
    ∧ (vec.here.seq .v).loops = []
    ∧ (let s := vecSeq (fun q => { q with loops := [⟨0, 2, 0, 1, 0⟩], q := [queued 0x34C00000] })
       (s.here.seq .v).loops ≠ [] ∧ closeFrom (((s.here.seq .v).q).drop 1) 1 0 1 = none)
    ∧ (let s := vecSeq (fun q => { q with
        loops := [⟨0, 2, 0, 1, 0⟩]
        q := [queued 0x34C00000, { (default : Entry) with kind := .loopClose 1 }] })
       closeFrom (((s.here.seq .v).q).drop 1) 1 0 1 = some 1)
    ∧ vec.here.drained = true
    ∧ (vecStreams.modRegs sl (fun r => { r with streams := r.streams.map (fun x => (x.1, { x.2 with out := [(0, 1#32)] })) })).here.drained
        = false
    ∧ mget (vec.modRegs sl (fun r => { r with f := [(15, 1)] })).here.regs.f 15 0 = 1 ∧ mget vec.here.regs.f 15 0 ≠ 1
    ∧ vectorOperands (.vadd 3 0x30 2 0 0) = some ([0x30, 2], some 3, 0)
    ∧ vec.here.gate vec.cur.entry.stamp [0x30, 2] (some 3) = .fault 1 0
    ∧ (vecStreams.modRegs sl (fun r => { r with streams := streams.map (fun x => (x.1, { x.2 with filled := [] })) })).here.gate 0
        [0x30, 2] (some 3) = .stall
    ∧ (let s := vec.modRegs sl (fun r => { r with
        mbound := [1]
        mpoison := [1024 + 31] })
       s.here.gate 0 [1, 2] (some 3) = .ok ∧ (firstBad (s.here.readLines (s.here.xval .v 0) [] [1, 2])).isSome ∧ s.kclass sl ≠ 2
       ∧ (withClass 2 s).kclass sl = 2 ∧ ∀ k, k < 16 → (s.region sl k).owner = some sl.slot) := by decide +kernel
/-- An entry of the matrix queue executes with two descriptors of one BF16 element each, at 0x1000 and 0x2000. -/
def mat (f : Acc → Acc) : State :=
  (running .m 0x400030C01000 0x400030C02000 base).modRegs sl (fun r => { r with a := [(1, f {})] })
theorem MatrixReady.intro {s : State} {n : Nat} {spans : List (Nat × Nat)} {used : Nat → Bool} (h : s.spansHeld s.cur.slot spans = true)
    (r : s.spansResident s.cur.slot spans = true) (f : s.flips = []) (p : spans.all (fun x => !s.poisonedIn (s.localSpot x.1) (x.2 - x.1)))
    (a : (s.acc s.cur.slot n).poison = [] ∧ (s.acc s.cur.slot n).odd = []) (q : s.here.csr.armed 1 2 = false ∧ s.here.csr.armed 0 2 = false) :
    MatrixReady s n spans used :=
  ⟨h, r, fun x hx => Clean.intro f (by simpa using List.all_eq_true.mp p x hx), fun e _ _ => by simp [Acc.elBad, a.1, a.2], q⟩
theorem witness_MatrixAccumulateWords :
    Desc.of 0x400030C01000 = ⟨0x1000, 3, 3, 0, 1, 1, 1, 0⟩
    ∧ accCheck 0x40520900 (Desc.of 0x400030C01000) (Desc.of 0x400030C02000) ((mat id).acc sl 1) false = none
    ∧ accCheck 0x40520900 (Desc.of 0x400030C01001) (Desc.of 0x400030C02000) ((mat id).acc sl 1) false = some 4
    ∧ (Desc.of 0x400030C01000).fmt? = some (.flt BF16) ∧ (mat id).here.csr.armed 0 1 = false
    ∧ MatrixReady (mat id) 1 [(0x1000, 0x1002), (0x2000, 0x2002)] (fun e => decide (e / 128 < 1) && decide (e % 128 < 1)) :=
  ⟨by decide +kernel, by decide +kernel, by decide +kernel, rfl, by decide +kernel,
    MatrixReady.intro (by decide +kernel) (by decide +kernel) rfl (by decide +kernel) ⟨rfl, rfl⟩ (by decide +kernel)⟩
theorem witness_MatrixTileAndEventWords :
    (Desc.of 0x400040401000).fmt? = some (.flt FP32) ∧ loadFormat (.flt FP32) = true ∧ (Desc.of 0x400030401000).fmt? = none
    ∧ (Desc.of 0x400040401000).base % 64 = 0 ∧ (Desc.of 0x400040401000).rsv = 0 ∧ (Desc.of 0x400040401000).soff = 0
    ∧ drainFormat 1 (.flt FP32) = true ∧ drainFormat 2 (.int 32 true) = true
    ∧ MatrixReady (mat id) 1 [(0x1000, 0x1004)] (fun e => decide (e / 128 < 1) && decide (e % 128 < 1))
    ∧ (0x1000 : Nat) % 16 = 0 ∧ (mat id).spanHeld sl 0x1000 16 = true ∧ (mat id).resident sl 0x1000 16 = true
    ∧ (mat id).matrixQuiet sl = true ∧ { mat id with cmds := [{ command .m with matrix := true }] }.matrixQuiet sl = false :=
  ⟨rfl, rfl, rfl, by decide, by decide, by decide, rfl, rfl,
    MatrixReady.intro (by decide +kernel) (by decide +kernel) rfl (by decide +kernel) ⟨rfl, rfl⟩ (by decide +kernel),
    by decide +kernel, by decide +kernel, by decide +kernel, by decide +kernel, by decide +kernel⟩
/-- A checked integer tile, with a checksum of row 3 and one of column 5. -/
def checked (row col : Bool) : State := mat (fun a => { a with
  mode := 2
  cr := if row then [(3, 0x40E00000)] else []
  cc := if col then [(5, 0x40E00000)] else [] })
theorem witness_CheckedTiles :
    ((mat (fun a => { a with valid := false })).acc sl 1).valid = false ∧ ((mat id).acc sl 1).mode = 0
    ∧ ((mat (fun a => { a with
        mode := 1
        ckv := false })).acc sl 1).ckv = false
    ∧ MatrixReady (checked true true) 1 [] (fun _ => true)
    ∧ (withClass 2 base).kclass sl = 2 ∧ (withClass 1 base).kclass sl ≠ 2 :=
  ⟨rfl, rfl, rfl, MatrixReady.intro rfl rfl rfl rfl ⟨rfl, rfl⟩ (by decide +kernel), by decide +kernel, by decide +kernel⟩
/-- The tile of that state. -/
def checkedAcc (row col : Bool) : Acc := { (default : Acc) with
  mode := 2
  cr := if row then [(3, 0x40E00000)] else []
  cc := if col then [(5, 0x40E00000)] else [] }
theorem checked_acc (r c : Bool) : (checked r c).acc sl 1 = checkedAcc r c := by cases r <;> cases c <;> decide +kernel
/-- What CheckTile finds of a line of zeros whose checksum is 0 or not. -/
def zeroLine (b : Bool) : LineCheck :=
  lineCheck (List.replicate 128 (Fl.ofInt 0)) (if b then 0x40E00000 else 0) 0 0x3B800000 0x35800000
theorem zero_lines : (zeroLine false).bad = false ∧ (zeroLine true).bad = true := by decide +kernel
theorem checked_value (r c : Bool) (i j : Nat) : (checkedAcc r c).value i j = Fl.ofInt 0 := by cases r <;> cases c <;> rfl
theorem one_checksum (k n : Nat) (on : Bool) : (mget (if on then [(k, 0x40E00000#32)] else []) n (0 : W32)).toNat
    = if on && decide (n = k) then 0x40E00000 else 0 := by
  cases on
  · rfl
  · by_cases e : n = k
    · simp [mget, mfind, e]
    · simp [mget, mfind, e, Ne.symm e]
theorem checked_line (xs : List Fl) (h : xs = List.replicate 128 (Fl.ofInt 0)) (ck mag : Nat) (b : Bool)
    (hc : ck = if b then 0x40E00000 else 0) (hm : mag = 0) : lineCheck xs ck mag 0x3B800000 0x35800000 = zeroLine b := by
  subst h hc hm
  rfl
theorem checked_row (r c : Bool) (i : Nat) :
    (checkedAcc r c).rowCheck 0x3B800000 0x35800000 i = zeroLine (r && decide (i = 3)) :=
  checked_line _ (by simp only [funext (checked_value r c i), List.map_const', List.length_range]) _ _ _ (one_checksum 3 i r)
    (by cases r <;> cases c <;> rfl)
theorem checked_col (r c : Bool) (j : Nat) :
    (checkedAcc r c).colCheck 0x3B800000 0x35800000 j = zeroLine (c && decide (j = 5)) :=
  checked_line _ (by simp only [checked_value, List.map_const', List.length_range]) _ _ _ (one_checksum 5 j c)
    (by cases r <;> cases c <;> rfl)
/-- The lines whose residue exceeds their bound. -/
def failing (f : Nat → LineCheck) : List Nat := (((List.range 128).map f).zipIdx.filter (fun x => x.1.bad)).map (·.2)
theorem checked_over (k : Nat) (on : Bool) (hk : k < 128) : failing (fun i => zeroLine (on && decide (i = k))) = if on then [k] else [] := by
  have h : ∀ b, (zeroLine b).bad = b := fun b => by cases b <;> simp [zero_lines]
  unfold failing
  rw [List.zipIdx_map, List.filter_map, List.map_map]
  simp only [Function.comp_def, Prod.map, h]
  revert k
  cases on <;> decide +kernel
/-- CheckTile's verdict on the lines that exceed their bounds. -/
def verdict : List Nat → List Nat → Check
  | [], [] => .pass
  | [i], [j] => .correct i j
  | R, Q => .bad R.length Q.length
theorem check_eq (t : Acc) (a r : Nat) : (t.check a r).1 = verdict (failing (t.rowCheck a r)) (failing (t.colCheck a r)) := by
  unfold Acc.check verdict failing
  rfl
theorem checked_found (r c : Bool) : (((checked r c).acc sl 1).check 0x3B800000 0x35800000).1
    = verdict (if r then [3] else []) (if c then [5] else []) := by
  rw [checked_acc, check_eq, funext (checked_row r c), funext (checked_col r c), checked_over 3 r (by decide),
    checked_over 5 c (by decide)]
theorem witness_CheckedTiles_found :
    (((checked false false).acc sl 1).check 0x3B800000 0x35800000).1 = .pass
    ∧ (((checked true true).acc sl 1).check 0x3B800000 0x35800000).1 = .correct 3 5
    ∧ (((checked true false).acc sl 1).check 0x3B800000 0x35800000).1 = .bad 1 0 :=
  ⟨checked_found false false, checked_found true true, checked_found true false⟩
/-- An epilogue of one element into record 5, in a shadow buffer. -/
def epi : State := shadowed (withRegion 0 id (withRecord 5 (recordBytes 0x10000 4 4 4)
  (running .m 0x5 0 ((mat (fun a => { a with mode := 1 }))))))
/-- That record. -/
def rec5 (shadow : Bool) : Record := ⟨5, 0x10000, 0, 4, 4, 1, 1, 1, 16, 0, 0, 1, .flt FP32, 0, shadow⟩
theorem epi_lookup : epi.lookup sl (.eng sl .m) 2 5 = (epi, some (rec5 true)) := by decide +kernel
theorem witness_Epilogue :
    epi.epiCmd sl = none ∧ epiCheck epi sl (epi.acc sl 1) 0 (Epi.of 5 0) (some (rec5 true)) = none
    ∧ (epi.epiPlaces sl (rec5 true) (Epi.of 5 0)).findSome? (fun p => match p with | .outlease va => some va | _ => none) = none
    ∧ (epi.pageOf sl ((rec5 true).elem 0 0 0 0).1).map (·.leaf) = some 0x112108
    ∧ epiCheck epi sl (epi.acc sl 1) 0 (Epi.of 0 0) none = some 1 := by decide +kernel
theorem witness_Epilogue_ready : MatrixReady epi 1 [] (fun _ => true) := by
  refine MatrixReady.intro ?_ ?_ ?_ ?_ ?_ ?_ <;> decide +kernel
/-- The epilogue of a checked tile, with its first writes still to perform or all performed. -/
def epiLater (row col : Bool) (moves : List Move) : State :=
  { checked row col with cmds := [{ command .m with
      id := 7
      moves := moves
      epi := some ⟨1, [0], [0], [{ (default : Move) with addr := 0x20000 }]⟩ }] }
theorem witness_Epilogue_check :
    (epiLater true true [default]).epiCmd sl ≠ none ∧ formatOf 1 = some (.flt FP32)
    ∧ [(false, false), (true, true), (true, false)].all (fun x =>
        ((epiLater x.1 x.2 []).epiCmd sl).map (fun k => (k.moves, k.epi.map (·.fmt))) == some ([], some 1)
          && decide ((epiLater x.1 x.2 []).acc sl 1 = (checked x.1 x.2).acc sl 1)
          && decide ((withClass 1 (epiLater x.1 x.2 [])).kclass sl = 1)) := by decide +kernel
/-- A copy from record 5 into record 6: two rows of four FP32 elements each, at 0x10000 and at b; k is its word's kind. -/
def copySrc : Record := ⟨5, 0x10000, 0, 4, 2, 1, 1, 1, 16, 0, 0, 1, .flt FP32, 0, false⟩
def copyDst (b : Nat) : Record := { copySrc with
  tid := 6
  base := b }
def copyState (a b : Nat) (c1 c2 : Word) : State :=
  withRecord 6 (recordBytes b 4 2 0) (withRecord 5 (recordBytes a 4 2 0) (running .x c1 c2 base))
/-- The plan of such a copy. -/
def copyOf (s : State) (k : CopyKind) (r d : Record) (c1 c2 : Nat) (idx : List Nat) : CopyPlan :=
  s.copyPlan sl k (SrcWindow.of c1) (DstWindow.of c2) r d idx false
theorem CopyReady.intro {s : State} {p : CopyPlan} {idx : List Nat} (h0 : p = s.copyPlan s.cur.slot p.kind p.S p.T p.r p.d idx p.ui)
    (h1 : formatBad p.kind p.S p.T p.r p.d = false ∧ shapeBad p.kind p.S p.T p.r p.d = false ∧ s.shadowAgrees s.cur.slot p.r = true
      ∧ s.shadowAgrees s.cur.slot p.d = true)
    (h2 : (inGangWindow p.r.base = true → p.kind = .get) ∧ (inGangWindow p.d.base = true → p.kind.toRemote = true)
      ∧ (p.kind = .get → s.remoteBase s.cur.slot p.r = true) ∧ (p.kind.toRemote = true → s.remoteBase s.cur.slot p.d = true))
    (own : p.kind = .bcst → inGangWindow p.d.base = true ∧ ∃ k, s.here.task = some k ∧ memberOf p.d.base = k.member)
    (op : p.kind = .red → p.S.op < 3)
    (index : idx = s.indexRow p ∧ (p.kind.indexed = true → p.S.idx % 4 = 0
      ∧ s.spanHeld s.cur.slot p.S.idx (4 * indexCount p.kind p.S p.T p.r p.d) = true)
      ∧ ∀ i ∈ idx, i < if p.kind = .gth then p.r.e1 else p.d.e1)
    (barrier : p.T.barv = false)
    (places : (p.srcSpots ++ p.dstSpots).all (fun x => match x.2 with
      | .outlease _ | .badClass | .bad _ => false
      | _ => true) = true)
    (classes : p.kind ≠ .cls → (p.dst.zip p.dstScale).findSome? (fun x => classCross (p.sources x.1 x.2)) = none)
    (resident : s.wantSpots (p.srcSpots ++ p.dstSpots) = none ∧ s.spansResident s.cur.slot p.row = true)
    (room : s.copyOverlap s.cur.slot (p.row.map (fun x => (s.localPhys s.cur.slot x.1, x.2 - x.1)) ++ (p.srcSpots ++ p.dstSpots).flatMap (fun x => x.2.span x.1)) = false)
    (clean : s.settleSpans s.cur.slot 3 p.row = s ∧ s.settleSpots s.cur.slot p.srcSpots = s ∧ s.badSpan s.cur.slot p.row = none) :
    CopyReady s p idx :=
  ⟨h0, h1.1, h1.2.1, h1.2.2, ⟨h2.1, h2.2.1⟩, h2.2.2, own, op, index, fun h => absurd h (by simp [barrier]),
    fun x hx => by
      have := List.all_eq_true.mp places x hx
      refine ⟨fun a e => ?_, fun e => ?_, fun a e => ?_⟩ <;> simp [e] at this,
    classes, resident, room, clean⟩
def cpyS : State := copyState 0x10000 0x10100 0x5 0x6
def cpyP (k : CopyKind) : CopyPlan := copyOf cpyS k copySrc (copyDst 0x10100) 5 6 []
theorem witness_CopiesBetweenRecords (k : CopyKind) (h : k = .cpy ∨ k = .cpyt ∨ k = .cls) :
    CopyRecords cpyS cpyS (cpyP k) ∧ CopyReady cpyS (cpyP k) [] := by
  rcases h with h | h | h <;> subst h <;>
    exact ⟨by unfold CopyRecords; decide +kernel, CopyReady.intro rfl (by decide +kernel) (by decide +kernel) (by decide) (by decide) (by decide +kernel)
      rfl (by decide +kernel) (by decide +kernel) (by decide +kernel) (by decide +kernel) (by decide +kernel)⟩
/-- A gather and a scatter of both rows with the index row 1, 0 at 0x3000. -/
def idxS (c1 c2 : Word) : State := put [((base.window sl.tileId) + 0x3000, [1, 0, 0, 0, 0, 0, 0, 0])] (copyState 0x10000 0x10100 c1 c2)
theorem witness_CopiesBetweenRecords_indexed (k : CopyKind) (h : k = .gth ∨ k = .sct) :
    CopyRecords (idxS 0x300000005 0x6) (idxS 0x300000005 0x6) (copyOf (idxS 0x300000005 0x6) k copySrc (copyDst 0x10100) 0x300000005 6 [1, 0])
    ∧ CopyReady (idxS 0x300000005 0x6) (copyOf (idxS 0x300000005 0x6) k copySrc (copyDst 0x10100) 0x300000005 6 [1, 0]) [1, 0] := by
  rcases h with h | h <;> subst h <;>
    exact ⟨by unfold CopyRecords; decide +kernel, CopyReady.intro rfl (by decide +kernel) (by decide +kernel) (by decide) (by decide)
      (by decide +kernel) rfl (by decide +kernel) (by decide +kernel) (by decide +kernel) (by decide +kernel) (by decide +kernel)⟩
/-- A transfer between record 5 and the gang window: the part of member 0 from its local address 0x8000. -/
def winS : State := copyState 0x10000 0x1FFFFFFC0008000 0x5 0x6
def getS : State := copyState 0x1FFFFFFC0008000 0x10100 0x5 0x6
def lostS : State := getS.modTile sl.tileId (fun t => { t with regions := mmod t.regions 0 {} (fun r => { r with owner := some 1 }) })
def winP (k : CopyKind) : CopyPlan := copyOf winS k copySrc (copyDst 0x1FFFFFFC0008000) 5 6 []
def getP (s : State) : CopyPlan := copyOf s .get { copySrc with base := 0x1FFFFFFC0008000 } (copyDst 0x10100) 5 6 []
theorem witness_TransfersOverTheGangWindow (k : CopyKind) (h : k = .put ∨ k = .red ∨ k = .bcst) :
    CopyRecords winS winS (winP k) ∧ CopyReady winS (winP k) [] ∧ ∀ x ∈ (winP k).srcSpots ++ (winP k).dstSpots, ∀ y, x.2 ≠ .peer y := by
  have h2 : ∀ k, k = .put ∨ k = .red ∨ k = .bcst → ((winP k).srcSpots ++ (winP k).dstSpots).all (fun x => match x.2 with
      | .peer _ => false
      | _ => true) = true := by
    rintro k (h | h | h) <;> subst h <;> decide +kernel
  refine ⟨?_, ?_, fun x hx y e => ?_⟩
  · rcases h with h | h | h <;> subst h <;> (unfold CopyRecords; decide +kernel)
  · rcases h with h | h | h <;> subst h <;>
      exact CopyReady.intro rfl (by decide +kernel) (by decide +kernel) (fun _ => ⟨by decide, _, rfl, by decide⟩)
        (by decide +kernel) (by decide +kernel) rfl (by decide +kernel) (by decide +kernel) (by decide +kernel) (by decide +kernel)
        (by decide +kernel)
  · have := List.all_eq_true.mp (h2 k h) x hx
    simp [e] at this
theorem witness_TransfersOverTheGangWindow_get (s : State) (h : s = getS ∨ s = lostS) :
    CopyRecords s s (getP s) ∧ CopyReady s (getP s) [] ∧ anyLost (getP getS).srcSpots = false ∧ anyLost (getP lostS).srcSpots = true := by
  rcases h with h | h <;> subst h <;>
    exact ⟨by unfold CopyRecords; decide +kernel, CopyReady.intro rfl (by decide +kernel) (by decide +kernel) (by decide) (by decide)
      (by decide +kernel) rfl (by decide +kernel) (by decide +kernel) (by decide +kernel) (by decide +kernel) (by decide +kernel),
      by decide +kernel, by decide +kernel⟩
theorem witness_CopyQueueWords_fill :
    let s := withRecord 6 (recordBytes 0x10100 1 1 0) (running .x 0x7 0x3000080006 base)
    let r : Record := ⟨6, 0x10100, 0, 1, 1, 1, 1, 1, 4, 0, 0, 1, .flt FP32, 0, false⟩
    s.copyFull sl = false ∧ s.lookup sl (.eng sl .x) 3 6 = (s, some r) ∧ s.shadowAgrees sl r = true
    ∧ (DstWindow.of 0x3000080006).rsv = 0 ∧ (DstWindow.of 0x3000080006).unused = false ∧ r.fmt.isMx = false ∧ (DstWindow.of 0x3000080006).barv = true
    ∧ (DstWindow.of 0x3000080006).baddr % 16 = 0 ∧ s.spanHeld sl (DstWindow.of 0x3000080006).baddr 16 = true
    ∧ s.barrierAway sl (DstWindow.of 0x3000080006) = false
    ∧ ∀ i : Ix, i.i0 < r.e0 → (DstWindow.of 0x3000080006).org ≤ i.i1 → i.i1 < r.e1 → i.i2 < r.e2 → i.i3 < r.e3 → ∀ z ∈ r.parts i,
        (∃ a c g h, s.spot sl r false true none z.va = .mem a c g h)
        ∧ s.copyOverlap sl ((s.spot sl r false true none z.va).span z) = false := by
  refine ⟨by decide +kernel, by decide +kernel, by decide +kernel, rfl, rfl, rfl, rfl, rfl, by decide +kernel, by decide +kernel,
    fun i a b c d e z hz => ?_⟩
  obtain ⟨i0, i1, i2, i3⟩ := i
  simp only at a b c d e
  have hi : i0 = 0 ∧ i1 = 0 ∧ i2 = 0 ∧ i3 = 0 := by omega
  obtain ⟨rfl, rfl, rfl, rfl⟩ := hi
  rw [show Record.parts _ _ = [⟨0x10100, 0, 32, 0⟩] by decide +kernel, List.mem_singleton] at hz
  subst hz
  exact ⟨⟨0x10100, some 0, some (placePage, 0x100), none, by decide +kernel⟩, by decide +kernel⟩
/-- A block that describes a pattern of 64 words from 0x1000. -/
def patterned (y : Word) (st : List (Nat × Stream)) : State :=
  (put [(base.window sl.tileId + 0x3000, toBytes 8 0x1000 ++ toBytes 8 0x1000100010040 ++ toBytes 8 4 ++ toBytes 8 0)]
    (running .x 0x3000 y base)).modRegs sl (fun r => { r with streams := st })
theorem witness_CopyQueueWords_streams :
    (let s := patterned 0x11 []
     s.copyFull sl = false ∧ s.here.streamBusy 1 s.cur.entry.stamp = false ∧ s.spanHeld sl 0x3000 32 = true
     ∧ s.resident sl 0x3000 32 = true ∧ s.here.csr.armed 1 2 = false ∧ s.copyOverlap sl [(s.localPhys sl 0x3000, 32)] = false
     ∧ parsePattern ((List.range 4).flatMap (fun i => toBytes 8 (s.viewNum (.eng sl .x) s.cur.entry.view s.cur.entry.own
        (Config.pick s.fresh (0x3000 + 8 * i)) (s.localPhys sl (0x3000 + 8 * i)) 8))) = some (0x1000, [64, 1, 1, 1], [4, 0, 0, 0])
     ∧ patternReach 0x1000 [64, 1, 1, 1] [4, 0, 0, 0] = (0x1000, 0x13F0) ∧ s.spanHeld sl 0x1000 0x3F4 = true
     ∧ s.here.undrained 1 = false)
    ∧ (patterned 0x11 [(1, ⟨true, 0, [64, 1, 1, 1], [1, 0, 0, 0], 0, [], [(0, 1#32)], 0, 0, []⟩)]).here.undrained 1 = true := by
  decide +kernel
theorem witness_CopyQueueWords_clean : (patterned 0x11 []).Clean ((patterned 0x11 []).localSpot 0x3000) 32 :=
  Clean.intro (by decide +kernel) (by decide +kernel)
/-- An X command of the slot in flight. -/
def copying (s : State) : State := { s with cmds := [command .x] }
theorem witness_CopyQueueWords_publish :
    let s := shadowed (withRecord 5 (recordBytes 0x10000 4 2 4) (running .x 0x1005 0 base))
    let r : Record := { copySrc with shadow := true }
    s.copyQuiet sl = true ∧ s.copyFull sl = false ∧ (copying s).copyQuiet sl = false
    ∧ s.lookup sl (.eng sl .x) 3 5 = (s, some r) ∧ s.publishable sl r = true
    ∧ (s.bufferPages sl r).map (·.leaf) = [0x112108] ∧ [0x112108].Nodup
    ∧ s.epiPending sl s.cur.entry.born (s.bufferPages sl r) (fun t => s.targets sl (s.bufferPages sl r) t) = false
    ∧ (let u := withRecord 5 (recordBytes 0x10000 4 2 0) (running .x 0x1005 0 base)
       u.lookup sl (.eng sl .x) 3 5 = (u, some copySrc) ∧ u.publishable sl copySrc = true)
    ∧ s.here.chain = none ∧ (s.modSlot sl (fun v => { v with chain := some default })).here.chain.isSome
    ∧ mget (s.modRegs sl (fun r => { r with f := [(3, 1)] })).here.regs.f 3 0 = 1 ∧ mget s.here.regs.f 3 0 ≠ 1 := by decide +kernel
/-- A page that bank commands reach; the queued word holds the address and the operands. -/
def bankPage (b : Bool) : Page := { placePage with bk := b }
def bankS (b : Bool) (c1 c2 : Word) : State :=
  (withPage (fun _ => bankPage b) (running .b c1 c2 base)).modKernel 0 (fun k => { k with
    ranges := [{ base := 0x10000, len := 0x10000, rights := 7, cls := 0, shadow := false }] })
/-- BKADD of 256 bytes of FP32 at 0x10000 with those at offset 0x100; BKGSUM of the two blocks that the list at 0x2000 names. -/
theorem witness_BankWordsCheckAndIssue :
    (bankS true 0x10000 0x100).bankPage sl 0x20000 = none
    ∧ (bankS true 0x10000 0x100).bankPage sl 0x10000 = some (bankPage true) ∧ (bankPage true).bk = true
    ∧ (bankS false 0x10000 0x100).bankPage sl 0x10000 = some (bankPage false) ∧ (bankPage false).bk = false
    ∧ ((bankS true 0x10000 0x100).bankPage sl (0x10000 + 256 - 1)).isSome
    ∧ (BankOp.of 0 0x10000 0x100) = ⟨0x10000, 256, 0x100, 0, 0⟩ ∧ bankZeros 0 0x10000 0x100 = false ∧ bankZeros 0 0x10000 0x8100 = true
    ∧ (BankOp.of 0 0x10010 0x100).y % 32 ≠ 0 ∧ (BankOp.of 0 0x10000 0x110).xoff % 32 ≠ 0
    ∧ ¬(BankOp.of 0 0x17F20 0x100).y + 256 ≤ (BankOp.of 0 0x17F20 0x100).slab + 0x8000 ∧ (BankOp.of 0 0x10000 0x30100).typ = 3
    ∧ (BankOp.of 3 0x10000 0x3200000000100).list = (0x2000, 3)
    ∧ 0x8000 < (BankOp.of 3 0x10000 0x1200000007F00).xoff + (1 + 1) * 256 := by decide +kernel
/-- That command at its bank. -/
def bankCmd (fn : Nat) : Cmd := { (default : Cmd) with
  id := 3
  slot := sl
  engine := .b
  word := fn * 0x400000
  cap1 := 0x10000
  cap2 := 0x100
  bank := some 0
  phys := 0x10000
  slab := 0x10000
  executed := false }
def banked (fn : Nat) : State := { base with cmds := [bankCmd fn] }
theorem witness_BankCommandsAtTheBank (fn : Fin 8) :
    (banked fn).cmd? 3 = some (bankCmd fn) ∧ (bankCmd fn).bank.isSome ∧ (banked fn).bankReady (bankCmd fn) = true
    ∧ ({ base with cmds := [bankCmd fn, { bankCmd fn with id := 2 }] } : State).bankReady (bankCmd fn) = false
    ∧ (∀ r ∈ bankReads fn (BankOp.of fn 0x10000 0x100) (bankCmd fn), (banked fn).Clean r.1 r.2)
    ∧ (bankCmd fn).regMoves = [] ∧ (banked fn).tileOfPhys (bankCmd fn).phys = none := by
  revert fn
  have h : ∀ fn : Fin 8, (bankReads fn (BankOp.of fn 0x10000 0x100) (bankCmd fn)).all (fun r => !(banked fn).poisonedIn r.1 r.2) := by
    decide +kernel
  intro fn
  refine ⟨by revert fn; decide +kernel, rfl, by revert fn; decide +kernel, by revert fn; decide +kernel,
    fun r hr => Clean.intro rfl (by simpa using List.all_eq_true.mp (h fn) r hr), rfl, by revert fn; decide +kernel⟩
/-- An entry of the distribution queue with the image address 0x3000. -/
def dist (x : Word) : State := running .d x 0 base
theorem witness_DistributionMovesAndExtraction :
    imageAddr (dist 0x3000) 0 = 0x3000 ∧ imageAddr (dist 0x3010) 0 % 64 ≠ 0
    ∧ (0x3000 % 64 = 0 ∧ (∀ i, i < 33 → (dist 0x3000).spanHeld sl (0x3000 + 64 * i) 64 = true) ∧ (dist 0x3000).resident sl 0x3000 2112 = true)
    ∧ (dist 0x3000).here.csr.armed 1 2 = false := by decide +kernel
theorem witness_DistributionMovesAndExtraction_clean : (dist 0x3000).Clean ((dist 0x3000).localSpot 0x3000) 2112 :=
  Clean.intro rfl (by decide +kernel)
theorem witness_DistributionMovesAndExtraction_operands :
    PointsReady (dist 0x3000) [5] 0 false ∧ PointsReady (dist 0x3000) [5] 0 true ∧ PointsReady (dist 0x3000) [] 0 false := by
  refine ⟨⟨?_, ?_, ?_⟩, ⟨?_, ?_, ?_⟩, ⟨?_, ?_, ?_⟩⟩ <;> decide +kernel
/-- Tags: the same variables in the same frame are joint; variables that are apart are independent. -/
theorem witness_DistributionArithmetic :
    (let t : Nat := 0x70003; tagMask t = tagMask t ∧ tagMask t ≠ 0 ∧ tagFrame t = tagFrame t) ∧ tagMask 0x70003 &&& tagMask 0x70004 = 0
    ∧ tagMask 0x70003 &&& tagMask 0x80003 ≠ 0 ∧ tagFrame 0x70003 ≠ tagFrame 0x80003 := by decide

/-- R258: the example's address names element (2, 7) of m5 of slot 3 on physical tile 77. -/
theorem test_window_place : (0xF04D53511C - 0xF000000000) / 0x1000000 = 77 ∧
    windowPlace (0xF04D53511C % 0x1000000) = .matrix 3 5 (8 * (4 * (32 * 2 + 7))) := by decide
/-! ## Witnesses: queues, boundaries, commands and the scheduler -/

/-- The words of an instruction at the program counter. -/
def coded (i : Instr) (s : State) : State := put [(0x10000, (encode i).flatMap (toBytes 4))] s
/-- The first of them. -/
def word1 (i : Instr) : Nat := (encode i).headD 0
theorem witness_SplittingIntoQueues :
    (base.slot sl).task.isSome ∧ (coded (.xcpy 3 1 2 0 0) base).fetch sl = .word (word1 (.xcpy 3 1 2 0 0)) none
    ∧ queuedEngine (word1 (.xcpy 3 1 2 0 0)) = some .x
    ∧ (let u := (coded (.xcpy 3 1 2 0 0) base).atWord sl (word1 (.xcpy 3 1 2 0 0)) none
       u.check (word1 (.xcpy 3 1 2 0 0)) none = .ok (.xcpy 3 1 2 0 0) ∧ (u.slot sl).breaksTooFar (word1 (.xcpy 3 1 2 0 0)) = false
       ∧ (u.slot sl).bundles = [] ∧ u.mayPush sl .x = true
       ∧ ∀ n ∈ replyField (word1 (.xcpy 3 1 2 0 0)) :: capturedFields (word1 (.xcpy 3 1 2 0 0)), (u.slot sl).isPending n = false)
    ∧ barMismatch (word1 (.xcpy 3 1 2 0 0)) 0 = false ∧ barMismatch (word1 (.xcpy 3 1 2 1 0)) 0 = true
    ∧ (∃ n ∈ replyField (word1 (.xcpy 3 1 2 0 0)) :: capturedFields (word1 (.xcpy 3 1 2 0 0)),
        ((at_ (fun v => { v with pending := [2] })).slot sl).isPending n = true)
    ∧ (at_ (withQ .x (List.replicate 32 (queued 0x20030420)))).mayPush sl .x = false
    ∧ queuedEngine (word1 (.vbrk 0 0 none)) = some .v ∧ (base.slot sl).breaksTooFar (word1 (.vbrk 0 0 none)) = true := by decide +kernel
theorem witness_SplittingIntoQueues_trap : queuedEngine 0x3F000000 = some .v ∧ base.check 0x3F000000 none = .trap 0x01 := by decide +kernel
theorem witness_BoundaryEvents :
    (let s := withHandler (at_ (fun v => { v with traps := [{ cause := 0x0B, val := 3 }] }))
     (s.slot sl).traps = [{ cause := 0x0B, val := 3 }] ∧ (s.slot sl).level = false ∧ s.hasHandler sl.part = true)
    ∧ (withClass 1 base).kclass sl ≠ 0 ∧ ((at_ kernelLevel).slot sl).level = true
    ∧ ((at_ (fun v => { v with csr := { v.csr with
        xdone := 1
        en := true
        uivec := 0x10000 } })).slot sl).deliverable = true ∧ (base.slot sl).deliverable = false
    ∧ (let s := withHandler (at_ (fun v => { v with conex := some 1 }))
       (s.slot sl).conex = some 1 ∧ bitOf (s.slot sl).csr.conecfg 3 = false ∧ (s.slot sl).level = false ∧ s.hasHandler sl.part = true)
    ∧ (let s := at_ (fun v => { v with
        conex := some 2
        csr := { v.csr with conecfg := 15 } })
       (s.slot sl).conex = some 2 ∧ bitOf (s.slot sl).csr.conecfg 3 = true) := by decide +kernel
/-- A wait of the slot, since cycle 0. -/
def waiting (k : WaitKind) (v : Slot) : Slot := { v with wait := some ⟨k, 0, 0x10000, 0x10004, 1, 0⟩ }
/-- The clock later. -/
def later (s : State) : State := { s with now := 5000 }
theorem witness_WaitsEndOrTimeOut :
    (let s := at_ (waiting (.waitc 3 0 0 1)); (s.slot sl).wait = some ⟨.waitc 3 0 0 1, 0, 0x10000, 0x10004, 1, 0⟩ ∧ s.counter sl 0 ≤ 0
      ∧ (later s).now ≥ 0 + 2 ^ (1 + 8) ∧ ¬0 + 2 ^ (1 + 8) ≤ s.now)
    ∧ 0 < (at_ (withQ .v [queued 0x20030420] ∘ waiting (.waitc 3 0 0 1))).counter sl 0
    ∧ (let s := at_ (fun v => { waiting (.waitf 3 0 1 true) v with ready := [(0, 2)] }); mget (s.slot sl).ready 0 0 ≠ 0)
    ∧ mget ((at_ (waiting (.waitf 3 0 1 true))).slot sl).ready 0 0 = 0
    ∧ (let s := at_ (waiting (.barw 3 0 0 1))
       ∃ g, s.gangOf sl = some g ∧ mget g.completed 0 0 ≤ 0 ∧ 0 < mget { g with completed := [(0, 1)] }.completed 0 0) := by
  refine ⟨by decide +kernel, by decide +kernel, by decide +kernel, by decide +kernel, _, rfl, by decide +kernel, by decide +kernel⟩
/-- A command that has executed, with a reply to s3, a flag, a barrier object and an event. -/
def executedCmd : Cmd := { command .x with
  executed := true
  rd := 3
  reply := some 7
  flags := [(sl, 4)]
  bar := some 0x1000
  ui := true }
theorem witness_CommandCompletion :
    ({ base with cmds := [executedCmd] } : State).cmd? executedCmd.id = some executedCmd ∧ executedCmd.executed = true
    ∧ executedCmd.remote = [] ∧ executedCmd.epi = none ∧ base.here.csr.armed 1 2 = false ∧ executedCmd.moves = [] ∧ executedCmd.regMoves = [] ∧ (command .x).executed = false
    ∧ ({ base with cmds := [command .x] } : State).cmd? (command .x).id = some (command .x)
    ∧ (let s : State := { base with cmds := [executedCmd] }
       let t := put [(s.window sl.tileId + 0x1004, [3])] s
       ofBytes ((List.range 4).map (fun k => Memory.read s.mem (s.window sl.tileId + 0x1000 + 4 + k))) ≤ 1
       ∧ 1 < ofBytes ((List.range 4).map (fun k => Memory.read t.mem (t.window sl.tileId + 0x1000 + 4 + k)))) := by decide +kernel
/-- Streams of the slot: q0 reads and holds nothing yet, q1 writes and holds one element. -/
def flowing : State := at_ (fun v => { v with regs := { v.regs with streams :=
  [(0, ⟨false, 0x1000, [64, 1, 1, 1], [1, 0, 0, 0], 0, [], [], 0, 0, []⟩),
   (1, ⟨true, 0x1000, [64, 1, 1, 1], [1, 0, 0, 0], 1, [], [(0, 7#32)], 0, 0, []⟩)] } })
theorem witness_StreamsMoveElements :
    (flowing.slot sl).task.isSome
    ∧ (∃ z, mfind (flowing.slot sl).regs.streams (0 : Fin 16) = some z ∧ z.write = false ∧ z.next + z.filled.length < z.count
        ∧ z.filled.length < 256 ∧ flowing.spanHeld sl (z.addr 0) 4 = true ∧ flowing.resident sl (z.addr 0) 4 = true ∧ z.out = []
        ∧ z.ext = [64, 1, 1, 1] ∧ z.str = [1, 0, 0, 0])
    ∧ (∃ z, mfind (flowing.slot sl).regs.streams (1 : Fin 16) = some z ∧ z.write = true ∧ z.out = [(0, 7#32)])
    ∧ (flowing.slot sl).csr.armed 1 2 = false :=
  ⟨rfl, ⟨_, rfl, rfl, by decide +kernel, by decide +kernel, by decide +kernel, by decide +kernel, rfl, rfl, rfl⟩, ⟨_, rfl, rfl, rfl⟩,
    by decide +kernel⟩
theorem witness_StreamsMoveElements_clean : flowing.Clean (flowing.window sl.tileId + 0x1000) 4 :=
  Clean.intro (by decide +kernel) (by decide +kernel)
/-- A block of one entry: a count and an entry of the vector queue at local address 0x3000. -/
def blockState : State :=
  put [(base.window sl.tileId + 0x3000, toBytes 8 1 ++ toBytes 4 0x20030420 ++ toBytes 20 0)]
    (at_ (withQ .v [{ (default : Entry) with kind := .renq 0x3000 sl }]))
/-- That entry being read. -/
def blockRead : State :=
  { blockState with cur := { slot := sl, engine := some .v, entry := { (default : Entry) with kind := .renq 0x3000 sl } } }
theorem witness_BlocksOfEntries :
    ((blockState.slot sl).seq .v).q[((blockState.slot sl).seq .v).pos]? = some { (default : Entry) with kind := .renq 0x3000 sl }
    ∧ blockState.sameGang sl sl = true ∧ blockState.spanHeld sl 0x3000 (8 + 24 * 1) = true ∧ blockState.resident sl 0x3000 (8 + 24 * 1) = true
    ∧ blockState.readNum (.eng sl .v) (blockState.window sl.tileId + 0x3000) 8 = 1
    ∧ blockRead.entryBad .v (0x20030420, 0, 0, 0) = false ∧ (blockState.slot sl).csr.armed 1 2 = false
    ∧ (blockState.readBytes (.eng sl .v) (blockState.window sl.tileId + 0x3000 + 8) (24 * 1)).take 4 = toBytes 4 0x20030420 := by
  decide +kernel
theorem witness_BlocksOfEntries_clean : blockState.Clean (blockState.window sl.tileId + 0x3000) (8 + 24 * 1) :=
  Clean.intro (by decide +kernel) (by decide +kernel)
/-- A chain whose block at 0x10000 holds one X entry. -/
def chained (c : Chain) : State :=
  put [(0x10028, [1]), (0x10040, toBytes 4 (word1 (.xcpy 0 0 0 0 0)))]
    (at_ (fun v => withQ .x [queued (word1 (.xchain 0 1 2 0))] { v with chain := some c }))
theorem witness_BlocksOfEntries_chain :
    (let c : Chain := { (default : Chain) with next := 0x10000 }
     let s := chained c
     (s.slot sl).chain = some c ∧ c.begun = false ∧ c.next % 64 = 0 ∧ s.chainPhys sl c.next 64 false = some (0x10000, false)
     ∧ (let hd := toBytes 64 (s.viewNum (.eng sl .x) 0 0 (Config.pick s.fresh 0x10000) 0x10000 64)
        blockNum hd 40 4 = 1 ∧ blockNum hd 44 20 = 0 ∧ blockNum hd 8 8 = 0)
     ∧ (s.chainPhys sl c.next (64 + 24 * 1) false).isSome ∧ s.entryBad .x (word1 (.xcpy 0 0 0 0 0), 0, 0, 0) = false
     ∧ chainForbids (word1 (.xcpy 0 0 0 0 0)) = false)
    ∧ (let c : Chain := { (default : Chain) with
        next := 0x10000
        begun := true
        paddr := 0x18000 }
       let s := chained c
       (s.slot sl).chain = some c ∧ c.begun = true ∧ c.entries = [] ∧ s.inflight sl = [] ∧ c.after = 0 ∧ s.copyFull sl = false ∧ c.paddr ≠ 0
       ∧ s.chainCounter sl c.paddr true = .inl 0x18000) := by decide +kernel
/-- A task that is ready. -/
def readyTask : Task := { placeTask with
  reqr := 0
  tcb := some 0x10000 }
def readyEntry : Ready := { (default : Ready) with tasks := [readyTask] }
/-- A partition's fields changed. -/
def admitting : State := later (base.modPart 0 (fun p => { p with ready := [readyEntry] }))
theorem witness_AdmissionOfTasks :
    (∃ v, admitting.part? 0 = some v ∧ v.resetting = false ∧ v.paused = false ∧ (candidates (admitting.admissible v))[0]? = some readyEntry
      ∧ readyEntry.tasks = [readyTask])
    ∧ (∃ k, mfind admitting.kernels readyEntry.kernel = some k ∧ k.part = 0
      ∧ ∀ va a, readyTask.tcb = some va → admitting.leasePhys k va = some a → a = 0x10000)
    ∧ admitting.fatal = none ∧ 0 < 4 * admitting.nclus 0 ∧ admitting.fits ⟨0, 0⟩ readyTask = true
    ∧ (∃ v, base.part? 0 = some v ∧ candidates (base.admissible v) = []) := by
  refine ⟨⟨_, rfl, by decide +kernel, by decide +kernel, by decide +kernel, rfl⟩, ⟨_, rfl, by decide +kernel, fun va a h => ?_⟩,
    by decide +kernel, by decide +kernel, by decide +kernel, ⟨_, rfl, by decide +kernel⟩⟩
  cases h
  intro h2
  exact Option.some.inj (h2.symm.trans (by decide +kernel : admitting.leasePhys (placeKernel) 0x10000 = some 0x10000))
theorem witness_ReplayAndFailureOfTasks :
    (∃ k0 k w, (base.slot sl).task = some k0 ∧ base.kernelOf sl = some k ∧ mfind base.kernels k0.kernel = some k
      ∧ base.part? k.part = some w ∧ k0.tcb = none)
    ∧ ((at_ (fun v => { v with ending := some .replay })).slot sl).ending = some .replay
    ∧ ((at_ (fun v => { v with ending := some (.fail { cause := 1, val := 0 }) })).slot sl).ending = some (.fail { cause := 1, val := 0 })
    ∧ base.inflight sl = [] ∧ ({ base with cmds := [command .x] } : State).inflight sl ≠ []
    ∧ (base.region sl 0).owner = some sl.slot ∧ (base.region sl 0).ralloc = false
    ∧ (withRegion 0 (fun r => { r with ralloc := true }) base).region sl 0 ≠ base.region sl 0 := by
  refine ⟨⟨_, _, _, rfl, rfl, rfl, rfl, rfl⟩, ?_⟩
  decide +kernel
/-- A core that has stalled on the full vector queue of its own slot since cycle 0. -/
def stalled (x : Stall) : State := at_ (fun v => withQ .v (List.replicate 32 (queued 0x20030420)) { v with stall := some x })
/-- That stall since cycle 0, with a token after some hops, or one that came back. -/
def probing (token : List Party) (hops moved : Nat) (back : Bool) : Stall :=
  { (default : Stall) with
    target := sl
    engine := .v
    token := token
    hops := hops
    moved := moved
    probe := back }
theorem witness_DeadlockProbe :
    ([probing [] 0 0 false, probing [.core sl] 7 0 true].all fun x =>
      decide (((stalled x).slot sl).stall = some x) && decide ((stalled x).now < x.probed + 4096)
        && decide (x.probed + 4096 ≤ (later (stalled x)).now))
    ∧ (probing [.core sl] 7 5000 false).moved = (later base).now
    ∧ (let x := probing [.core sl] 0 0 true
       let s := { stalled x with now := 100 }
       s.now < x.probed + 4096 ∧ x.token ≠ [] ∧ x.moved < s.now ∧ x.probe = true ∧ ¬7 ≤ x.hops
       ∧ (.queue sl .v) ∈ s.edges (.core sl) ∧ (.core sl) ∉ s.edges (.core sl))
    ∧ (later (stalled (probing [] 0 0 false))).now < (probing [] 0 0 false).probed + 8192 := by decide +kernel
/-- Slots 0 and 1 are ready for the vector engine. -/
def drawing (f : Kiln → Kiln) : State :=
  let s := base.modKiln sl.tileId .v f
  { s with cur := { s.cur with ready := [0, 1] } }
theorem witness_KilnsDrawAndGrant :
    (base.part? sl.tileId.part).isSome ∧ ((drawing id).kiln sl.tileId .v).grant = none ∧ ((drawing id).kiln sl.tileId .v).stale = none
    ∧ (drawing id).cur.ready.contains 0 = true
    ∧ (let s := drawing (fun k => { k with grant := some ⟨0, 0⟩ })
       (s.kiln sl.tileId .v).grant = some ⟨0, 0⟩ ∧ ¬0 + quantum .v ≤ s.now ∧ Engine.v ∉ (s.slot sl).yield ∧ 0 + quantum .v ≤ (later s).now)
    ∧ ((drawing (fun k => { k with stale := some 0 })).kiln sl.tileId .v).stale ≠ none := by decide +kernel
/-- Region 2 of the tile belongs to slot 1; slot 0 waits for a region. -/
def spillState : State := withRegion 2 (fun r => { r with owner := some 1 }) (at_ (waiting (.ralloc 3 0)))
/-- Slot 0 wants its copy of region 2, which is free. -/
def refillState : State := withRegion 2 (fun r => { r with
  owner := none
  spilled := [⟨0, [(8, 7)], [], 0, false, some 0⟩] }) base
theorem witness_RegionsSpillAndRefill :
    (spillState.part? sl.part).isSome ∧ (spillState.slot sl).wait = some ⟨.ralloc 3 0, 0, 0x10000, 0x10004, 1, 0⟩
    ∧ (∀ j, j < 16 → spillState.freeFor sl j = false) ∧ spillState.cleared sl = none
    ∧ spillState.spillable sl.tileId 2 = true ∧ (spillState.region sl 2).owner ≠ some sl.slot ∧ (spillState.region sl 2).spilled = []
    ∧ (base.slot sl).wait = none
    ∧ (refillState.slot sl).csr.armed 1 0 = false ∧ (∃ c, (refillState.region sl 2).firstWant = some c ∧ c.slot = sl.slot ∧ Memory.wf c.cells = true ∧ (∀ y ∈ c.cells, y.1 < 0x40000))
    ∧ (∀ y ∈ (refillState.tile sl.tileId).spilling, y.region ≠ 2) ∧ (refillState.region sl 2).owner = none
    ∧ refillState.mem = [] ∧ (base.region sl 2).firstWant = none := by
  refine ⟨?_, ?_, ?_, ?_, ?_, ?_, ?_, ?_, ?_, ⟨_, rfl, ?_, ?_, ?_⟩, ?_, ?_, ?_, ?_⟩ <;> decide +kernel
theorem witness_RegionsSpillAndRefill_clean (j : Nat) : spillState.Clean (spillState.window sl.tileId + j * 0x40000) 0x40000 :=
  Clean.intro (by decide +kernel) (by simp [State.poisonedIn, show spillState.poison = [] by decide +kernel])
/-- A page table for the function: pages of 2 MiB from address 0 on, all over the 32 frames from 0x4000000 on. -/
def pinnable : State :=
  let owned : Frame := { (default : Frame) with state := 1, fn := 1, ctx := 0, tag := 1 }
  { base with
    mem := [(0x100000, 3), (0x100002, 0x11), (0x110000, 3), (0x110001, 0x10), (0x110002, 0x11), (0x111000, 3), (0x111001, 0x20),
      (0x111002, 0x11), (0x111008, 3), (0x111009, 0x20), (0x11100A, 0x11), (0x111010, 3), (0x111011, 0x20), (0x111012, 0x11)]
      ++ (List.range 32).flatMap (fun i => [(0x112000 + 8 * i, 0x0D), (0x112003 + 8 * i, 4)])
    frames := (0x10, owned) :: (0x11, owned) :: (List.range 32).map (fun i => (0x400 + i, owned))
    currencies := [(1, ⟨0, 1, 1⟩)]
    fns := mset base.fns 1 { base.fn 1 with
      part := some 0
      top := some 1
      regs := [(0x1200, 0x100000), (0x1228, 1)] } }
theorem pin_levels (i : Nat) (h : i < 2304) : field (0x10000 * i) 44 13 = 0 ∧ field (0x10000 * i) 35 9 = 0
    ∧ field (0x10000 * i) 26 9 = i / 1024 ∧ field (0x10000 * i) 21 5 = i / 32 % 32 := by
  unfold field
  omega
theorem pin_tables : (∀ j, j < 3 → pinnable.readNum .bank (0x111000 + 8 * j) 8 = 0x112003)
    ∧ (∀ j, j < 32 → pinnable.readNum .bank (0x112000 + 8 * j) 8 = 0x400000D) := by decide +kernel
theorem walk_table {s : State} {fn va lo n next size t e nx : Nat} {lf : Bool} {ls} (h : s.readNum .bank (t + 8 * field va lo n) 8 = e)
    (b : (bitOf e 0 && bitOf e 1 && field e 2 6 == 0 && field e 52 12 == 0 && field e 8 44 * 256 == nx && nx % next == 0) = true)
    (f : s.frameOf fn nx = true) : s.walkFrom fn va ((lo, n, true, lf, next, size) :: ls) t = s.walkFrom fn va ls nx := by
  simp only [Bool.and_eq_true, beq_iff_eq] at b
  obtain ⟨⟨⟨⟨⟨b0, b1⟩, b2⟩, b3⟩, b4⟩, b5⟩ := b
  simp [State.walkFrom, h, b0, b1, b2, b3, b4, b5, f]
theorem walk_leaf {s : State} {fn va lo n next size t e : Nat} {tab : Bool} {ls} (h : s.readNum .bank (t + 8 * field va lo n) 8 = e)
    (b : (bitOf e 0 && !bitOf e 1 && !leafBad e size) = true) :
    s.walkFrom fn va ((lo, n, tab, true, next, size) :: ls) t = .leaf (t + 8 * field va lo n) e size := by
  simp only [Bool.and_eq_true, Bool.not_eq_true'] at b
  simp [State.walkFrom, h, b.1.1, b.1.2, b.2]
theorem pin_walk (i : Nat) (h : i < 2304) :
    pinnable.walkFrom 1 (0x10000 * i) walkLevels 0x100000 = .leaf (0x112000 + 8 * (i / 32 % 32)) 0x400000D 0x200000 := by
  obtain ⟨a, b, c, d⟩ := pin_levels i h
  rw [← d, walkLevels, walk_table (e := 0x110003) (nx := 0x110000) (by rw [a]; decide +kernel) (by decide) (by decide +kernel),
    walk_table (e := 0x111003) (nx := 0x111000) (by rw [b]; decide +kernel) (by decide) (by decide +kernel),
    walk_table (e := 0x112003) (nx := 0x112000) (by rw [c]; exact pin_tables.1 _ (by omega)) (by decide) (by decide +kernel),
    walk_leaf (e := 0x400000D) (by rw [d]; exact pin_tables.2 _ (by omega)) (by decide)]
theorem pin_frame : ∀ o, o < 32 → pinnable.frameOf 1 (0x4000000 + 0x10000 * o) = true := by decide +kernel
theorem mapM_isSome {α β : Type} (f : α → Option β) : ∀ l : List α, (∀ x ∈ l, (f x).isSome) → (l.mapM f).isSome
  | [], _ => rfl
  | x :: xs, h => by
    obtain ⟨y, hy⟩ := Option.isSome_iff_exists.mp (h x (by simp))
    obtain ⟨z, hz⟩ := Option.isSome_iff_exists.mp (mapM_isSome f xs (fun w hw => h w (by simp [hw])))
    simp [List.mapM_cons, hy, hz]
theorem pin_area (n : Nat) (h : n ≤ 0x9000000) : (pinnable.pinArea 1 0x100000 0 n).isSome := by
  unfold State.pinArea
  rw [if_neg (by simp; omega)]
  refine mapM_isSome _ _ (fun i hi => ?_)
  have hi := List.mem_range.mp hi
  have e : (pageOfLeaf (0x10000 * i) (0x112000 + 8 * (i / 32 % 32)) 0x400000D 0x200000 0).va = 0x200000 * (i / 32) := by
    simp [pageOfLeaf]; omega
  have g := pin_frame (i % 32) (by omega)
  have q : 0x10000 * i - 0x200000 * (i / 32) = 0x10000 * (i % 32) := by omega
  have w : pinnable.walkRoot 1 0x100000 (0x10000 * i) = .leaf (0x112000 + 8 * (i / 32 % 32)) 0x400000D 0x200000 := by
    rw [State.walkRoot, if_neg (by omega)]; exact pin_walk i (by omega)
  simp only [Nat.zero_add, w, e, q]
  simpa [pageOfLeaf, Page.shadow, State.backing, bitOf, field] using g
theorem witness_ContextsAreCreated : (pinnable.checkDescriptor 1 (pinnable.descriptor 1)).isSome
    ∧ (pinnable.ctx 1 1).state = 0 ∧ bitOf (pinnable.reg 1 0x1118) 0 = false := by
  obtain ⟨a, ha⟩ := Option.isSome_iff_exists.mp (pin_area 512 (by decide))
  obtain ⟨b, hb⟩ := Option.isSome_iff_exists.mp (pin_area (2048 * 1) (by decide))
  obtain ⟨c, hc⟩ := Option.isSome_iff_exists.mp (pin_area (0x200000 * 1) (by decide))
  obtain ⟨d, hd⟩ := Option.isSome_iff_exists.mp (pin_area (0x480000 * 32 * 1) (by decide))
  have p : (pinnable.fn 1).part = some 0 := by decide +kernel
  have n : pinnable.nclus 0 = 1 := by decide +kernel
  generalize hx : pinnable.descriptor 1 = x
  have v : blockNum x 0 8 = 0x100000 ∧ blockNum x 8 8 = 0 ∧ blockNum x 16 8 = 0 ∧ blockNum x 24 8 = 0 ∧ blockNum x 32 8 = 0
      ∧ blockNum x 40 2 = 1 ∧ blockNum x 44 1 = 0 ∧ blockNum x 45 3 = 0 ∧ (x.drop 52).any (fun x => x != 0) = false := by
    rw [← hx]; decide +kernel
  obtain ⟨v0, v1, v2, v3, v4, v5, v6, v7, v8⟩ := v
  have f : pinnable.frameOf 1 0x100000 = true := by decide +kernel
  have o : pinnable.ownNode 1 1 = true := by decide +kernel
  refine ⟨?_, by decide +kernel, by decide +kernel⟩
  unfold State.checkDescriptor
  simp only [p, n, v0, v1, v2, v3, v4, v5, v6, v7, v8, f, o, ha, hb, hc, hd]
  rfl
/-! ## Witnesses: kernels, contexts, partitions -/

/-- Queue 0 of the context with a record in its ring: one gang of one task, a table of one range with its page. -/
def launchMem (big : Bool) : List Host.Cell :=
  [(0x10402, 1), (0x10411, 6), (0x10412, 1), (0x10419, 7), (0x1041A, 1)] ++ (if big then [(0x10432, 40)] else []) ++
    [(0x1043A, 1), (0x1043C, 1), (0x10702, 1), (0x10708, 1), (0x20008, 1), (0x20010, 2), (0x20011, 1), (0x20019, 4),
    (0x2001A, 1), (0x20021, 8), (0x20022, 1), (0x100000, 3), (0x100002, 17), (0x110000, 3), (0x110001, 16), (0x110002,
    17), (0x111000, 3), (0x111001, 32), (0x111002, 17), (0x112000, 3), (0x112001, 33), (0x112002, 17), (0x112108, 13),
    (0x11210A, 1), (0x112110, 13), (0x112112, 2)]
def launching (big : Bool) : State := ({ mapped with mem := launchMem big }.modKernel 0 (fun k => { k with queue := 1 })).modPart 0
  (fun p => { p with keys := 1 })
/-- The kernel that the record describes. -/
def launchedKernel (big : Bool) : Kernel := { (default : Kernel) with
  fn := 1
  entry := 0x10000
  gangSize := if big then 41 else 1
  gangs := 1
  table := List.replicate 32 0
  ranges := [{ base := 0x10000, len := 0x10000, rights := 1, cls := 0, shadow := false }] }
theorem mapM_map {α β : Type} (f : α → Option β) (g : α → β) : ∀ l : List α, (∀ x ∈ l, f x = some (g x)) → l.mapM f = some (l.map g)
  | [], _ => rfl
  | x :: xs, h => by simp [List.mapM_cons, h x (by simp), mapM_map f g xs (fun w hw => h w (by simp [hw]))]
theorem launch_page (b : Bool) (i : Nat) (h : i < 0x10000) :
    (launching b).residentPage 1 0 (0x10000 + i) 0 = some { placePage with leaf := 0x112108 } := by
  have q : field (0x10000 + i) 44 13 = 0 ∧ field (0x10000 + i) 35 9 = 0 ∧ field (0x10000 + i) 26 9 = 0 ∧ field (0x10000 + i) 21 5 = 0
      ∧ field (0x10000 + i) 16 5 = 1 := by unfold field; omega
  obtain ⟨q1, q2, q3, q4, q5⟩ := q
  have w : (launching b).walk 1 0 (0x10000 + i) = .leaf 0x112108 0x1000D 0x10000 := by
    rw [State.walk, State.walkRoot, if_neg (by omega), show ((launching b).ctx 1 0).ptroot = 0x100000 by cases b <;> decide +kernel, walkLevels,
      walk_table (e := 0x110003) (nx := 0x110000) (by rw [q1]; cases b <;> decide +kernel) (by decide) (by cases b <;> decide +kernel),
      walk_table (e := 0x111003) (nx := 0x111000) (by rw [q2]; cases b <;> decide +kernel) (by decide) (by cases b <;> decide +kernel),
      walk_table (e := 0x112003) (nx := 0x112000) (by rw [q3]; cases b <;> decide +kernel) (by decide) (by cases b <;> decide +kernel),
      walk_table (e := 0x112103) (nx := 0x112100) (by rw [q4]; cases b <;> decide +kernel) (by decide) (by cases b <;> decide +kernel),
      walk_leaf (e := 0x1000D) (by rw [q5]; cases b <;> decide +kernel) (by decide), q5]
  have p : pageOfLeaf (0x10000 + i) 0x112108 0x1000D 0x10000 0 = { placePage with leaf := 0x112108 } := by
    simp only [pageOfLeaf, show (0x10000 + i) / 0x10000 * 0x10000 = 0x10000 by omega]
    rfl
  simp only [State.residentPage, w, p]
  cases b <;> decide +kernel
theorem launch_read (b : Bool) (a n : Nat) (h : 0x10000 ≤ a) (k : a + n ≤ 0x20000) : (launching b).ctxRead 1 0 a n
    = some ((List.range n).map (fun i => (launching b).readByte .bank (a + i))) := by
  refine mapM_map _ _ _ (fun i hi => ?_)
  have hi := List.mem_range.mp hi
  have e : a + i = 0x10000 + (a + i - 0x10000) := by omega
  have l : a + i - 0x10000 < 0x10000 := by omega
  generalize a + i - 0x10000 = j at e l
  simp only [e, launch_page b j l]
  exact congrArg (fun x => some ((launching b).readByte .bank x)) (show 0x10000 + 0 + (0x10000 + j - 0x10000) = 0x10000 + j by omega)
def launchRecord (b : Bool) : List Byte :=
  toBytes 8 0x10000 ++ List.replicate 8 0 ++ toBytes 8 0x10600 ++ toBytes 8 0x10700 ++ List.replicate 18 0
    ++ toBytes 8 (if b then 40 else 0) ++ toBytes 6 0x10001
theorem launch_parse (b : Bool) : (launching b).parseLaunch 0 1 0 0 0 0x10400 = some (launchedKernel b) := by
  have r : (List.range 64).map (fun i => (launching b).readByte .bank (0x10400 + i)) = launchRecord b := by
    cases b <;> decide +kernel
  rw [State.parseLaunch, launch_read b _ _ (by decide) (by decide), r]
  have t : (launching b).ctxRead 1 0 0x10700 16 = some [0, 0, 1, 0, 0, 0, 0, 0, 1, 0, 0, 0, 0, 0, 0, 0] := by
    rw [launch_read b _ _ (by decide) (by decide)]; cases b <;> decide +kernel
  have i : (launching b).ctxRead 1 0 0x10600 32 = some (List.replicate 32 0) := by
    rw [launch_read b _ _ (by decide) (by decide)]; cases b <;> decide +kernel
  generalize hx : launchRecord b = x
  have v : launchLimits x = true ∧ blockNum x 24 8 = 0x10700 ∧ 16 * blockNum x 60 1 = 16 ∧ blockNum x 16 8 = 0x10600
      ∧ 32 * blockNum x 58 2 = 32 := by rw [← hx]; cases b <;> decide +kernel
  obtain ⟨v1, v2, v3, v4, v5⟩ := v
  simp only [Option.bind_some, v1, v2, v3, v4, v5, t, i]
  rw [← hx]
  cases b <;> decide +kernel
/-- A partition reset found the queue at HEAD 1. -/
def replaying : State := (launching false).modPart 0 (fun p => { p with replay := [(1, 0, 0, 1)] })
theorem launch_noReplay : (replaying.part? 0).map (fun v => (v.replayTo 1 0 0, replaying.mayNotReplay v 1 0 0 0 0x10400)) = some (1, true)
    ∧ ((launching false).part? 0).map (fun v => (launching false).mayNotReplay v 1 0 0 0 0x10400) = some false
    ∧ replaying.startable 0 = [(1, 0, 0)] := by
  have r : ∀ k, (replaying.ctxRead 1 0 0x10400 64).map (fun b => !bitOf (blockNum b 53 1) 2) = some k → k = true →
      (replaying.part? 0).map (fun v => (v.replayTo 1 0 0, replaying.mayNotReplay v 1 0 0 0 0x10400)) = some (1, true) := by
    intro k h e
    subst e
    obtain ⟨b, hb, hc⟩ := Option.map_eq_some_iff.mp h
    have p : replaying.part? 0 = some { placePart with
        keys := 1
        replay := [(1, 0, 0, 1)] } := by decide +kernel
    simp only [p, State.mayNotReplay, hb, hc, Option.map_some]
    rfl
  refine ⟨r _ ?_ rfl, ?_, ?_⟩
  all_goals decide +kernel
theorem witness_LaunchesOfKernels_queues (b : Bool) :
    ((launching b).ctx 1 0).state ≠ 0 ∧ ((launching b).ctx 1 1).state = 0
    ∧ (∃ Q, (launching b).launchQueue 1 0 0 = some Q ∧ Q.tail ≤ 2 ∧ 2 ≤ Q.head + 2 ^ Q.cap ∧ Q.feed = false ∧ Q.en = true
      ∧ Q.record Q.head = 0x10400 ∧ Q.head = 0) := by
  refine ⟨?_, ?_, ⟨0x20000, 0, 1, 2, true, false, 0x10400, 0x10800, 0⟩, ?_, by decide, by decide, rfl, rfl, rfl, rfl⟩
    <;> cases b <;> decide +kernel
theorem witness_LaunchesOfKernels (b : Bool) :
    (∃ v, (launching b).part? 0 = some v ∧ v.resetting = false ∧ v.paused = false ∧ ∀ r ∈ v.ready, r.tasks.length ≤ 4)
    ∧ (launching b).fatal = none ∧ (launching b).startable 0 = [(1, 0, 0)] ∧ 4 * (launching b).nclus 0 = 4
    ∧ (launching b).firstBadRange (launchedKernel b) = none
    ∧ (launching b).absentPages (launchedKernel b) = [] ∧ (launching b).groupLocked (launchedKernel b) = false
    ∧ ({ launching b with classLocks := [0] } : State).groupLocked (launchedKernel b) = true
    ∧ (let s := (launching b).modPart 0 (fun p => { p with keys := 0 }); s.firstBadRange (launchedKernel b) = some 0)
    ∧ (launching b).parseLaunch 0 1 0 0 0 0x30000 = none := by
  refine ⟨⟨_, rfl, rfl, rfl, ?_⟩, rfl, ?_⟩ <;> cases b <;> decide +kernel
/-- The frames of the kernel's page keep their key. -/
theorem witness_LaunchesOfKernels_kept (b : Bool) : ∀ q ∈ ((launching b).pagesOf (launchedKernel b) 0).mapped,
    ∀ a ∈ q.1.frames, ((launching b).frame a).state = 1
      ∧ ((launching b).frame a).keyVal = ((mfind (launching b).mp.keySlots q.1.key).map (·.2)).getD 0 := by
  cases b <;> decide +kernel
/-- A page request of the kernel waits for an answer; the tag says whether it is stale. -/
def asking (tag : Nat) : State :=
  ((mapped.modKernel 0 (fun k => { k with phase := 0 })).modFn 1 (fun f => { f with groups := [{ (default : PageReq) with
    group := 5
    kernel := 0
    ctx := 0
    tag := tag
    page := 0x10000 }] }))
theorem witness_LaunchesOfKernels_idle : (∀ e ∈ (asking 1).kernels, e.1 ≠ 0 → e.2.fn = 1 → e.2.phase ≠ 0)
    ∧ ∀ e ∈ ({ asking 2 with kernels := [(0, placeKernel)] } : State).kernels, e.2.fn = 1 → e.2.phase ≠ 0 := by decide +kernel
theorem witness_LaunchesOfKernels_answers :
    (∃ g, (((asking 1).fn 1).groups.find? (fun x => x.group == 5)) = some g ∧ g.tag = ((asking 1).ctx 1 g.ctx).tag
      ∧ ((asking 1).ctx 1 g.ctx).state = 1
      ∧ ∃ k, mfind (asking 1).kernels g.kernel = some k ∧ k.phase = 0 ∧ k.refused = none ∧ k.fn = 1 ∧ k.ctx = g.ctx)
    ∧ (∃ g, (((asking 2).fn 1).groups.find? (fun x => x.group == 5)) = some g ∧ g.tag ≠ ((asking 2).ctx 1 g.ctx).tag) :=
  ⟨⟨_, rfl, rfl, rfl, _, rfl, rfl, rfl, rfl, rfl⟩, _, rfl, by decide⟩
/-- The kernel has no task any more, in phase 1 or 3. -/
def completing (ph : Nat) : State := ({ mapped with slots := [] } : State).modKernel 0 (fun k => { k with phase := ph })
theorem witness_LaunchesOfKernels_completion :
    (∃ k v lq pg, mfind (completing 3).kernels 0 = some k ∧ ¬k.phase ≤ 1 ∧ (completing 3).groupsOf 0 k = [] ∧ k.phase = 3
      ∧ k.lf = false ∧ ((completing 3).ctx k.fn k.ctx).state ≠ 5 ∧ (completing 3).part? k.part = some v ∧ v.spawned = []
      ∧ (completing 3).launchQueue k.fn k.ctx k.queue = some lq
      ∧ (completing 3).residentPage k.fn k.ctx (lq.entry k.index) 0 = some pg ∧ pg.bk = false)
    ∧ (∃ k, mfind (completing 1).kernels 0 = some k ∧ k.phase = 1 ∧ (completing 1).kernelBusy 0 k = false
      ∧ ((completing 1).part? k.part).isSome)
    ∧ ∃ k, mfind mapped.kernels 0 = some k ∧ k.phase ≤ 1 ∧ mapped.kernelBusy 0 k = true := by
  refine ⟨⟨{ placeKernel with phase := 3 }, placePart, ⟨0x20000, 0, 0, 2, true, true, 0x10400, 0x10800, 0⟩,
    { placePage with leaf := 0x112108 }, ?_⟩, ⟨placeKernel, ?_⟩, placeKernel, ?_⟩ <;> decide +kernel
/-- The context in another state, with a command register. -/
def ctxIn (f : Ctx → Ctx) (s : State) : State := s.modCtx 1 0 f
/-- A saved task of the context. -/
def savedTask : Saved := { (default : Saved) with
  tile := 0
  slotNo := 0
  slot := { (default : Slot) with task := some placeTask } }
/-- The mode of the context's gang, while it is being preempted. -/
def preempting (m : Nat) : State := ctxIn (fun x => { x with
  state := 2
  modes := [(base.gangNo sl, (m, base.modeCluster sl))] }) base
/-- A context killed. -/
def killed : State := ctxIn (fun x => { x with state := 5 }) base
/-- A context being resumed, with a task to restore or none. -/
def resuming : State := ctxIn (fun x => { x with
  state := 4
  pinned := [(base.imageVa 1 0 sl / 0x10000, 0x20000)]
  saved := [savedTask] }) { base with
    slots := []
    mem := [(0x20002 + base.imageVa 1 0 sl % 0x10000, 1), (0x20010 + base.imageVa 1 0 sl % 0x10000, 1)] }
theorem witness_ContextsSavedAndKilled :
    bitOf (base.reg 1 0x1118) 0 = false ∧ bitOf ((base.setReg 1 0x1118 1).reg 1 0x1118) 0 = true
    ∧ (∀ d, d < 8 → (base.ctx 1 d).state ≠ 5) ∧ (killed.ctx 1 0).state = 5
    ∧ (base.setReg 1 0x1118 1).commandIs 1 1 0 = false ∧ (base.ctx 1 0).state = 1 ∧ base.fnResetting 1 = false
    ∧ killed.fnResetting 1 = false ∧ (killed.fn 1).flr = false
    ∧ base.slotsOf 1 0 = [sl] ∧ ({ base with slots := [] } : State).slotsOf 1 0 = []
    ∧ (let s := base.setReg 1 0x1228 0x100000000; s.checkDescriptor 1 (s.descriptor 1) = none) ∧ (base.ctx 1 1).state = 0
    ∧ (base.part? (base.partOfFn 1)).isSome ∧ (base.gangOf sl).isSome
    ∧ (base.kernelOf sl).map (fun k => (k.fn, k.ctx)) = some (1, 0) := by decide +kernel
theorem witness_ContextsSavedAndKilled_modes :
    (let s := preempting 1
     mfind (s.ctx 1 0).modes (s.gangNo sl) = some (1, s.modeCluster sl) ∧ (s.ctx 1 0).started + (s.ctx 1 0).deadline ≤ s.now
     ∧ (s.slot sl).ending = none
     ∧ ¬((ctxIn (fun x => { x with deadline := 9 }) s).ctx 1 0).started + ((ctxIn (fun x => { x with deadline := 9 }) s).ctx 1 0).deadline
        ≤ s.now)
    ∧ (let s := preempting 2
       (s.slot sl).task.map (fun k => ((s.ctx 1 0).modeOf k.gang).1) = some 2 ∧ s.settled sl = true ∧ s.flips = []
       ∧ ({ s with cmds := [command .x] } : State).settled sl = false)
    ∧ (let s := preempting 3
       (s.slot sl).task.map (fun k => ((s.ctx 1 0).modeOf k.gang).1) = some 3 ∧ s.gangSlots sl = [sl] ∧ s.inflight sl = []
       ∧ (s.kernelOf sl).map (fun k => (s.part? k.part).isSome) = some true) := by decide +kernel
theorem witness_ContextsSavedAndKilled_resume :
    ((ctxIn (fun x => { x with state := 3 }) base).ctx 1 0).auto = false
    ∧ (let s := resuming
       s.held (s.partOfFn 1) = false ∧ (s.ctx 1 0).state = 4 ∧ (s.ctx 1 0).saved = [savedTask]
       ∧ s.gangPlaces (s.partOfFn 1) 1 0 [savedTask] = some [(s.asWritten 1 0 savedTask, sl)])
    ∧ (let s := ctxIn (fun x => { x with state := 4 }) base; (s.ctx 1 0).saved = []) := by decide +kernel
/-- A gang that has fitted no tiles since cycle 0. -/
def unplaced : Ready := ⟨0, 0, 0, 0, 1, List.replicate 5 placeTask, some 0, none⟩
/-- The slice of the context has run out, and a task of another context has waited for ten microseconds with no place. -/
def sliced : State :=
  let s := base.modPart 0 (fun p => { p with ready := [unplaced] })
  { ctxIn (fun x => { x with slice := 10 }) s with
    kernels := mset s.kernels 1 { placeKernel with ctx := 1 }
    now := 21000 }
theorem witness_ContextsSavedAndKilled_slice :
    (sliced.ctx 1 0).slice ≠ 0 ∧ (sliced.ctx 1 0).ran + 2100 * (sliced.ctx 1 0).slice ≤ sliced.now ∧ (base.ctx 1 0).slice = 0
    ∧ ∃ v, sliced.part? (sliced.partOfFn 1) = some v ∧ ∃ r k1, r ∈ v.ready ∧ (∃ u, r.unfit = some u ∧ u + 21000 ≤ sliced.now)
      ∧ sliced.place (sliced.partOfFn 1) r.tasks 0 = none ∧ mfind sliced.kernels r.kernel = some k1 ∧ ¬(k1.fn = 1 ∧ k1.ctx = 0) := by
  refine ⟨?_, ?_, ?_, _, rfl, unplaced, { placeKernel with ctx := 1 }, ?_, ⟨0, rfl, ?_⟩, ?_⟩ <;> decide +kernel
/-- The function asks for a span. -/
def spanOf (b n : Nat) (s : State) : State := (s.setReg 1 0x1108 b).setReg 1 0x1110 n
theorem witness_LeasesFramesAndCurrencies :
    (let s := spanOf 0x10000 0x10000 mapped
     bitOf (s.reg 1 0x1118) 0 = false ∧ (∀ d, d < 8 → (s.ctx 1 d).state ≠ 5) ∧ (s.ctx 1 0).state = 1 ∧ s.fnResetting 1 = false ∧ s.cmds = []
     ∧ ∃ k p y, mfind s.kernels 0 = some k ∧ k.fn = 1 ∧ k.ctx = 0 ∧ k.phase = 1 ∧ 0 ∉ k.revoked ∧ k.ranges[0]? = some y
        ∧ 0x10000 < y.base + y.len ∧ y.base < 0x10000 + 0x10000 ∧ p ∈ k.pages ∧ p.range ∉ k.revoked
        ∧ 0x10000 < p.va + p.size ∧ p.va < 0x20000 ∧ k.inRange 0 0x10000 = true)
    ∧ ¬((spanOf 0x10010 0x10000 mapped).reg 1 0x1108 % 0x10000 = 0) := by
  refine ⟨⟨?_, ?_, ?_, ?_, ?_, placeKernel, placePage, _, ?_, ?_, ?_, ?_, ?_, rfl, ?_⟩, ?_⟩ <;> decide +kernel
/-- The span of a page that no kernel holds, in a frame that is not pinned. -/
def releasing : State := ctxIn (fun x => { x with pinned := [] }) (spanOf 0x20000 0x10000 mapped)
theorem witness_LeasesFramesAndCurrencies_frames :
    (∀ e ∈ releasing.kernels, ∀ p ∈ e.2.pages, ¬0x20000 < p.va + p.size
      ∧ ∀ a ∈ p.frames, ∀ q ∈ (releasing.pagesFrom 1 0 0 0x30000 1 0x20000).mapped, a ∉ q.1.frames)
    ∧ (∃ q ∈ (releasing.pagesFrom 1 0 0 0x30000 1 0x20000).mapped, 0x20000 ∈ q.1.frames) ∧ releasing.pinnedFrame 0x20000 = false
    ∧ (let r := releasing.frame 0x20000; r.state = 1 ∧ r.fn = 1 ∧ r.ctx = 0 ∧ r.tag = (releasing.ctx 1 0).tag)
    ∧ (let s : State := { base with frames := [(1, { (default : Frame) with state := 2 })] }
       (s.frame (1 * 0x10000)).state = 2 ∧ s.cmds = [])
    ∧ (base.frame (1 * 0x10000)).state ≠ 2 := by decide +kernel
theorem witness_LeasesFramesAndCurrencies_nodes :
    (base.setReg 0 0x1110 33).freeNodes ≠ [] ∧ (base.setReg 0 0x1110 33).depthOf 5 0 < 3 ∧ base.hasNode 0 = true
    ∧ base.ownNode 1 0 = false ∧ (base.reg 0 0x1108) % 1024 = 0 ∧ (base.setReg 0 0x1110 33).reg 0 0x1110 % 32 ≠ 0
    ∧ (let s := ({ base with currencies := [(1, ⟨0, 1, 1⟩)] } : State).setReg 0 0x1108 1
       s.mayChange 0 1 = true ∧ (∀ e ∈ s.currencies, e.2.parent ≠ 1) ∧ ∀ g ∈ s.fns, ∀ y ∈ g.2.ctxs, y.2.node ≠ 1)
    ∧ base.mayChange 0 1 = false := by decide +kernel
/-- The management processor is up, every die's spare is in use, and registers of function 0 are set. -/
def managed (rs : List (Nat × Nat)) (s : State) : State :=
  { s with
    mp := { s.mp with
      up := true
      startStep := 6
      spareUsed := [0, 1, 2, 3] }
    regs := rs ++ s.regs }
/-- The function has no context. -/
def vacant : State := ctxIn (fun x => { x with state := 0 }) base
theorem free_clusters (s : State) (d b : Nat) (h : s.mp.spareUsed = [0, 1, 2, 3]) (n : s.mp.deadDies = [] ∧ s.mp.dead = [])
    (v : s.variant = 0) : s.freeClusters d b = (List.range 64).filter (fun c => (d == 0 || bitOf d (c / 16)) && (match s.holder c with
      | some (p, _) => p == b
      | none => true)) := by
  refine List.filter_congr (fun c hc => ?_)
  have hc := List.mem_range.mp hc
  have k : [0, 1, 2, 3].contains (c / 16) = true := by
    have : c / 16 = 0 ∨ c / 16 = 1 ∨ c / 16 = 2 ∨ c / 16 = 3 := by omega
    rcases this with e | e | e | e <;> rw [e] <;> rfl
  have u : s.usable c = true := by
    simp only [State.usable, h, k, n.1, n.2, State.ndie, v, Bool.or_true, Bool.and_true]
    simp
    omega
  rw [u]
  exact Bool.true_and _
/-- PCREATE of partition 1: as many clusters as asked, one set group on each die. -/
def creating (clusters : Nat) : State := managed [(0x1900, clusters + 0x10000), (0x1808, 1)] base
theorem witness_PartitionsAreMadeAndMoved_create :
    bitOf ((creating 1).reg 0 0x1818) 0 = false ∧ (creating 1).mp.up = true ∧ (creating 1).fatal = none ∧ (creating 1).part? 1 = none
    ∧ (let b := (creating 1).pmDescriptor
       blockNum b 0 1 = 1 ∧ blockNum b 1 1 = 0 ∧ blockNum b 2 1 = 1 ∧ blockNum b 3 5 = 0 ∧ (b.drop 20).all (fun x => x == 0) = true ∧ blockNum b 8 8 = 0)
    ∧ blockNum ((managed [] base).pmDescriptor) 0 1 = 0
    ∧ (creating 1).mayCommit [1] = true
    ∧ ((creating 1).freeClusters 0 1).take 1 = [1] ∧ (creating 1).takeGroups [1] 1 1 = some [0]
    ∧ (creating 1).takeGroups [1] 65 1 = none := by
  rw [free_clusters _ _ _ rfl ⟨rfl, rfl⟩ rfl]
  decide +kernel
/-- PMOVE of partition 0 within its dies. -/
def moving : State := managed [(0x1808, 1)] (vacant.modPart 0 (fun p => { p with setGroups := 1 }))
theorem witness_PartitionsAreMadeAndMoved :
    (∃ v, moving.part? 0 = some v ∧ v.resetting = false ∧ v.clusters = [0] ∧ v.dies = 0 ∧ v.setGroups = 1 ∧ v.keys = 0) ∧ bitOf (moving.reg 0 0x1818) 0 = false
    ∧ moving.ctxsOf 0 = [] ∧ base.ctxsOf 0 ≠ [] ∧ moving.frozen 0 = false ∧ moving.mayCommit [0] = true
    ∧ (moving.reg 0 0x1808) % 32 = 1 ∧ (∀ c, c < 8 → (moving.ctx 1 c).state = 0) ∧ (moving.fn 1).tdi = 0
    ∧ (base.ctx 1 0).state ≠ 0
    ∧ (∀ k, k < 64 → ¬(bitOf 0 k = true)) ∧ (∀ e ∈ moving.parts, e.1 = 0)
    ∧ (moving.freeClusters 0 0).take 1 = [0] ∧ moving.takeGroups [0] 1 0 = some [0] ∧ moving.takeGroups [0] 65 0 = none
    ∧ (let s := managed [(0x1810, 8)] vacant; s.reg 0 0x1810 = 8 ∧ s.ctxsOf 0 = [] ∧ s.frozen 0 = false) ∧ moving.reg 0 0x1810 = 0 := by
  rw [free_clusters _ _ _ rfl ⟨rfl, rfl⟩ rfl]
  refine ⟨⟨_, rfl, rfl, rfl, rfl, rfl, rfl⟩, ?_⟩
  decide +kernel
theorem witness_PartitionsAreMadeAndMoved_resetting :
    (let s := moving.modPart 0 (fun p => { p with resetting := true })
     (s.part? 0).map (·.resetting) = some true ∧ bitOf (s.reg 0 0x1818) 0 = false ∧ s.mp.up = true ∧ s.fatal = none) := by
  decide +kernel
/-- A layout that a commit has prepared, with every slot of the partition empty. -/
def prepared : State :=
  let l : Layout := ⟨0, false, [0], 0, 0, 1, [0], 0⟩
  let s := managed [] { vacant with slots := [] }
  { s with mp := { s.mp with
      jstate := 1
      layout := [l]
      digest := journalDigest 0 [l] } }
theorem witness_PartitionsAreMadeAndMoved_commit :
    prepared.mp.jstate = 1 ∧ prepared.mp.up = true ∧ prepared.mp.digest = journalDigest prepared.mp.lseq prepared.mp.layout
    ∧ prepared.fatal = none ∧ prepared.commitReady = true ∧ prepared.mp.layout = [⟨0, false, [0], 0, 0, 1, [0], 0⟩] ∧ base.mp.jstate ≠ 1
    ∧ (let s := { moving with
        regs := (0x1800, 6) :: (0x1818, 1) :: moving.regs
        mp := { moving.mp with moved := 2 } }
       s.pmIs 6 0 = true ∧ s.mp.jstate ≠ 1 ∧ s.mp.moved ≠ 0 ∧ s.ctxsOf 0 = []) :=
  ⟨rfl, rfl, rfl, rfl, by decide +kernel, rfl, by decide, by decide +kernel⟩
/-- RECLASS of a group of HBM to a class. -/
def reclassing (g cls : Nat) (s : State) : State := managed [(0x1808, g + cls * 65536)] s
theorem witness_ReclassingAGroup :
    bitOf ((reclassing 1 2 base).reg 0 0x1818) 0 = false ∧ ((reclassing 1 2 base).part? 0).map (·.resetting) = some false ∧ (reclassing 1 2 base).mp.up = true
    ∧ (reclassing 1 2 base).reg 0 0x1808 % 8192 = 1 ∧ field ((reclassing 1 2 base).reg 0 0x1808) 16 2 = 2
    ∧ (reclassing 1 2 base).physOk (1 * 0x4000000) = true ∧ (∀ e ∈ base.kernels, ∀ q ∈ e.2.pages, ¬(0x4000000 < q.frame + q.span))
    ∧ (1 : Nat) ∉ (reclassing 1 2 base).classLocks ∧ granules 0 ≤ granules 2 ∧ (reclassing 1 2 base).classOf 0x4000000 = 0
    ∧ field ((reclassing 1 3 base).reg 0 0x1808) 16 2 = 3 ∧ base.mp.reclass = none
    ∧ (let s := { reclassing 1 2 base with regs := (0x1800, 9) :: (0x1818, 1) :: base.regs }
       let t := { s with mp := { s.mp with reclass := some (1, 2) } }
       t.mp.reclass = some (1, 2) ∧ t.pmIs 9 0 = true ∧ t.mp.up = true ∧ t.flips = [] ∧ ∀ e ∈ t.kernels, e.2.phase ≠ 0) := by
  decide +kernel
/-- Port 3 is up and has key 7 for partition 0; the device with number 9 is reached over it. -/
def linked (f : Frame → Frame) : State :=
  { base with
    ports := [(3, { (default : Port) with
      up := true
      keys := [(0, 7)]
      gcm := [(0, 5)] })]
    routes := [(9, 1 + 3 * 256)]
    frames := [(1, f { (default : Frame) with
      state := 1
      fn := 1
      ctx := 0
      tag := 1
      pr := true
      pw := true })] }
/-- A packet for this device under key 7, with its tag. -/
def sealedPacket (key op arg addr len tag : Nat) (cls : Nat) (payload : List Byte) : Packet :=
  let b := toBytes 2 base.devNumber ++ toBytes 2 9 ++ toBytes 2 key ++ toBytes 1 op ++ toBytes 1 arg ++ toBytes 8 addr ++ toBytes 4 len
    ++ toBytes 12 77 ++ toBytes 8 tag ++ toBytes 4 0 ++ toBytes 1 cls ++ toBytes 19 0 ++ payload
  ⟨b ++ toBytes 16 (Config.gcmTag 5 77 b).toNat⟩
theorem sealedPacket_tag (key op arg addr len tag cls : Nat) (bs : List Byte) (k : Packet) (h : k = sealedPacket key op arg addr len tag cls bs) :
    (Config.gcmTag 5 77 (k.bytes.take (k.bytes.length - 16))).toNat = packetNum k (k.bytes.length - 16) 16 := by
  obtain ⟨b, hb⟩ : ∃ b : List Byte, k = ⟨b ++ toBytes 16 (Config.gcmTag 5 77 b).toNat⟩ := ⟨_, h⟩
  subst hb
  simp only [packetNum]
  have l : (b ++ toBytes 16 (Config.gcmTag 5 77 b).toNat).length - 16 = b.length := by simp
  rw [l, List.take_left, blockNum_append rfl (by simp), ofBytes_toBytes_of_lt]
  have := (Config.gcmTag 5 77 b).isLt
  omega
/-- A write of 32 bytes at 0x10000, a read request, a sum of BF16 values. -/
theorem witness_NagilFlitsAndPackets :
    ((linked id).port 3).up = true ∧ ((linked id).port 4).up = false ∧ (linked id).fatal = none
    ∧ (∀ op : Fin 7, let k := sealedPacket 7 op 2 0x10000 32 0 0 (List.replicate 32 1)
        packetFormed k = true ∧ packetNum k 6 1 = op ∧ packetNum k 0 2 % 4096 = (linked id).devNumber
        ∧ ((linked id).port 3).entry (packetNum k 4 2) = some (0, 0) ∧ mget ((linked id).port 3).gcm 0 0 = 5 ∧ packetNum k 20 12 = 77
        ∧ packetNum k 8 8 % 2 ^ 39 = 0x10000 ∧ (packetPayload k).length = 32 ∧ packetNum k 44 1 % 4 = 0)
    ∧ ((linked id).port 3).entry 8 = none
    ∧ (linked id).peerKilled 0x10000 32 = false ∧ (linked id).peerMay 0 0x10000 32 true = true ∧ (linked id).peerMay 0 0x10000 32 false = true
    ∧ (linked (fun f => { f with pw := false })).peerMay 0 0x10000 32 true = false
    ∧ (linked (fun f => { f with pr := false })).peerMay 0 0x10000 32 false = false
    ∧ (ctxIn (fun x => { x with state := 5 }) (linked id)).peerKilled 0x10000 32 = true
    ∧ framesIn 0x10000 32 = [0x10000] ∧ (linked id).classOf 0x10000 = 0 ∧ packetNum (sealedPacket 7 1 2 0x10000 32 0 1 []) 44 1 % 4 = 1
    ∧ ((formatOf (packetNum (sealedPacket 7 4 0x10 0x10000 32 0 0 []) 7 1 / 8 + 1)).map (fun f => if reducible f then f.size / 8 else 0)) = some 2
    ∧ packetNum (sealedPacket 7 4 0x10 0x10000 32 0 0 []) 7 1 % 8 = 0
    ∧ packetNum (sealedPacket 7 4 0x13 0x10000 32 0 0 []) 7 1 % 8 = 3
    ∧ packetNum (sealedPacket 7 2 0 0x10000 32 0 0 []) 16 4 % 4097 = 32 := by decide +kernel
theorem witness_NagilFlitsAndPackets_tags (k : Packet) (h : k = sealedPacket 7 1 2 0x10000 32 0 0 (List.replicate 32 1)) :
    (Config.gcmTag (mget ((linked id).port 3).gcm 0 0) (packetNum k 20 12) (k.bytes.take (k.bytes.length - 16))).toNat
      = packetNum k (k.bytes.length - 16) 16 := by
  rw [show mget ((linked id).port 3).gcm 0 0 = 5 by decide +kernel, show packetNum k 20 12 = 77 by subst h; decide +kernel]
  exact sealedPacket_tag _ _ _ _ _ _ _ _ k h
/-- A packet with a zero header but for destination, key and operation, and a tag of its own. -/
def tagged (n : Nat) : Packet :=
  ⟨toBytes 2 base.devNumber ++ toBytes 2 9 ++ toBytes 2 7 ++ toBytes 1 1 ++ toBytes 57 0 ++ toBytes 16 n⟩
theorem witness_NagilFlitsAndPackets_badTag : ∃ k : Packet, packetFormed k = true ∧ packetNum k 4 2 = 7 ∧ packetNum k 6 1 = 1
    ∧ packetNum k 0 2 % 4096 = (linked id).devNumber
    ∧ (Config.gcmTag (mget ((linked id).port 3).gcm 0 0) (packetNum k 20 12) (k.bytes.take (k.bytes.length - 16))).toNat
      ≠ packetNum k (k.bytes.length - 16) 16 := by
  have e : (tagged 0).bytes.take ((tagged 0).bytes.length - 16) = (tagged 1).bytes.take ((tagged 1).bytes.length - 16)
      ∧ packetNum (tagged 0) 20 12 = packetNum (tagged 1) 20 12 := by decide +kernel
  have p0 : packetFormed (tagged 0) = true ∧ packetNum (tagged 0) 4 2 = 7 ∧ packetNum (tagged 0) 6 1 = 1
    ∧ packetNum (tagged 0) 0 2 % 4096 = (linked id).devNumber ∧ packetNum (tagged 0) ((tagged 0).bytes.length - 16) 16 = 0 := by decide +kernel
  have p1 : packetFormed (tagged 1) = true ∧ packetNum (tagged 1) 4 2 = 7 ∧ packetNum (tagged 1) 6 1 = 1
    ∧ packetNum (tagged 1) 0 2 % 4096 = (linked id).devNumber ∧ packetNum (tagged 1) ((tagged 1).bytes.length - 16) 16 = 1 := by decide +kernel
  by_cases h : (Config.gcmTag (mget ((linked id).port 3).gcm 0 0) (packetNum (tagged 0) 20 12)
      ((tagged 0).bytes.take ((tagged 0).bytes.length - 16))).toNat = 0
  · refine ⟨tagged 1, p1.1, p1.2.1, p1.2.2.1, p1.2.2.2.1, ?_⟩
    rw [← e.1, ← e.2, h, p1.2.2.2.2]
    decide
  · refine ⟨tagged 0, p0.1, p0.2.1, p0.2.2.1, p0.2.2.2.1, ?_⟩
    rw [p0.2.2.2.2]
    exact h
/-- A page of the lease in device 9's aperture, with a record in it. -/
def peerPage : Page := { placePage with
  va := 0x20000
  frame := 0x8048000020000 }
def peerS (a b : Nat) (f : Frame → Frame) : State :=
  let s := (linked f).modKernel 0 (fun k => { k with
    pages := [placePage, peerPage]
    ranges := [{ base := 0x10000, len := 0x20000, rights := 3, cls := 0, shadow := false }] })
  withRecord 6 (recordBytes b 4 2 0) (withRecord 5 (recordBytes a 4 2 0) (running .x 0x5 0x6 s))
/-- The plan of a transfer from a to b. -/
def peerP (k : CopyKind) (a b : Nat) : CopyPlan :=
  copyOf (peerS a b id) k { copySrc with base := a } (copyDst b) 5 6 []
theorem witness_TransfersToPeers (k : CopyKind) (h : k = .put ∨ k = .red) :
    CopyRecords (peerS 0x10000 0x20000 id) (peerS 0x10000 0x20000 id) (peerP k 0x10000 0x20000)
    ∧ CopyReady (peerS 0x10000 0x20000 id) (peerP k 0x10000 0x20000) [] ∧ anyLost (peerP k 0x10000 0x20000).srcSpots = false
    ∧ (peerP k 0x10000 0x20000).dstSpots ≠ []
    ∧ (peerP k 0x10000 0x20000).dstSpots.all (fun x => match x.2 with
      | .peer _ => true
      | _ => false) = true ∧ inGangWindow (peerP k 0x10000 0x20000).d.base = false := by
  rcases h with h | h <;> subst h <;>
    exact ⟨by unfold CopyRecords; decide +kernel, CopyReady.intro rfl (by decide +kernel) (by decide +kernel) (by decide)
      (by decide +kernel) (by decide +kernel) rfl (by decide +kernel) (by decide +kernel) (by decide +kernel) (by decide +kernel)
      (by decide +kernel), by decide +kernel, by decide +kernel, by decide +kernel, by decide +kernel⟩
theorem witness_TransfersToPeers_get :
    CopyRecords (peerS 0x20000 0x10000 id) (peerS 0x20000 0x10000 id) (peerP .get 0x20000 0x10000)
    ∧ CopyReady (peerS 0x20000 0x10000 id) (peerP .get 0x20000 0x10000) [] ∧ anyLost (peerP .get 0x20000 0x10000).srcSpots = false
    ∧ (peerP .get 0x20000 0x10000).srcSpots.all (fun x => match x.2 with
      | .peer _ => true
      | _ => false) = true
    ∧ (peerP .get 0x20000 0x10000).dstSpots.all (fun x => match x.2 with
      | .peer _ => false
      | _ => true) = true :=
  ⟨by unfold CopyRecords; decide +kernel, CopyReady.intro rfl (by decide +kernel) (by decide +kernel) (by decide) (by decide)
    (by decide +kernel) rfl (by decide +kernel) (by decide +kernel) (by decide +kernel) (by decide +kernel) (by decide +kernel),
    by decide +kernel, by decide +kernel, by decide +kernel⟩
theorem linked_port (a : Nat) : (linked id).portTo 9 a = some 3 := by
  rw [State.portTo, show mget (linked id).routes 9 0 = 1 + 3 * 256 by decide +kernel]
  simp [field, Nat.mod_one]
theorem witness_TransfersToPeers_ports :
    ((linked id).peerPackets sl 4096 [⟨0x8048000020000, [0, 0, 0, 0], (0, 0, 32, 0, 0)⟩]).map (fun gs =>
        gs.map (fun g => (g.dev, g.port, g.key, g.run.addr, g.run.pieces == [(0, 0, 32, 0, 0)])))
      = some [(9, 3, 7, 0x8048000020000, true)]
    ∧ (base.peerPackets sl 4096 [⟨0x8048000020000, [0, 0, 0, 0], (0, 0, 32, 0, 0)⟩]).isNone := by
  refine ⟨?_, by decide +kernel⟩
  have r : peerRuns 4096 [⟨0x8048000020000, [0, 0, 0, 0], (0, 0, 32, 0, 0)⟩]
    = [⟨0x8048000020000, [0, 0, 0, 0], [(0, 0, 32, 0, 0)]⟩] := rfl
  have k : (mget (linked id).ports 3 {}).up = true ∧ (linked id).portKey 3 sl.part = some (0, 7) := by decide +kernel
  rw [State.peerPackets, r]
  simp [peerDev, linked_port, k.1, k.2]
/-- A command that waits for the first of its peers since cycle 0. -/
def remoteCmd : Cmd := { (default : Cmd) with
  id := 2
  slot := sl
  engine := .x
  remote := [⟨0, 3, []⟩]
  executed := true }
def asked : State := { linked id with cmds := [remoteCmd] }
theorem witness_TransfersToPeers_answers :
    asked.asked 3 (sealedPacket 7 3 0 0x10000 32 (2 * 2 ^ 32) 0 (List.replicate 32 1)) = some (remoteCmd, ⟨0, 3, []⟩)
    ∧ asked.asked 3 (sealedPacket 7 5 0 0x10000 0 (3 * 2 ^ 32) 0 []) = none
    ∧ asked.cmd? 2 = some remoteCmd ∧ remoteCmd.remote ≠ [] ∧ asked.now < remoteCmd.started + 4200000
    ∧ remoteCmd.started + 4200000 ≤ ({ asked with now := 4200000 } : State).now := by decide +kernel
/-- A function's registers for a bias flip. -/
def flipping (rs : List (Nat × Nat)) (s : State) : State := s.modFn 1 (fun f => { f with regs := rs ++ f.regs })
theorem witness_BiasFlipsAndCxlAccesses :
    (let s := flipping [(0x1148, 0x10000), (0x1150, 0x10000)] mapped
     bitOf (s.reg 1 0x1158) 0 = false ∧ (s.ctx 1 (s.reg 1 0x1140 / 4 % 8)).state = 1
     ∧ (let ps := s.pagesFrom 1 0 0 0x20000 1 0x10000; ps.bad = false ∧ ps.missing = [] ∧ ps.mapped.length = 1 ∧ ∀ p ∈ ps.mapped, p.1.bk = false))
    ∧ (0x10010 : Nat) % 0x10000 ≠ 0 ∧ bitOf ((flipping [(0x1158, 1)] mapped).reg 1 0x1158) 0 = true
    ∧ ((flipping [(0x1140, 4)] mapped).ctx 1 1).state = 0
    ∧ (let s := mapped.modFn 1 (fun f => { f with flip := some ⟨true, [⟨0x112108, 0x10000, 0x10000⟩, ⟨0x112110, 0x20000, 0x10000⟩], 0⟩ })
       (s.fn 1).flip = some ⟨true, [⟨0x112108, 0x10000, 0x10000⟩, ⟨0x112110, 0x20000, 0x10000⟩], 0⟩) ∧ (mapped.fn 1).flip = none
    ∧ (let s := linked id
       (∀ y ∈ framesIn 0x10000 4, s.isHbm y = true ∧ (s.frame y).state = 1 ∧ (s.frame y).fn = 1) ∧ (s.fn 1).everLocked = false)
    ∧ (base.frame 0x10000).state ≠ 1 := by decide +kernel
theorem witness_BiasFlipsAndCxlAccesses_clean : (linked id).Clean 0x10000 4 := Clean.intro rfl (by decide +kernel)
/-- The function's interface in a state, and a session of the management processor. -/
def trusted (tdi nonce : Nat) : State :=
  let s := managed [] (base.modFn 1 (fun f => { f with
    tdi := tdi
    nonce := nonce }))
  { s.modPart 0 (fun p => { p with keys := 2 }) with mp := { s.mp with sessions := [12] } }
theorem witness_TrustMessagesAndKeys :
    ((trusted 0 0).fn 1).tdi = 0 ∧ ((trusted 1 5).fn 1).tdi = 1 ∧ ((trusted 1 5).fn 1).nonce = 5 ∧ ((trusted 1 5).fn 1).part = some 0
    ∧ (trusted 0 0).answers 4 = true ∧ base.answers 4 = false ∧ 12 ∈ (trusted 0 0).mp.sessions ∧ (12 : Nat) % 8 = 4
    ∧ (∃ v, (trusted 0 0).part? 0 = some v ∧ bitOf v.keys 1 = true ∧ bitOf v.keys 2 = false)
    ∧ (∀ e ∈ (trusted 0 0).kernels, ∀ g ∈ e.2.pages, g.key ≠ 1) ∧ mget ((trusted 0 0).port 3).keys 1 0 = 0
    ∧ (trusted 0 0).mp.up = true ∧ base.mp.up = false := by
  refine ⟨?_, ?_, ?_, ?_, ?_, ?_, ?_, ?_, ⟨_, rfl, ?_, ?_⟩, ?_, ?_, rfl, rfl⟩ <;> decide +kernel
/-- The function's IDE stream is established; a request of it. -/
theorem witness_TrustMessagesAndKeys_stream :
    (((trusted 0 0).modFn 1 (fun f => { f with ide := some 5 })).fn 1).ide ≠ none ∧ ((trusted 0 0).fn 1).ide = none
    ∧ tlpFn (.launchDoorbell 1 0 0 0) = some 1 ∧ (trusted 0 0).mp.startStep = 6 ∧ base.mp.startStep ≠ 6
    ∧ (⟨12, 1, false, true, 0, 0, 0, 5⟩ : KeyWrite).ide = true ∧ (12 : Nat) ∈ (trusted 0 0).mp.sessions := by decide +kernel
theorem witness_HostRegistersAndFunctionReset :
    (managed [] base).mp.startStep = 6 ∧ base.mp.startStep ≠ 6
    ∧ bitOf ((managed [] base).reg 1 0x1118) 0 = false ∧ bitOf ((managed [] (base.setReg 1 0x1118 1)).reg 1 0x1118) 0 = true
    ∧ bitOf ((managed [] base).reg 0 0x1818) 0 = false ∧ bitOf ((managed [] base).reg 1 0x1158) 0 = false
    ∧ bitOf (base.reg 0 0x1708) 2 = false ∧ bitOf ((managed [(0x1708, 4)] base).reg 0 0x1708) 2 = true
    ∧ base.fnResetting 1 = false ∧ (∀ x ∈ (vacant.fn 1).ctxs, x.2.state = 0) ∧ vacant.fnResetting 1 = false
    ∧ (base.ctx 1 0).state ≠ 0 := by decide +kernel
theorem witness_SharedStructuresAndPartitionResets :
    (1 ≤ 1 ∧ 1 ≤ 5 ∧ (0 ≤ 2)) ∧ ¬(1 ≤ 9 ∧ 9 ≤ 5) ∧ base.part? 7 = none
    ∧ (∃ v, base.part? 0 = some v ∧ v.resetting = false ∧ v.paused = false ∧ bitOf (base.watchdog 0) 6 = true
      ∧ base.stalledFor 0 v (base.watchdog 0 % 64) = none)
    ∧ (let s := { at_ (waiting .wfe) with now := 2 ^ 31 }
       ∃ v, s.part? 0 = some v ∧ s.fatal = none ∧ bitOf (s.watchdog 0) 6 = true ∧ s.stalledFor 0 v (s.watchdog 0 % 64) = some (identity sl))
    ∧ (let s := base.modPart 0 (fun p => { p with resetting := true })
       ∃ v, s.part? 0 = some v ∧ v.resetting = true ∧ (∀ fn ∈ s.fnsOf 0, (s.fn fn).flr = false) ∧ s.slotsIn 0 = [sl]
        ∧ s.ctxsOf 0 = [(1, 0)] ∧ s.commandIs 1 2 0 = false)
    ∧ (((base.setReg 1 0x1100 2).setReg 1 0x1118 1).commandIs 1 2 0) = true :=
  ⟨by decide, by decide, by decide +kernel, ⟨_, rfl, by decide +kernel, by decide +kernel, by decide +kernel, by decide +kernel⟩,
    ⟨_, rfl, by decide +kernel, by decide +kernel, by decide +kernel⟩,
    ⟨_, rfl, by decide +kernel⟩, by decide +kernel⟩
/-- Clusters 0 and 1 belong to partition 0; the management processor has run since the start. -/
def repairing (used : List Nat) : State :=
  let s := managed [] (base.modPart 0 (fun p => { p with clusters := [0, 1] }))
  { s with mp := { s.mp with spareUsed := used } }
theorem witness_RepairsAndFatalErrors :
    (repairing []).mp.up = true ∧ (repairing []).fatal = none ∧ (repairing []).now < (repairing []).mp.lastBist + 126000000000
    ∧ (let s := { repairing [] with now := 126000000000 }
       s.mp.lastBist + 126000000000 ≤ s.now ∧ s.mp.beat + 1050000000 ≤ s.now)
    ∧ (repairing []).now < (repairing []).mp.beat + 1050000000
    ∧ (repairing []).holder 5 = none ∧ (repairing []).holder 0 = some (0, 0) ∧ (repairing []).holder 1 = some (0, 1)
    ∧ ((repairing []).part? 0).isSome ∧ (repairing []).mayCommit [0] = true ∧ (repairing []).mp.repairing = none
    ∧ (0 / 16 ∉ (repairing []).mp.spareUsed) ∧ (0 / 16 ∈ (repairing [0]).mp.spareUsed) ∧ (repairing []).mp.dead = []
    ∧ base.mp.startStep = 0 ∧ base.mp.up = false
    ∧ (let s := { base with mp := { base.mp with startStep := 6 } }; s.mp.up = false ∧ s.mp.startStep ≠ 0 ∧ s.mp.jstate ≠ 1)
    ∧ (let s := { base with fatal := some ⟨1, 0, 0⟩ }; s.fatal = some ⟨1, 0, 0⟩ ∧ bitOf (mget s.regs 0x1608 0) 0 = false)
    ∧ (let s := { base with regs := (0x1608, 17) :: base.regs }
       bitOf (mget s.regs 0x1608 0) 0 = true ∧ mget s.regs 0x1610 0 < 0x10000000) := by decide +kernel
/-- One of the two clusters is no spare, whatever the spare is. -/
theorem witness_RepairsAndFatalErrors_spare : ∃ c, (c = 0 ∨ c = 1) ∧ c / 16 * 16 + Config.spareCluster (c / 16) % 16 ≠ c := by
  by_cases h : Config.spareCluster 0 % 16 = 0
  · exact ⟨1, Or.inr rfl, by simp [h]⟩
  · exact ⟨0, Or.inl rfl, by simpa using h⟩
/-- A journal whose digest is another one. -/
theorem witness_RepairsAndFatalErrors_journal : ∃ d, d ≠ journalDigest 0 [] :=
  ⟨journalDigest 0 [] + 1, by omega⟩
theorem witness_SoftErrorsFlipBits :
    base.localHeld sl 0x3FFFF8 = true ∧ base.localHeld sl 0x400000 = false ∧ (base.slot sl).task.isSome = true
    ∧ ([3, 40, 3].eraseDups).filter (fun b => decide (b < 32)) = [3] ∧ ([40].eraseDups).filter (fun b => decide (b < 40)) = []
    ∧ (3 : Fin 64) ≠ 0 ∧ (base.slot sl).sIndex (3 : Fin 64) ∉ (base.slot sl).regs.sflip := by decide +kernel
/-- The function in a state of its migration. -/
def migrating (m : Nat) (f : Fn → Fn) (s : State) : State := s.modFn 1 (fun x => f { x with mig := m })
/-- A stream that has come in but for its last eight bytes. -/
def arriving (b : List Byte) : State := migrating 4 (fun f => { f with migIn := b.take (b.length - 8) }) mapped
/-- The last eight bytes of it. -/
def lastWord (b : List Byte) : Nat := ofBytes (b.drop (b.length - 8))
theorem witness_MigrationOfAFunction :
    (base.fn 1).mig = 0 ∧ (∀ x, x < 8 → (vacant.ctx 1 x).state = 0) ∧ (base.ctx 1 0).state = 1
    ∧ ((migrating 1 id base).fn 1).mig = 1 ∧ ((migrating 3 id base).fn 1).mig = 3
    ∧ (let s := migrating 2 (fun f => { f with
        migOut := List.replicate 16 0
        migStage := 2 }) base
       (s.fn 1).mig = 2 ∧ 8 < (s.fn 1).migOut.length)
    ∧ (let s := migrating 2 (fun f => { f with
        migOut := List.replicate 8 0
        migStage := 2 }) base
       (s.fn 1).mig = 2 ∧ (s.fn 1).migStage = 2 ∧ (s.fn 1).migOut.length = 8)
    ∧ (let s := migrating 4 id mapped; (s.fn 1).mig = 4 ∧ ((s.fn 1).migIn ++ toBytes 8 0).length < 16)
    ∧ (let b := streamRecord 1 0 0 [1]
       (((arriving b).fn 1).migIn ++ toBytes 8 (lastWord b)) = b ∧ 16 ≤ b.length ∧ streamHeaderOk (b.take 16) = true
       ∧ 16 + (blockNum b 4 4 + 7) / 8 * 8 ≤ b.length ∧ blockNum b 0 2 = 1)
    ∧ streamHeaderOk ((streamRecord 7 0 0 []).take 16) = false
    ∧ (let b := streamRecord 2 0 0 [1, 0, 5, 0, 7, 0, 0, 0]
       (((arriving b).fn 1).migIn ++ toBytes 8 (lastWord b)) = b ∧ streamHeaderOk (b.take 16) = true ∧ b.length = 24 ∧ blockNum b 0 2 = 2
       ∧ ((arriving b).ctx 1 (blockNum b 2 1)).state ≠ 0 ∧ blockNum ((b.drop 16).take 8) 0 1 = 1)
    ∧ streamHeaderOk ((streamRecord 3 0 0 (List.replicate 8 0)).take 16) = true ∧ (mapped.ctx 1 1).state = 0 := by decide +kernel
/-- The record of the page at 0x10000, which the function's table maps; its first word is what has come in already. -/
theorem witness_MigrationOfAFunction_page (v : Nat) (b : List Byte)
    (h : b = streamHeader 4 0 0x10000 0x10000 ++ List.replicate 0xFFF8 0 ++ toBytes 8 v) :
    16 ≤ b.length ∧ streamHeaderOk (b.take 16) = true ∧ 16 + (blockNum b 4 4 + 7) / 8 * 8 ≤ b.length ∧ blockNum b 0 2 = 4
    ∧ mapped.ctxPhys 1 (blockNum b 2 1) (blockNum b 8 8) = some 0x10000 ∧ blockNum b 8 8 < (mapped.ctx 1 (blockNum b 2 1)).saveBase := by
  have l : (streamHeader 4 0 0x10000 0x10000).length = 16 := by decide +kernel
  have e : ∀ o n, o + n ≤ 16 → blockNum b o n = blockNum (streamHeader 4 0 0x10000 0x10000) o n := fun o n hn => by
    rw [h, List.append_assoc]
    simp only [blockNum]
    rw [List.drop_append_of_le_length (by omega), List.take_append_of_le_length (by rw [List.length_drop]; omega)]
  have t : b.take 16 = streamHeader 4 0 0x10000 0x10000 := by
    rw [h, List.append_assoc, List.take_append_of_le_length (by omega), ← l, List.take_length]
  have n : b.length = 16 + 0xFFF8 + 8 := by
    rw [h, List.length_append, List.length_append, l, List.length_replicate, length_toBytes]
  rw [t, n, e 4 4 (by decide), e 0 2 (by decide), e 2 1 (by decide), e 8 8 (by decide)]
  decide +kernel
/-- The digest that ends a stream, and another one. -/
theorem witness_MigrationOfAFunction_digest (x : List Byte) :
    ofBytes (toBytes 32 (Config.sha256 x).toNat) = (Config.sha256 x).toNat ∧ ∃ d : List Byte, d.length = 32 ∧ ofBytes d ≠ (Config.sha256 x).toNat := by
  have := (Config.sha256 x).isLt
  refine ⟨ofBytes_toBytes_of_lt (by omega), ?_⟩
  by_cases h : (Config.sha256 x).toNat = 0
  · exact ⟨1 :: List.replicate 31 0, rfl, by rw [h]; decide +kernel⟩
  · exact ⟨List.replicate 32 0, rfl, fun e => h (by rw [← e]; decide +kernel)⟩
theorem witness_ResetStartUpAndPower :
    State.reset.mp.startStep + 1 = 1 ∧ State.reset.fatal = none ∧ State.reset.power.powered = true
    ∧ (let s := { State.reset with power := { State.reset.power with clearSince := some 0 }, now := 21000000 }
       s.power.clearSince = some 0 ∧ 0 + 21000000 ≤ s.now ∧ s.power.average ≤ mget s.regs 0x1710 0 ∧ s.power.junction < 95
       ∧ s.power.pwrbrk = false)
    ∧ State.reset.power.clearSince = none ∧ mget State.reset.regs 0x1710 0 = 2600 := by decide +kernel
theorem witness_DecodeUndoesEncode :
    isWord (.addi 5 6 0x3FD (some 2)) = true ∧ wellFormed (.addi 5 6 0x3FD (some 2)) = true
    ∧ encode (.addi 5 6 0x3FD (some 2)) = [0xE0000002, 0x08051BFD] := by decide +kernel
theorem witness_StepKeepsMemoryCanonical : Memory.wf State.reset.mem = true ∧ Memory.wf cpyS.mem = true ∧ Memory.wf mapped.mem = true := by
  decide +kernel
/-- The core of the slot has the turn, with ADD s5, s7, s0 at its PC. -/
def coreTurn : State := { coded (.add 5 7 0) base with turn := .core sl }
theorem witness_StepRunsTheDecodedInstruction :
    coreTurn.stopped sl = false ∧ (coreTurn.slot sl).traps = [] ∧ (coreTurn.slot sl).exhausted = false
    ∧ (coreTurn.slot sl).deliverable = false ∧ (coreTurn.slot sl).wait = none ∧ coreTurn.issueTurn sl = true
    ∧ (let s0 := coreTurn.tookTurn sl
       let s1 := s0.atWord sl 0x00451C00 none
       s0.fetch sl = .word 0x00451C00 none ∧ queuedEngine 0x00451C00 = none ∧ s1.absentFeature 0x00451C00 = false
       ∧ (s1.slot sl).bundles = [] ∧ s1.forbids sl (.add 5 7 0) = false
       ∧ (∀ n ∈ scalarReads (.add 5 7 0) ++ scalarWrites (.add 5 7 0), (s1.slot sl).isPending n = false)
       ∧ (s1.slot sl).regs.spoison = [] ∧ s1.forbids sl .eret = true)
    ∧ coreTurn.hist = [] ∧ coreTurn.fetchAddr sl (coreTurn.slot sl).pc.toNat = some 0x10000
    ∧ (List.range 4).map (fun n => Memory.read coreTurn.mem (0x10000 + n)) = [0, 0x1C, 0x45, 0] := by decide +kernel
theorem witness_StepRunsTheDecodedInstruction_decode : decodeWord 0x00451C00 none = .ok (.add 5 7 0)
    ∧ decode [0, 0x1C, 0x45, 0] = .ok (.add 5 7 0, 1) ∧ decodeWord 0x20030420 none = .ok (.vadd 3 1 2 0 0)
    ∧ decode [2, 0, 0, 0xE0, 0xFD, 0x1B, 5, 8] = .ok (.addi 5 6 0x3FD (some 2), 2) := ⟨rfl, rfl, rfl, rfl⟩
theorem witness_StepRunsTheDecodedInstruction_prefix :
    (let s := coded (.addi 5 6 0x3FD (some 2)) base
     field (ofBytes ((List.range 4).map (fun n => Memory.read s.mem (0x10000 + n)))) 29 3 = 7
     ∧ s.fetchAddr sl ((s.slot sl).pc.toNat + 4) = some 0x10004
     ∧ (List.range 8).map (fun n => Memory.read s.mem (0x10000 + n)) = [2, 0, 0, 0xE0, 0xFD, 0x1B, 5, 8]) := by decide +kernel
/-- The vector engine serves the slot, with VADD at the head of its queue. -/
def engineTurn : State :=
  { (at_ (withQ .v [queued 0x20030420])).modKiln sl.tileId .v (fun k => { k with grant := some ⟨0, 0⟩ }) with turn := .engine sl .v }
theorem witness_StepRunsTheDecodedInstruction_engine :
    engineTurn.engineStopped sl .v = false ∧ (engineTurn.kiln sl.tileId .v).grant = some ⟨0, 0⟩ ∧ engineTurn.now < 0 + quantum .v
    ∧ Engine.v ∉ (engineTurn.slot sl).yield ∧ ((engineTurn.slot sl).seq .v).q[((engineTurn.slot sl).seq .v).pos]? = some (queued 0x20030420)
    ∧ engineTurn.loopsAllow sl .v = true ∧ (queued 0x20030420).kind = .word ∧ ((engineTurn.slot sl).seq .v).skip = 0
    ∧ (queued 0x20030420).poison = none := by decide +kernel

/-! ## Worked examples of the spec, and single steps -/

/-- The next state of an instruction, where it answers one. -/
def next? (o : Out) : Option State :=
  match o with
  | .next t => some t
  | _ => none

/-! ## Witnesses: further clauses -/

/-- Poison in 64 bytes of memory. -/
def poisoned (a : Nat) (s : State) : State := s.setPoison a 8
theorem witness_HandleAccessChecksInOrder_shadow :
    (let s := handleState { pageH true true false with sh := 0x112109 } 0; (s.here.readH 1).valid = true ∧ (s.here.readH 1).sh ≠ 0 ∧ s.pubs = []) := by
  decide +kernel
theorem witness_LoadsAndStores_poison :
    (let s := poisoned 0x1FFF8 (handleState (pageH true true false) 0xFFF8)
     s.access 1 0xFFF8 8 0 = .ok 0x1FFF8 0x1FFF8 ∧ (s.settle sl 0 0x1FFF8 8).poisonedIn 0x1FFF8 8 = true ∧ s.kclass sl ≠ 2
     ∧ (withClass 2 s).kclass sl = 2)
    ∧ (let p := base.window sl.tileId + 0x3FFFF8
       let s := poisoned p (at_ (regS [(1, 0x3FFFF8)]))
       s.spanHeld sl 0x3FFFF8 8 = true ∧ s.resident sl 0x3FFFF8 8 = true ∧ s.here.wait = none ∧ s.here.csr.armed 1 2 = false
       ∧ (s.settle sl 0 p 8).poisonedIn p 8 = true ∧ (base.settle sl 0 p 8).poisonedIn p 8 = false) := by decide +kernel
/-- ERRINJ values that strike region 0 at once, at a trigger, and an accumulator at the boundary of an entry. -/
theorem witness_CsrWordsAndInterlockedReads_inject :
    field 9 3 2 = 1 ∧ field 9 12 2 = 0 ∧ base.localHeld sl (field 9 32 22) = true ∧ base.resident sl (field 9 32 22 / 4 * 4) 4 = true
    ∧ field 0x2009 12 2 = 2 ∧ field 1 3 2 = 0 ∧ field 1 32 2 < ((base.slot sl).task.map (·.reqa)).getD 0 ∧ field 0x19 3 2 = 3 := by
  decide +kernel
/-- Four loops of the vector engine are open behind a handler. -/
theorem witness_MarkersAndLoopBundles_outer :
    let s := at_ (fun v => { v with outer := [(List.replicate 4 ⟨1, [(.v, 0)]⟩, [])] })
    s.here.bundles = [] ∧ ((s.here.bundles ++ s.here.outer.flatMap (·.1)).filter (fun b => (b.parts.map (·.1)).contains Engine.v)).length = 4 := by
  decide +kernel
/-- A spawned task with itself as a successor. -/
def spawnedTask : Task := { placeTask with
  tcb := some 0x18000
  succ := [0x18000] }
theorem witness_SpawnAndRetire_successors :
    (let s := at_ (fun v => { v with task := some spawnedTask })
     s.here.task = some spawnedTask ∧ s.kernelOf sl = some placeKernel ∧ s.counter sl 5 = 0 ∧ s.leasePhys placeKernel (0x18000 + 96) = some 0x18060
     ∧ s.leasePhys placeKernel (0x18000 + 104) = some 0x18068 ∧ s.leasePhys placeKernel (0x18000 + 108) = some 0x1806C) := by decide +kernel
theorem witness_LaunchAndRemoteEnqueue_refused :
    (let u := (mapped.modSlot sl (regH [(1, pageH true true true)])).flagged 32
     (u.access 1 0x8000 64 0 = .ok 0x18000 0x18000 ∧ (u.here.readH 1).bank = true))
    ∧ ((put [(0x112109, [1])] mapped).misclassAt 1 (mapped.ctx 1 0).ptroot 0x10400).isSome
    ∧ (mapped.misclassAt 1 (mapped.ctx 1 0).ptroot 0x10400).isNone := by decide +kernel
theorem no_poison {s : State} (h : s.poison = []) (a n : Nat) : s.poisonedIn a n = false := by simp [State.poisonedIn, h]
theorem witness_VectorLoadsAndStores_stream :
    (∃ f, mfind vecStreams.here.regs.streams (opReg 0x31) = some f ∧ f.write = true ∧ f.next + 32 ≤ f.count
      ∧ vecStreams.SpotsReady ((List.range 32).map (fun k => some (f.addr (f.next + k))))
      ∧ ∀ k, vecStreams.Clean (vecStreams.localSpot (f.addr (f.next + k))) 4)
    ∧ isStream (0x31 : Fin 64) = true ∧ ((0x31 : Fin 64) ≠ 2) ∧ (vecStreams.here.seq .x).bindsStream (opReg 0x31) vecStreams.cur.entry.stamp = false
    ∧ ¬(40 + 32 ≤ (⟨true, 0, [64, 1, 1, 1], [1, 0, 0, 0], 40, [], [], 0, 0, []⟩ : Stream).count) :=
  ⟨⟨_, rfl, rfl, by decide +kernel, ⟨by decide +kernel, by decide +kernel, by decide +kernel⟩,
    fun _ => Clean.intro (by decide +kernel) (no_poison (by decide +kernel) _ _)⟩, by decide, by decide, by decide +kernel, by decide +kernel⟩
theorem witness_VectorControlWordsAndOperandFaults_counted :
    let s := withClass 2 (vec.modRegs sl (fun r => { r with
      mbound := [1]
      mpoison := [1024 + 31] }))
    s.here.gate 0 [1, 2] (some 3) = .ok ∧ s.kclass sl = 2 ∧ (firstBad (s.here.readLines (s.here.xval .v 0) [] [1, 2])).isSome
    ∧ (s.slot sl).csr.cone = 0 ∧ s.coneEvent sl 1 1 = s := by decide +kernel
theorem witness_MatrixTileAndEventWords_refused :
    loadFormat (.flt FP16) = false ∧ drainFormat 2 (.flt FP32) = false
    ∧ (Desc.of 0x400040401001).base % 64 ≠ 0 ∧ (Desc.of 0x400040401000).soff = 0 ∧ (Desc.of 0x4000C0401000).rsv ≠ 0
    ∧ (mat id).spansHeld sl [(0x400000, 0x400004)] = false
    ∧ (running .m 0 0 spilledRegion).spansHeld sl [(0x40000, 0x40004)] = true
    ∧ (running .m 0 0 spilledRegion).spansResident sl [(0x40000, 0x40004)] = false
    ∧ ((mat (fun a => { a with valid := false })).acc sl 1).valid = false
    ∧ (0x1001 : Nat) % 16 ≠ 0 ∧ (mat id).spanHeld sl 0x400000 16 = false ∧ (running .m 0 0 spilledRegion).resident sl 0x40000 16 = false := by
  decide +kernel
/-- BKADD whose operand goes on beyond its slab, within the page and beyond it. -/
theorem witness_BankWordsCheckAndIssue_touched :
    (bankS true 0x17F80 0x100).bankPage sl 0x18000 = some (bankPage true)
    ∧ (BankOp.of 0 0x17F80 0x100).slab + 0x8000 = 0x18000 ∧ (BankOp.of 0 0x17F80 0x100).len = 256
    ∧ (BankOp.of 0 0x1FF80 0x100).slab + 0x8000 = 0x20000 ∧ (bankS true 0x1FF80 0x100).bankPage sl 0x20000 = none
    ∧ (BankOp.of 3 0x10000 0x200000000100).list.2 = 0 ∧ (BankOp.of 3 0x10000 0x3200100000100).list.1 % 2 ≠ 0 := by decide +kernel
/-- BKADD at a bank of class D, with poison in its operand. -/
def bankPoison : State := poisoned 0x10000 { banked 0 with classes := [(0, 1)] }
theorem witness_BankCommandsAtTheBank_abort :
    bankPoison.bankReady (bankCmd 0) = true ∧ bankPoison.flips = [] ∧ bankPoison.classOf (bankCmd 0).phys = 1
    ∧ (∃ r n, bankReads 0 (BankOp.of 0 0x10000 0x100) (bankCmd 0) = [] ++ r :: n ∧ bankPoison.poisonedIn r.1 r.2 = true)
    ∧ (bankPoison.slot sl).ending = none ∧ bankPoison.kclass sl ≠ 2 ∧ (withClass 2 bankPoison).kclass sl = 2 :=
  ⟨by decide +kernel, by decide +kernel, by decide +kernel, ⟨_, _, rfl, by decide +kernel⟩, by decide +kernel, by decide +kernel,
    by decide +kernel⟩
theorem witness_BlocksOfEntries_chainClean : (chained { (default : Chain) with next := 0x10000 }).Clean 0x10000 (64 + 24 * 1) :=
  Clean.intro (by decide +kernel) (no_poison (by decide +kernel) _ _)
theorem witness_KilnsDrawAndGrant_draws :
    ((drawing id).kiln sl.tileId .v).drawn ≠ some (drawing id).now ∧ ((drawing (fun k => { k with drawn := some 0 })).kiln sl.tileId .v).drawn = some 0
    ∧ mget ((drawing (fun k => { k with start := [(0, 7)] })).kiln sl.tileId .v).start 0 0 ≠ 0
    ∧ (let s := at_ (fun v => { v with arriving := [(5, 9, 0)] })
       ∃ v, s.part? 0 = some v ∧ v.loans.length ≤ 0 ∧ (s.arrivals 0)[0 - v.loans.length]? = some sl ∧ (s.slot sl).arriving = [(5, 9, 0)]) := by
  refine ⟨by decide +kernel, by decide +kernel, by decide +kernel, _, rfl, by decide +kernel, by decide +kernel, by decide +kernel⟩
theorem witness_LaunchesOfKernels_held :
    base.launchHeld placeKernel = false ∧ ({ base with fatal := some ⟨1, 0, 0⟩ } : State).launchHeld placeKernel = true
    ∧ (base.modPart 0 (fun p => { p with resetting := true })).launchHeld placeKernel = true ∧ killed.launchHeld placeKernel = true := by
  decide +kernel
theorem witness_ContextsSavedAndKilled_discard :
    (let s := preempting 3
     savedGang (s.ctx 1 0).saved placeTask.gang = [] ∧ placeTask.member < 64 ∧ 1 ≤ s.nclus 0
     ∧ ∃ v, s.part? 0 = some v ∧ ∀ r ∈ v.ready, r.tasks.length ≤ 4 * s.nclus 0) := by
  refine ⟨by decide +kernel, by decide, by decide +kernel, _, rfl, by decide +kernel⟩
theorem fold_fields (c : Nat) : let b := DeviceEvent.bytes ⟨1, 0, 5, 1, 0, 0, 0, 0⟩ 1 c 0
    blockNum b 8 1 = 1 ∧ blockNum b 9 1 = 0 ∧ blockNum b 10 2 = 5 ∧ blockNum b 24 8 = c % 2 ^ 64 := by
  simp [DeviceEvent.bytes, blockNum, List.drop_append, ofBytes_toBytes, List.drop_of_length_le]
/-- An event of this cycle folds into the record of one before it. -/
theorem witness_SharedStructuresAndPartitionResets_fold :
    let e : DeviceEvent := ⟨1, 0, 5, 1, 0, 0, 0, 0⟩
    base.devRecords = [] ∧ base.foldsInto e (e.bytes 1 base.deviceCycle 0) = true := by
  refine ⟨rfl, ?_⟩
  have h := fold_fields base.deviceCycle
  have l : (base.fn 0).logged = [] := rfl
  have z : (base.deviceCycle + 2 ^ 64 - base.deviceCycle % 2 ^ 64) % 2 ^ 64 ≤ 2100000 := by
    generalize base.deviceCycle = c
    omega
  simp only [State.foldsInto, h.1, h.2.1, h.2.2.1, h.2.2.2, l, z]
  rfl
theorem witness_SharedStructuresAndPartitionResets_function :
    (let s := (vacant.modFn 1 (fun f => { f with flr := true, tdi := 2 })).modPart 0 (fun p => { p with resetting := true })
       ∃ v, s.part? 0 = some v ∧ v.resetting = true ∧ 1 ∈ s.fnsOf 0 ∧ (s.fn 1).flr = true ∧ (∀ x ∈ (s.fn 1).ctxs, x.2.state = 0)
        ∧ (s.fn 1).tdi ≠ 0) := by
  exact ⟨_, rfl, by decide +kernel⟩
theorem witness_RepairsAndFatalErrors_unreadable :
    let s := poisoned (base.window sl.tileId) (repairing [])
    sl ∈ s.slotsIn 0 ∧ s.unreadable sl = true ∧ (s.gangOf sl).isSome ∧ s.gangSlots sl = [sl] ∧ (repairing []).unreadable sl = false := by decide +kernel
/-- A command with one write to come, and a bank command that has written. -/
def inFlight (c : Cmd) : State := { base with cmds := [{ c with id := 4 }] }
theorem witness_SoftErrorsFlipBits_flight :
    ((inFlight { command .x with moves := [{ (default : Move) with bytes := [1, 2] }] }).cmd? 4).map (fun c => c.moves.length) = some 1
    ∧ ((inFlight { command .b with executed := true, bank := some 0, dst := [(0x10000, 32)] }).cmd? 4).map (fun c =>
        (c.moves.length, c.executed, c.dst, c.bank)) = some (0, true, [(0x10000, 32)], some 0)
    ∧ (inFlight (command .x)).cmd? 5 = none ∧ ((inFlight (command .x)).cmd? 4).map (fun c => (c.moves.length, c.executed)) = some (0, false) := by
  decide +kernel
theorem witness_HostRegistersAndFunctionReset_more :
    (let s := base.modPart 0 (fun p => { p with resetting := true }); s.fnResetting 1 = true)
    ∧ (let s := { managed [] base with power := { State.reset.power with average := 2000 } }
       s.mp.startStep = 6 ∧ s.variant = 0 ∧ 1500 < s.power.average)
    ∧ (let s := managed [(0x1708, 4)] base
       bitOf (s.reg 0 0x1708) 2 = true ∧ s.mp.lockedAt ≠ some s.now ∧ ({ s.mp with lockedAt := some 0 } : Mp).lockedAt = some base.now) := by
  decide +kernel
theorem witness_TrustMessagesAndKeys_limits :
    tlpFn (.kill 40 0) = some 40 ∧ wellFormed (.kill 40 0) = false ∧ wellFormed (.launchDoorbell 1 0 0 0) = true := by decide
theorem witness_BiasFlipsAndCxlAccesses_powered : (linked id).power.powered = true ∧ ({ base.power with powered := false } : Power).powered = false := by
  decide +kernel
theorem witness_MigrationOfAFunction_empty :
    base.migAvail 1 = 0 ∧ ¬((base.fn 1).mig = 2) ∧ (migrating 3 id base).migAvail 1 = 0 := by decide +kernel
/-- ERRINJ is armed for the accumulator at the next boundary of the matrix queue. -/
theorem witness_StepRunsTheDecodedInstruction_inject :
    (let s := (at_ (fun v => { v with csr := { v.csr with errinj := 1 } }))
     (s.slot sl).csr.atBoundary .m = true ∧ s.epiCmd sl = none) ∧ (base.slot sl).csr.atBoundary .v = false := by decide +kernel
/-- spec/01, the table of worked encodings after R18: one value in six formats. -/
theorem test_number_encodings :
    ([(FP32, 0x3F800000), (FA40, 0x3F80000000), (FP16, 0x3C00), (BF16, 0x3F80), (E5M2, 0x3C), (E4M3, 0x38)].all
      (fun x => decodeFl x.1 x.2 |>.eq (.fin false 1 0))) = true
    ∧ ([(FP32, 0xBFC00000), (FA40, 0xBFC0000000), (FP16, 0xBE00), (BF16, 0xBFC0), (E5M2, 0xBE), (E4M3, 0xBC)].all
      (fun x => decodeFl x.1 x.2 |>.eq (.fin true 3 (-1)))) = true
    ∧ ([(FP32, 0xC3E00000), (FA40, 0xC3E0000000), (FP16, 0xDF00), (BF16, 0xC3E0), (E4M3, 0xFE)].all
      (fun x => decodeFl x.1 x.2 |>.eq (.fin true 448 0))) = true := by decide +kernel
theorem test_number_encodings_rounded :
    ([(FP32, 0xC3E00000), (FA40, 0xC3E0000000), (FP16, 0xDF00), (BF16, 0xC3E0), (E5M2, 0xDF), (E4M3, 0xFE)].all
      (fun x => (roundTo x.1 0 false 0 (.fin true 448 0) 1).1 == x.2)) = true := by decide +kernel
/-- spec/01, R19: division by zero, and the one quotient that does not fit. -/
theorem test_integer_division_corners :
    divInt 7 0 32 false = (0xFFFFFFFF, 7) ∧ divInt 0x80000000 0xFFFFFFFF 32 true = (0x80000000, 0) := by decide +kernel
/-- spec/01, the example after R21: an MXFP4 element and an unsigned MXINT4 element. -/
theorem test_mx_elements :
    (elementFl (.flt E2M1) 0b0011).eq (.fin false 3 (-1)) = true ∧ (mulFl (.fin false 3 (-1)) (scaleFl 0x80)).v.eq (.fin false 3 0) = true := by
  decide +kernel
/-- spec/01, the example of stochastic rounding: the generator's states, and the seed of the vector engine. -/
theorem test_generator_states :
    seedGenerator 0 1 = 0x101 ∧ xorshift 0x101 = 0x04240331 := by decide +kernel
/-- spec/01, the example of an FA40 group: a tie goes to the even fraction; 2^-31 survives. -/
theorem test_group_sum :
    groupAccumulate 0 [⟨.fin false 1 20, 1, 0⟩, ⟨.fin false 1 0, 1, 0⟩, ⟨.fin true 1 20, 1, 0⟩, ⟨.fin false 1 (-32), 1, 0⟩]
      = (0x3F80000000, fNX)
    ∧ ((groupAccumulate 0 [⟨.fin false 1 (-32), 1, 0⟩, ⟨.fin false 1 (-32), 1, 0⟩]).1 |> decodeFl FA40 |>.eq (.fin false 1 (-31))) = true := by
  decide +kernel
/-- spec/01, the example of the pairwise tree. -/
theorem test_pairwise_tree :
    pairwise addRne32 5 (0x3F800000 :: List.replicate 31 0x33800000) = (0x3F80000F, fNX) := by decide +kernel
/-- spec/01 and spec/05: the approximations of 1/sqrt(2) and of 2^-0.75. -/
theorem test_approximations : (rsqa (.fin false 2 0)).1 = 0x3F348000 ∧ (exp2a (.fin true 3 (-2))).1 = 0x3F190000 := by decide +kernel
/-- spec/03, the example of R84: a constant built 16 bits at a time. -/
theorem test_constant_in_four_words :
    ((next? (exec (.movi 5 0x0123 none) base)).bind (fun t => (next? (exec (.movs 5 0x4567) t)).map (fun u => (u.here.readS 5, u.here.pc))))
      = some (0x01234567, 0x10008) := by decide +kernel
theorem test_add_wraps :
    (next? (exec (.add 5 6 7) (at_ (regS [(6, 0xFFFFFFFFFFFFFFFF), (7, 2)])))).map (fun t => (t.here.readS 5, t.here.readS 6))
      = some (1, 0xFFFFFFFFFFFFFFFF) := by decide +kernel
/-- s0 reads as zero and discards what is written (R37). -/
theorem test_register_zero :
    (next? (exec (.addi 0 6 3 none) (at_ (regS [(6, 1)])))).map (fun t => (t.here.readS 0, t.here.pc)) = some (0, 0x10004) := by decide +kernel
/-- spec/03, the example of LDL: 0x8_0010 + 16 lies in region 2. -/
theorem test_load_local :
    (next? (exec (.ldl 5 4 7 4 none) (put [(base.window sl.tileId + 0x80020, [0, 0, 0x80, 0x3F])] (at_ (regS [(4, 0x80010)]))))).map
      (fun t => t.here.readS 5) = some 0x3F800000 := by decide +kernel
/-- spec/03, the branch of the counting loop: BNE at 0x10010 goes back 8 bytes. -/
theorem test_branch_back :
    (next? (exec (.bne 5 0 0x3FE none) (at_ (fun v => { regS [(5, 9)] v with pc := 0x10010#64 })))).map (fun t => t.here.pc)
      = some 0x10008 := by decide +kernel
theorem test_branch_not_taken :
    (next? (exec (.bne 5 0 0x3FE none) (at_ (fun v => { v with pc := 0x10010#64 })))).map (fun t => t.here.pc) = some 0x10014 := by
  decide +kernel
/-- spec/10, the address of element (2, 7) of m5 of slot 3 of physical tile 77. -/
theorem test_element_address : 0xF000000000 + 0x4D000000 + 3 * 0x10000 + elAddr 5 71 = 0xF04D53511C := by decide
/-- spec/12, the draws of R314: the vector Kiln's seed, both winners, and the factor of slot 2. -/
theorem test_draws :
    seedOf 0 0 1 = 0x101 ∧ (drawWinner 0x04240331 [(0, 10000), (2, 30000), (5, 960000)] [] 0).1 = 2
    ∧ xorshift 0x04240331 = 0x0C0E4310 ∧ factorAfter 64 256 false = 0x40000
    ∧ (drawWinner 0x0C0E4310 [(0, 10000), (2, 120000), (5, 960000)] [] 0).1 = 2
    ∧ (drawWinner 0x0C0E4310 [(0, 10000), (2, 30000), (5, 960000)] [] 0).1 = 5 := by decide +kernel
/-- spec/12, the victim of R320. -/
theorem test_residency_draw :
    seedOf 0 0 7 = 0x707 ∧ xorshift 0x707 = 0x1CFC0997
    ∧ residencyVictim 0x1CFC0997 [(4, 100000), (7, 300000), (11, 600000)] = 4 := by decide +kernel
/-- spec/22, the peer address of R411: device 803. -/
theorem test_peer_device : peerDev 0x9919800004000 = 803 := by decide
/-- spec/08, the lane of the worked example: eight values of weight 1/8, and 8j with weights 3/8, 1/8 and 1/16. -/
def laneA : List Point := (List.range 8).map (fun j => ((roundTo FP32 0 true 0 (.fin false j 0) 1).1, 0x10000000))
def laneB : List Point := ([0x30000000, 0x10000000, 0x10000000, 0x10000000, 0x10000000, 0x08000000, 0x08000000, 0].zipIdx).map
  (fun x => ((roundTo FP32 0 true 0 (.fin false (8 * x.2) 0) 1).1, x.1))
/-- The sum of the two, and what the spec extracts from it: variance 243.47265625 and the quantile at 0.9, 47.5. -/
theorem test_independent_sum :
    let d2 := (crossLane (pairOp (addFl 0)) laneA laneB).1
    (momentOf 2 (alive (lanePairs d2))).1 = 0x43737900 ∧ (quantile 0x3F666666 (alive (lanePairs d2))).1 = 0x423E0000
    ∧ (cdfAt 0x41A00000 (alive (lanePairs d2))).1 = 0x3F200000 := by decide +kernel

end Sys2Proof.Tests
end

section
/-!
PROOF. What reset leaves: memory with nothing listed, every component at its default, the registers as the host reads
them, and a slot where a task has yet to start.
-/

namespace Sys2Proof.Machine

/-! ## The state after reset, one lemma per accessor -/

@[simp] theorem State.full_reset (a : Nat) : State.reset.full a = false := rfl

@[simp] theorem State.part?_reset (p : Nat) : State.reset.part? p = none := rfl

@[simp] theorem State.slot_reset (sl : SlotId) : State.reset.slot sl = {} := rfl

@[simp] theorem State.fn_reset (fn : Nat) : State.reset.fn fn = {} := rfl

@[simp] theorem State.ctx_reset (fn c : Nat) : State.reset.ctx fn c = {} := rfl

/-- PWRCAP (0x1710, R452) is the one register of the physical function that reset lists. -/
theorem State.mget_regs_reset {off d : Nat} (h : off ≠ 0x1710) : mget State.reset.regs off d = d := by
  simp [State.reset, mget, mfind, h.symm]

theorem State.reg_reset (fn off : Nat) : State.reset.reg fn off = if fn = 0 ∧ off = 0x1710 then 2600 else 0 := by
  unfold State.reg
  by_cases hfn : fn = 0
  · by_cases hoff : off = 0x1710
    · subst hoff
      rw [if_pos hfn, if_pos ⟨hfn, rfl⟩]
      rfl
    · rw [if_pos hfn, State.mget_regs_reset hoff, if_neg (fun h => hoff h.2)]
  · rw [if_neg hfn, State.fn_reset, if_neg (fun h => hfn h.1)]
    rfl

/-- Watchdog registers are not listed at reset, and read as LIMIT 31 and EN 1 (R429). -/
theorem State.watchdog_reset {p : Nat} (h : p < 16) : State.reset.watchdog p = 31 + 64 :=
  State.mget_regs_reset (by omega)

/-! ## What the host reads of a register that the device derives -/

theorem State.hostRead_watchdog (s : State) {p : Nat} (h : p < 16) :
    s.hostRead 0 (0x1500 + 8 * p) = s.watchdog p + ((s.part? p).map (·.wdResets)).getD 0 * 2 ^ 16 := by
  have hp : (0x1500 + 8 * p - 0x1500) / 8 = p := by omega
  unfold State.hostRead
  rw [if_pos ⟨rfl, by omega, by omega⟩, hp]

theorem State.hostRead_devfeat (s : State) : s.hostRead 0 0x1700 = s.devfeat := rfl

/-- CTXSTATE (R388). -/
theorem State.hostRead_ctxState (s : State) (fn : Nat) :
    s.hostRead fn 0x1120 = sumOf ((List.range 8).map (fun c => (s.ctx fn c).state * 16 ^ c)) :=
  if_neg (by omega)

theorem State.hostRead_watchdog_reset {p : Nat} (h : p < 16) : State.reset.hostRead 0 (0x1500 + 8 * p) = 31 + 64 := by
  rw [State.hostRead_watchdog _ h, State.watchdog_reset h, State.part?_reset]
  rfl

theorem State.hostRead_ctxState_reset (fn : Nat) : State.reset.hostRead fn 0x1120 = 0 := by
  simp only [State.hostRead_ctxState, State.ctx_reset]
  rfl

/-- PWRSTAT (R452): the clock, with no cause that lowers it and nothing measured. -/
theorem State.hostRead_pwrstat_reset : State.reset.hostRead 0 0x1718 = 2100 := rfl

/-! ## A slot where a task has yet to start -/

theorem Slot.readS_default (n : Nat) : ({} : Slot).readS n = 0 := by
  unfold Slot.readS
  split <;> rfl

theorem Slot.readP_default {n : Nat} (h : n ≠ 0) : ({} : Slot).readP n = 0 := by
  rw [Slot.readP, if_neg h]
  rfl

end Sys2Proof.Machine

namespace Sys2Proof

open Machine

/-- Settles O58: with nothing listed, memory reads 0 (log entry 3) and every accessor gives its default; the registers
that the host reads are derived from those, for a Z9 (log entry 20). -/
theorem resetValues : Obligations.ResetValues := by
  unfold Obligations.ResetValues
  refine ⟨rfl, fun _ => rfl, State.full_reset, State.part?_reset, fun _ _ => rfl, State.slot_reset, rfl, rfl,
    State.fn_reset, rfl, State.reg_reset, fun _ => State.hostRead_watchdog_reset, State.hostRead_devfeat _,
    State.hostRead_pwrstat_reset, State.hostRead_ctxState_reset, ⟨rfl, rfl⟩, ?slot⟩
  case slot =>
    exact ⟨Slot.readS_default, rfl, fun _ => Slot.readP_default, fun _ => rfl, rfl, fun _ => rfl, rfl, fun _ => rfl⟩

end Sys2Proof
end
